-- ==== Sys2Proof/Word.lean ====
section
/-! DEFINITION. The widths of the wire and of time: bytes, 16-bit words, MACs, ports, logical printers, and word times. -/

namespace Sys2Proof

/-- A byte of a carrier frame or of the spool store. -/
abbrev Byte := BitVec 8

/-- A 16-bit word, the wire unit on coax (00_scope.md, section 0.4). -/
abbrev Word := BitVec 16

/-- A 48-bit Ethernet station address. -/
abbrev Mac := BitVec 48

/-- Segment ports S0 to S3. -/
abbrev Port := Fin 4

/-- Pairs of ports: 0 is S0 with S1, 1 is S2 with S3 (R173). -/
abbrev PairNo := Fin 2

/-- Logical printers L1 to L8, numbered from 0; L1 is directory entry 2 (R41). -/
abbrev Lp := Fin 8

/-- A directory number, 1 to 384 in use. -/
abbrev DirNo := Nat

/-- A block of the spool store (R119). -/
abbrev BlockNo := Fin 512

/-- A time or a duration in word times of 8 µs (section 0.4; log 1). -/
abbrev Time := Nat

namespace Time

/-- Word times in a millisecond: 125 (section 0.4). -/
abbrev ms (n : Nat) : Time := 125 * n

/-- Word times in a second. -/
abbrev sec (n : Nat) : Time := 125000 * n

end Time

end Sys2Proof
end

