-- ==== Sys2Proof/Machine/Records.lean ====
section
/-! DEFINITION. The named values and records of the manual, as plain data: blocks and frames, directory entries, settings,
management requests, jobs, printers, exchanges, monitors and feed controllers. -/

namespace Sys2Proof

/-! ## Names -/

/-- An end of a paired segment: A is the lower port, B the upper (section 0.5). -/
inductive Side | a | b
  deriving DecidableEq, Repr

/-- Block kinds 0 to 12 (section 0.6); 13 to 15 are not assigned. -/
inductive Kind
  | data | request | reply | hold | busy | fail | printOpen | printData | printClose | status | manage | notice | hello
  deriving DecidableEq, Repr

/-- FAIL reasons 1 to 11 (R4). -/
inductive FailReason
  | timeout | unreachable | noAnswer | refused | sequence | tooLarge | reset | notOwner | unknownJob | full | targetFailed
  deriving DecidableEq, Repr

/-- STATUS codes 1 to 4 (R4). -/
inductive StatusCode | ready | busy | paperOut | offline
  deriving DecidableEq, Repr

/-- The order field of an entry homed on PAIR (R34). -/
inductive Order | asSent | swapped
  deriving DecidableEq, Repr

/-- The fault kinds of a line monitor (R155). -/
inductive FaultKind | short | openLine | jabber | lowSignal
  deriving DecidableEq, Repr

/-- A set of fault kinds: a hold set or a latched set (R155), or the kinds that CLEAR-FAULTS names (R166). -/
structure FaultSet where
  short : Bool := false
  openLine : Bool := false
  jabber : Bool := false
  lowSignal : Bool := false
  deriving DecidableEq, Repr

/-- A subset of S0 to S3. -/
abbrev PortSet := Vector Bool 4

/-- No port. -/
abbrev PortSet.none : PortSet := Vector.replicate 4 false

/-- All four ports. -/
abbrev PortSet.all : PortSet := Vector.replicate 4 true

/-- Every counter name of the manual: LINE groups (R6, R9, R17, R165), PAIR (R37), EXCHANGE (R117), MAP (R48, R52),
SPOOL and STORE (R134), forwarding (R95), delivery (R154) and feed controller (R173). -/
inductive Ctr
  | fragment | badCheck | badLength | badKind | badAddress | badPayload | excessCollision | answerDropped
  | short | jabber | openLine | lowSignal | testInconclusive | degraded
  | badFcs | malformed | unknownSource | sourceMismatch | linkLost
  | unexpectedReply | unexpectedAnswer | timedOut | noAnswer | targetFailed | tableFull | closedByLine
  | mapFull | conflict
  | disabled | jobsFull | fillingLimit | storeFull | streamHeld | tooLarge | stalled | noticeLost
  | parity
  | unknownDest | destUnreachable | noNumber | queueFull | flushed | noOwner | pairLocal | refused
  | noResponse | pauseLimit | stopped | printerFail
  | splits | rejoins | relayed | relayLost
  deriving DecidableEq, Repr

/-- A set of counters: each name with its value, 0 to 65535 (section 0.4). -/
abbrev Counters := List (Ctr × Nat)

/-! ## Blocks and frames -/

/-- A coax block (R1). `payload` holds the payload words as bytes, high byte first, padding byte included: 2 × length bytes. -/
structure Block where
  dst : Nat
  src : Nat
  kind : Kind
  seq : Bool := false
  pad : Bool := false
  payload : List Byte := []
  deriving DecidableEq, Repr

/-- A carrier frame the U416 sends or has received (section 0.6, R29); `mac` is the other party's MAC:
the destination of a frame sent, the source of a frame received. -/
structure Carrier where
  mac : Mac
  kind : Kind
  reason : Nat := 0
  seq : Byte := 0
  tag : Nat := 0
  dst : Nat
  src : Nat
  data : List Byte := []
  deriving DecidableEq, Repr

/-- An Ethernet frame as the PHY delivers it (R24): whether its frame check is right, its addresses and type, and the bytes
that follow the type field. -/
structure EtherIn where
  fcsOk : Bool
  dst : Mac
  src : Mac
  type : Nat
  data : List Byte
  deriving DecidableEq, Repr

/-- An Ethernet frame handed to the PHY (R29, R32): `data` holds the carrier header, the data and the padding. -/
structure EtherOut where
  dst : Mac
  src : Mac
  type : Nat
  data : List Byte
  deriving DecidableEq, Repr

/-- A burst of carrier from another sender as the receiver sees it end (R5): whether it presented a complete preamble, the
complete words after the preamble, and the measured preamble amplitude in mV (R167). -/
structure Burst where
  preamble : Bool
  words : List Word
  amplitude : Nat
  deriving DecidableEq, Repr

/-- An answer of the U416 to a request-like block or frame (R12, R30). -/
inductive Answer
  | reply (data : List Byte)
  | hold (time : Nat)
  | busy
  | fail (reason : FailReason) (detail : Nat)
  deriving DecidableEq, Repr

/-- Who put a question to the U416 and how the answer goes back (R12, R30). `entry` is the source entry, if there is one.
On coax: the arrival port, the asker's number, the number asked and the sequence bit; on the pair side: the asker's MAC, the
destination field, the tag and the sequence byte. -/
inductive Asker
  | coax (port : Port) (src dst : Nat) (seq : Bool) (entry : Option DirNo)
  | pair (mac : Mac) (dst tag : Nat) (seq : Byte) (entry : Option DirNo)
  deriving DecidableEq, Repr

/-- The block of the U416 that placed a frame on a queue (R11, R17, R32). -/
inductive Origin
  /-- forwarded DATA or a broadcast copy of the forwarding engine -/
  | forward
  /-- a relay between the halves of a split segment (R178) -/
  | relay (pair : PairNo)
  /-- the exchange table's forwarded REQUEST -/
  | request (tag : Nat)
  /-- the delivery unit's PRINT-DATA for a logical printer -/
  | delivery (lp : Lp)
  /-- the delivery unit's status query to a printer -/
  | query (printer : DirNo)
  /-- a management answer (R181) -/
  | agent
  /-- a notice to a notice destination (R187) -/
  | notice
  /-- a job notice to an owner (R133) -/
  | jobNotice
  /-- a relayed REPLY or an answer of the U416: its loss has no effect but that the asker repeats -/
  | answer
  deriving DecidableEq, Repr

/-- A frame on a segment port's queue (R9, R17). `named` is the end the frame was built for where its route names one (R177);
copies of one frame share `serial`, and `siblingSent` says that another copy has been sent. -/
structure CoaxFrame where
  block : Block
  origin : Origin
  serial : Nat
  named : Option Port := none
  attempts : Nat := 1
  charged : Bool := false
  siblingSent : Bool := false
  deriving DecidableEq, Repr

/-- A frame on the pair transmit queue (R32). -/
structure PairFrame where
  frame : Carrier
  origin : Origin
  serial : Nat
  deriving DecidableEq, Repr

/-- A received block handed to the forwarding engine (R7), with the late mark of R14. -/
structure CoaxArrival where
  block : Block
  late : Bool
  deriving DecidableEq, Repr

/-- A carrier frame handed to the forwarding engine with the source entry found by MAC (R26), with the late mark of R14. -/
structure PairArrival where
  frame : Carrier
  source : DirNo
  late : Bool
  deriving DecidableEq, Repr

/-- Where an arrival is taken from (R79). -/
inductive ArrivalSource | port (p : Port) | pair
  deriving DecidableEq, Repr

/-! ## The directory -/

/-- The states of an entry in use (R38); a FREE entry is one the directory does not list (log 11). -/
inductive EntryState | learned | fixed | retiring
  deriving DecidableEq, Repr

inductive EntryKind | bridge | spool | station | printer
  deriving DecidableEq, Repr

/-- An entry's home with the fields present for that home (R38): number, or MAC and order. -/
inductive Home
  | seg (port : Port) (number : Nat)
  | pair (mac : Mac) (order : Order)
  | internal
  deriving DecidableEq, Repr

/-- The end field (R60). -/
inductive EndField | a | b | unknown
  deriving DecidableEq, Repr

structure Rights where
  manage : Bool := false
  urgentPrint : Bool := false
  deriving DecidableEq, Repr

/-- A directory entry in use (R38). `endField` is present when the home is the lower port of a paired segment. -/
structure Entry where
  state : EntryState
  kind : EntryKind
  home : Home
  endField : Option EndField := none
  visible : Option Nat := none
  shown : PortSet := PortSet.none
  withdrawn : PortSet := PortSet.none
  rights : Rights := {}
  age : Nat := 0
  pins : Nat := 0
  bridgeBit : Bool := false
  reachable : Bool := false
  deriving DecidableEq, Repr

/-- The directory's entries in use, by rising directory number. -/
abbrev Entries := List (Nat × Entry)

/-- The home named in an EDIT-ENTRY body (R67). -/
inductive HomeKind | port (p : Port) | pair | internal
  deriving DecidableEq, Repr

/-- The state an EDIT-ENTRY writes (R67). -/
inductive WriteState | fixed | learned
  deriving DecidableEq, Repr

/-- The complete plan fields of an EDIT-ENTRY body, as sent (R67). -/
structure PlanFields where
  state : WriteState
  kind : EntryKind
  home : HomeKind
  number : Option Nat := none
  mac : Option Mac := none
  visible : Option Nat := none
  shown : PortSet := PortSet.none
  order : Option Order := none
  rights : Rights := {}
  deriving DecidableEq, Repr

/-- The body of EDIT-ENTRY: the word DELETE or the plan fields (R67). -/
inductive EntryEdit | delete | fields (f : PlanFields)
  deriving DecidableEq, Repr

inductive JobMode | spool | stream
  deriving DecidableEq, Repr

/-- The binding and settings of a logical printer that EDIT-PRINTER writes (R68). -/
structure Binding where
  primary : Option DirNo := none
  alternate : Option DirNo := none
  mode : JobMode := .spool
  pace : Nat := 16
  urgentAllowed : Bool := false
  deriving DecidableEq, Repr

/-- A pending edit of the staging area (R66). -/
inductive Edit
  | entry (n : DirNo) (e : EntryEdit)
  | printer (n : DirNo) (b : Binding)
  deriving DecidableEq, Repr

/-- The checks C1 to C7 of R71 that a trial copy fails, with the details the refusal names. -/
structure CheckFailure where
  check : Nat
  segment : Nat := 0
  number : Nat := 0
  first : Nat := 0
  second : Nat := 0
  deriving DecidableEq, Repr

/-! ## Settings -/

inductive Response | isolate | continue
  deriving DecidableEq, Repr

inductive SamplingMode | spot | watch
  deriving DecidableEq, Repr

/-- A broadcast set (R92): segments and PAIR. -/
structure BroadcastSet where
  segments : PortSet := PortSet.none
  pair : Bool := false
  deriving DecidableEq, Repr

/-- The per-port settings (R47, R92, R158), at their defaults. -/
structure PortSettings where
  learning : Bool := true
  autoShow : Bool := false
  broadcast : BroadcastSet := {}
  share : Nat := 50
  cap : Nat := 2084
  enable : Bool := true
  openResponse : Response := .isolate
  lowResponse : Response := .continue
  report : FaultSet := ⟨true, true, true, true⟩
  deglitch : Nat := 20
  nominal : Nat := 1000
  sampling : SamplingMode := .spot
  deriving DecidableEq, Repr

/-- The pair address when the stored image is not GOOD: 02:00:00:00:00:01 (R188). -/
abbrev defaultPairAddress : Mac := 0x020000000001#48

/-- Every setting of R184, at its default. -/
structure Settings where
  carrierType : Nat := 0x6C4E
  pairAddress : Mac := defaultPairAddress
  pairLearning : Bool := true
  pairOrder : Order := .asSent
  autoShowSet : PortSet := PortSet.all
  ageingPeriod : Nat := 60
  ageLimit : Nat := 20
  pairBroadcast : PortSet := PortSet.none
  exchangeTimeout : Nat := 50
  stallTimeout : Nat := 60
  pauseLimit : Nat := 10
  pairing : Vector Bool 2 := Vector.replicate 2 false
  notice1 : Option DirNo := none
  notice2 : Option DirNo := none
  port : Vector PortSettings 4 := Vector.replicate 4 {}
  deriving DecidableEq, Repr

/-- A setting's value by the kind of its range (R184). -/
inductive SettingValue
  | number (n : Nat)
  | mac (m : Mac)
  | onOff (on : Bool)
  | order (o : Order)
  | ports (s : PortSet)
  | broadcast (s : BroadcastSet)
  | response (r : Response)
  | report (on : Bool)
  | sampling (m : SamplingMode)
  | pairing (paired : Bool)
  | destination (n : Option DirNo)
  deriving DecidableEq, Repr

/-! ## Management requests (R183) -/

/-- The named fields of a management request's selector and body. In CLEAR-FAULTS, `foreign` says that the body names a kind
outside the four (R166). -/
inductive ManageReq
  | readStatus
  | setSetting (selector id : Nat) (value : SettingValue)
  | readSetting (selector id : Nat)
  | readEntry (selector : Nat)
  | editEntry (selector : Nat) (edit : EntryEdit)
  | editPrinter (selector : Nat) (b : Binding)
  | discardEdits
  | commit
  | readPort (selector : Nat)
  | clearFaults (selector : Nat) (kinds : FaultSet) (foreign : Bool)
  | readSpool (selector : Nat)
  | readJob (selector : Nat)
  | cancelJob (selector : Nat)
  | readPrinter (selector : Nat) (clear : Bool)
  | readErrors (selector : Nat)
  | clearErrors (selector : Nat) (clear : Bool)
  | readForwarding (clear : Bool)
  | save
  | resetBridge
  | resetPort (selector : Nat)
  deriving DecidableEq, Repr

/-- The results of a management answer (R183). -/
inductive Result | ok | denied | malformed | notFound | busy | full | checkFailed
  deriving DecidableEq, Repr

/-! ## Line monitors and feed controllers -/

inductive PortMode | off | testing | active | isolated
  deriving DecidableEq, Repr

/-- A line monitor's records (R155). Times stand for the counters that are read from them (log 38): `runFrom` for the test run
in hand, `jabberFrom` for the jabber quiet time, `lastSample` for the sampling interval. -/
structure Monitor where
  state : PortMode := .off
  hold : FaultSet := {}
  latched : FaultSet := {}
  testOwed : Bool := false
  restarts : Nat := 0
  runFrom : Option Time := none
  echo : Nat := 0
  echoDue : Bool := false
  jabberFrom : Option Time := none
  history : List Nat := []
  lowRun : Nat := 0
  degraded : Bool := false
  mode : SamplingMode := .spot
  lastSample : Time := 0
  lastAmp : Option Nat := none
  deriving DecidableEq, Repr

/-- The result of a termination test run that no carrier has interrupted (R160). -/
inductive TestResult | good | short | openLine
  deriving DecidableEq, Repr

/-- The attempt in hand (R8): its class, when the port began to drive, and the words it drives. -/
structure Attempt where
  class0 : Bool
  start : Time
  words : List Word
  deriving DecidableEq, Repr

/-- Foreign carrier present on a segment (R5, R163): since when, whether JABBER has been detected in this burst, and whether a level
sample has taken its preamble's amplitude while it was still on the wire (R167). -/
structure Carriage where
  start : Time
  jabbered : Bool := false
  sampled : Bool := false
  deriving DecidableEq, Repr

/-- A drive current above the short limit on a port: how long it has been so without a break, in microseconds (R162; log 34). -/
structure ShortCurrent where
  port : Port
  duration : Nat
  deriving DecidableEq, Repr

/-- A level sample on a port: the preamble amplitude of a burst that is still on the wire with its preamble complete, in mV, if there is
one (R167; log 34). -/
structure LevelMeasure where
  port : Port
  onWire : Option Nat
  deriving DecidableEq, Repr

/-- One segment port: queues and contention (R8 to R18), allowance (R96) and line monitor (R155). -/
structure PortState where
  class0 : List CoaxFrame := []
  class1 : List CoaxFrame := []
  attempt : Option Attempt := none
  backoff : Option Time := none
  carrier : Option Carriage := none
  quietFrom : Time := 0
  waiting : List Lp := []
  allowance : Nat := 2084
  remainder : Nat := 0
  arrivals : List CoaxArrival := []
  mon : Monitor := {}
  deriving DecidableEq, Repr

inductive FeedState | feedA | feedB | split | down
  deriving DecidableEq, Repr

inductive Window | none | switch | split
  deriving DecidableEq, Repr

/-- The feed controller's counters (R173). -/
abbrev feedCounters : Counters := [(.splits, 0), (.rejoins, 0), (.relayed, 0), (.relayLost, 0)]

/-- A pair's feed controller (R173, R180). `paired` is the pairing in effect; `openInWait` says that a test ended OPEN during
the start-up wait. -/
structure Feed where
  paired : Bool := false
  state : FeedState := .down
  startWait : Bool := false
  openInWait : Bool := false
  window : Window := .none
  probeFrom : Option Time := none
  probing : Bool := false
  counters : Counters := feedCounters
  deriving DecidableEq, Repr

/-! ## Repeat memories -/

/-- A record of the coax repeat memory (R15). -/
structure Repeat where
  segment : Port
  asker : Nat
  dst : Nat
  kind : Kind
  seq : Bool
  answer : Answer
  updated : Time
  deriving DecidableEq, Repr

/-- A record of the pair repeat memory (R30). -/
structure PairRepeat where
  asker : DirNo
  dst : Nat
  tag : Nat
  kind : Kind
  seq : Byte
  answer : Answer
  updated : Time
  deriving DecidableEq, Repr

/-! ## Exchanges (R100) -/

/-- A latched route: a port or a named end, a paired segment with end UNKNOWN (by its lower port), or PAIR with a MAC. -/
inductive Route
  | port (p : Port)
  | unknownEnd (lower : Port)
  | pair (mac : Mac)
  deriving DecidableEq, Repr

/-- The requester's sequence (R100). -/
inductive ReqSeq | bit (b : Bool) | tagged (tag : Nat) (seq : Byte)
  deriving DecidableEq, Repr

/-- The outbound sequence (R100), and the sequence of a printer's question (R138). -/
inductive OutSeq | bit (b : Bool) | byte (b : Byte)
  deriving DecidableEq, Repr

/-- The outbound phase of an OPEN record (R100); the times are the window's close and the delay's end. -/
inductive OutPhase | queued | window (closes : Time) | busyDelay (ends : Time) | awaiting
  deriving DecidableEq, Repr

/-- The state of a record in use; the phase is present in OPEN only (R100). -/
inductive ExchangeState | opened (phase : OutPhase) | held
  deriving DecidableEq, Repr

inductive Direction | coaxCoax | coaxPair | pairCoax
  deriving DecidableEq, Repr

/-- An exchange record in use (R100). `requesterSrc` is the station number of a coax requester, `numberAsked` the destination
of its REQUEST (for a pair requester, the destination field); `deadline` stands for the remaining time; `sending` is the serial
number of the copies of the present try. -/
structure Exchange where
  state : ExchangeState
  direction : Direction
  requester : DirNo
  requesterRoute : Route
  requesterSrc : Nat
  numberAsked : Nat
  requesterSeq : ReqSeq
  target : DirNo
  targetRoute : Route
  wireDst : Nat
  wireSrc : Nat
  usesBridge : Bool
  outSeq : OutSeq
  tries : Nat
  deadline : Time
  copy : List Byte
  copyPad : Bool
  sending : Nat
  deriving DecidableEq, Repr

/-! ## The print spool (R118, R121) -/

inductive LpState | idle | delivering | cancelling | waiting
  deriving DecidableEq, Repr

inductive TargetSel | primary | alternate
  deriving DecidableEq, Repr

/-- A logical printer record (R118). -/
structure LogicalPrinter where
  binding : Binding := {}
  queue : List Nat := []
  state : LpState := .idle
  current : Option Nat := none
  active : TargetSel := .primary
  deriving DecidableEq, Repr

inductive JobState | filling | queued | delivering | cancelling
  deriving DecidableEq, Repr

inductive JobInput | opened | closed | partly
  deriving DecidableEq, Repr

/-- The outcome of an ended job (R132). -/
inductive JobOutcome | done | donePartial | failed | cancelled
  deriving DecidableEq, Repr

/-- The reason of an ended job (R132). -/
inductive JobReason | none | storeError | targetLost | reset | owner | manager | stalled | tooLarge
  deriving DecidableEq, Repr

/-- A job record in use (R121). `position` is the delivery position as a byte offset from the first byte of the chain (block index
position / 512, byte offset position % 512), and 0 until a delivery sets it (DESIGN CHOICE, log 67); `cancelReason` is the reason a cancel
recorded (R131). -/
structure Job where
  number : Nat
  owner : DirNo
  lp : Lp
  mode : JobMode
  urgent : Bool
  copies : Nat
  copiesDone : Nat := 0
  state : JobState := .filling
  input : JobInput := .opened
  chain : List BlockNo := []
  held : Nat := 0
  total : Nat := 0
  nextSeq : Nat := 0
  lastSeq : Option Nat := none
  position : Nat := 0
  latchedTarget : Option DirNo := none
  latchedPace : Option Nat := none
  lastActivity : Time
  started : Bool := false
  cancelReason : Option JobReason := none
  deriving DecidableEq, Repr

/-! ## Print delivery (R138) -/

inductive PrinterStatus | unknown | ready | busy | paperOut | offline | notResponding
  deriving DecidableEq, Repr

/-- The one question put to a printer (R138); a query keeps the serial number of its copies and, once sent, the close of its
answer window (R149). -/
inductive Question
  | none
  | frame (seq : OutSeq)
  | query (seq : OutSeq) (serial : Nat) (closes : Option Time)
  deriving DecidableEq, Repr

/-- A physical printer record (R138); `pollFrom` stands for the poll timer, present while it runs. -/
structure Printer where
  status : PrinterStatus := .unknown
  delivering : Option Nat := none
  pauseStart : Option Time := none
  question : Question := .none
  pollFrom : Option Time := none
  deriving DecidableEq, Repr

/-- A delivery's frame phase (R138), with the time a window closes or a hold wait ends. -/
inductive FramePhase
  | none | pacing | listed | queued | window (closes : Time) | holdWait (ends : Time) | paused | dataWait
  deriving DecidableEq, Repr

/-- The frame in hand of a delivery (R138, R144). `asked` says that the frame has been handed over as the printer's question in
hand; `built` holds its wire form (data bytes read from the store) while it is LISTED; `serial` is shared by its copies. -/
structure DeliveryFrame where
  start : Nat
  count : Nat
  first : Bool
  endOfCopy : Bool
  seq : Byte
  asked : Bool := false
  built : Option (OutSeq × List Byte) := none
  serial : Nat := 0
  deriving DecidableEq, Repr

/-- A delivery record in use (R138). `source` is the latched bridge number (coax targets); `fresh` says that no frame of the
delivery has been built yet; `refillDue` is the next refill of the pace allowance. -/
structure Delivery where
  job : Nat
  target : DirNo
  route : Route
  source : Nat
  pace : Nat
  refillDue : Time
  phase : FramePhase := .none
  frame : Option DeliveryFrame := none
  tries : Nat := 1
  counter : Byte := 0
  fresh : Bool := true
  deriving DecidableEq, Repr

/-! ## Reporting (R185, R187) -/

/-- The details of a first error (R185). -/
inductive ErrorDetail
  | none
  | fault (port : Port) (kind : FaultKind)
  | port (p : Port)
  | learnCoax (segment : Port) (number : Nat)
  | learnPair (mac : Mac)
  | conflict (segment : Port) (number : Nat) (entry : DirNo)
  | replyCoax (segment : Port) (dst src : Nat) (seq : Bool)
  | replyPair (mac : Mac) (dst src : Nat) (seq : Byte) (tag : Nat)
  | job (number : Nat) (owner : DirNo)
  | parity (block : BlockNo) (job : Nat)
  deriving DecidableEq, Repr

structure FirstError where
  kind : Ctr
  time : Nat
  detail : ErrorDetail
  deriving DecidableEq, Repr

/-- An error group (R185). -/
structure ErrorGroup where
  counters : Counters
  first : Option FirstError := none
  multiple : Bool := false
  deriving DecidableEq, Repr

/-- What a notice record reports (R187). -/
inductive NoticeEvent
  | fault (port : Port) (kind : FaultKind) (state : PortMode)
  | recovery (port : Port) (kind : FaultKind) (state : PortMode)
  | degraded (port : Port) (state : PortMode)
  | feed (port : Port) (state : FeedState)
  | error (group : Fin 9) (e : FirstError)
  | job (number lp : Nat) (outcome : JobOutcome) (reason : JobReason) (total copiesDone : Nat)
  deriving DecidableEq, Repr

/-- A notice record (R187). -/
structure Notice where
  seconds : Nat
  event : NoticeEvent
  deriving DecidableEq, Repr

/-! ## Management answers and the image -/

/-- Plan fields of a FIXED entry as the image keeps them (R63, R188). -/
structure PlanEntry where
  kind : EntryKind
  home : Home
  visible : Option Nat := none
  shown : PortSet := PortSet.none
  rights : Rights := {}
  deriving DecidableEq, Repr

/-- The contents of the configuration image (R188). -/
structure Image where
  settings : Settings := {}
  entries : List (Nat × PlanEntry) := []
  bindings : Vector Binding 8 := Vector.replicate 8 {}
  deriving DecidableEq, Repr

/-- The serial configuration memory (R188): valid marker, contents, image check. -/
structure ConfigMemory where
  marker : Bool := false
  image : Image := {}
  check : Word := 0
  deriving DecidableEq, Repr

inductive LoadResult | good | bad | absent
  deriving DecidableEq, Repr

inductive SaveState | idle | running
  deriving DecidableEq, Repr

inductive SaveResult | none | done | failed
  deriving DecidableEq, Repr

inductive ResetCause | power | pin | soft
  deriving DecidableEq, Repr

/-- The body of READ-STATUS (R183). -/
structure StatusRead where
  cause : ResetCause
  setup : Bool
  load : LoadResult
  save : SaveState
  lastSave : SaveResult
  seconds : Nat
  entriesInUse : Nat
  pendingEdits : Nat
  fault : Bool
  answerLost : Nat
  noticeDropped : Nat
  deriving DecidableEq, Repr

/-- A physical printer record as READ-PRINTER returns it (R138, R154): the poll timer as it stands, 0 to 2 s, present while it runs. -/
structure PrinterRead where
  status : PrinterStatus
  delivering : Option Nat
  pauseStart : Option Time
  question : Question
  pollTimer : Option Time
  deriving DecidableEq, Repr

/-- What READ-PORT adds for the lower port of a PAIRED pair (R173). -/
structure FeedRead where
  state : FeedState
  window : Window
  probeTimer : Time
  counters : Counters
  deriving DecidableEq, Repr

/-- The body of READ-PORT (R171). -/
structure PortRead where
  state : PortMode
  hold : FaultSet
  latched : FaultSet
  testOwed : Bool
  restarts : Nat
  echo : Nat
  lowRun : Nat
  jabberQuiet : Nat
  history : List Nat
  smoothed : Option Nat
  degraded : Bool
  mode : SamplingMode
  allowance : Nat
  remainder : Nat
  counters : Counters
  feed : Option FeedRead
  deriving DecidableEq, Repr

/-- The body of a management answer, as named fields (R183). -/
inductive AnswerBody
  | none
  | status (r : StatusRead)
  | setting (v : SettingValue)
  | entry (e : Option Entry)
  | staged (pending : Nat) (replaced : Bool)
  | discarded (n : Nat)
  | committed (applied freed retiring : Nat)
  | stale (n : DirNo)
  | checkFailed (f : CheckFailure)
  | port (r : PortRead)
  | faults (latched hold : FaultSet)
  | spool (free jobs : Nat) (lp : Option LogicalPrinter)
  | job (j : Job)
  | delivery (d : Option Delivery) (pace : Nat) (counters : Counters)
  | printer (p : PrinterRead) (counters : Counters)
  | errors (g : ErrorGroup)
  | forwarding (counters : Counters)
  deriving DecidableEq, Repr

end Sys2Proof
end

