-- ==== Sys2Proof/Syntax.lean ====
section
/-! DEFINITION. The commands of the block: one constructor per row of spec/opcode_table.json, in the table's order, with the
operands that say what the event or the request carries. -/

namespace Sys2Proof

/-- The commands. `upset` in a command that may read the spool store lists the byte addresses whose stored bit has changed
since it was written, as the parity check will find them (R120; log 6). A management request carries its asker (R181; log 9).
A SHORT_DETECTION carries how long the drive current has been above the short limit without a break, in microseconds (R162), and a
LEVEL_SAMPLE the preamble amplitude of a burst that is still on the wire with its preamble complete, if there is one (R167; log 34). -/
inductive Instr
  | receiveBlock (p : Port) (burst : Burst)
  | attemptStart (p : Port)
  | collision (p : Port)
  | backoffEnd (p : Port)
  | sendComplete (p : Port)
  | repeatMemoryExpire (segment : Port) (asker dst : Nat)
  | allowanceRefill
  | linkIndicationOn
  | linkUp
  | linkDown
  | pairFrameReceive (f : EtherIn)
  | pairSendComplete
  | pairRepeatExpire (asker : DirNo) (dst tag : Nat)
  | takeArrival (src : ArrivalSource) (upset : List Nat)
  | exchangeWindowClose (tag : Nat)
  | busyDelayEnd (tag : Nat)
  | exchangeTimeout (tag : Nat)
  | jobStall (job : Nat)
  | ageingPeriodEnd
  | paceRefill (lp : Lp) (upset : List Nat)
  | deliveryWindowClose (lp : Lp) (upset : List Nat)
  | holdWaitEnd (lp : Lp) (upset : List Nat)
  | statusQueryDue (printer : DirNo)
  | queryWindowClose (printer : DirNo)
  | pauseLimit (printer : DirNo)
  | readStatus (a : Asker)
  | setSetting (a : Asker) (selector id : Nat) (value : SettingValue)
  | readSetting (a : Asker) (selector id : Nat)
  | readEntry (a : Asker) (selector : Nat)
  | editEntry (a : Asker) (selector : Nat) (edit : EntryEdit)
  | editPrinter (a : Asker) (selector : Nat) (b : Binding)
  | discardEdits (a : Asker)
  | commit (a : Asker)
  | readPort (a : Asker) (selector : Nat)
  | clearFaults (a : Asker) (selector : Nat) (kinds : FaultSet) (foreign : Bool)
  | readSpool (a : Asker) (selector : Nat)
  | readJob (a : Asker) (selector : Nat)
  | cancelJob (a : Asker) (selector : Nat)
  | readPrinter (a : Asker) (selector : Nat) (clear : Bool)
  | readErrors (a : Asker) (selector : Nat)
  | clearErrors (a : Asker) (selector : Nat) (clear : Bool)
  | readForwarding (a : Asker) (clear : Bool)
  | save (a : Asker)
  | saveComplete (ack : Bool)
  | resetBridge (a : Asker)
  | resetPort (a : Asker) (selector : Nat)
  | softReset
  | portReset
  | powerOn
  | pinReset
  | resetEnd
  | configLoadEnd (ack : Bool)
  | testRunEnd (p : Port) (result : TestResult)
  | testInterrupt (p : Port)
  | testRunResume (p : Port)
  | shortDetection (p : ShortCurrent)
  | jabberDetection (p : Port)
  | jabberRecovery (p : Port)
  | echoMeasurement (p : Port) (amplitude : Nat)
  | levelSample (p : LevelMeasure)
  | switchWindowClose (i : PairNo)
  | splitWindowClose (i : PairNo)
  | probeDue (i : PairNo)
  | probePulse (i : PairNo) (amplitude : Nat) (foreign : Bool)
  | linkIndicationBreak
  | foreignCarrierStart (p : Port)
  deriving DecidableEq, Repr

end Sys2Proof
end

