-- ==== Sys2Proof/WellFormed.lean ====
section
/-! DEFINITION. Which commands are well formed: every operand within the width or the range of its field in the manual. -/

namespace Sys2Proof

/-- A station number as a header byte carries it (R1). -/
def stationByte (n : Nat) : Bool := n ≤ 255

/-- A 16-bit field: a tag, a selector, a destination field (section 0.6). -/
def field16 (n : Nat) : Bool := n ≤ 65535

/-- A directory number (R38). -/
def dirNumber (n : Nat) : Bool := 1 ≤ n && n ≤ 384

/-- A preamble or pulse amplitude: 0 to 4095 mV (R167). -/
def amplitudeOk (a : Nat) : Bool := a ≤ 4095

/-- A time for which a port can drive the wire, in microseconds: 517 words of the longest block and 2 jam words, 8 µs each (R9, R163). -/
def driveTime (d : Nat) : Bool := d ≤ 4152

/-- Addresses of the spool store: 512 blocks of 512 bytes (R119). -/
def upsetOk (l : List Nat) : Bool := l.all (· < 262144)

/-- An asker's fields: station numbers of a received block (R6), 16-bit fields of a carrier frame, a directory number. -/
def Asker.wf : Asker → Bool
  | .coax _ src dst _ e => (1 ≤ src && src ≤ 254) && (1 ≤ dst && dst ≤ 254) && e.all dirNumber
  | .pair _ dst tag _ e => field16 dst && field16 tag && e.all dirNumber

/-- A tag of the exchange table: 0 to 15 (R100). -/
def tagOk (t : Nat) : Bool := t ≤ 15

/-- A job number: 1 to 65535 (R121). -/
def jobNumber (j : Nat) : Bool := 1 ≤ j && j ≤ 65535

/-- The check of a command before the machine sees it. -/
def Instr.wf : Instr → Bool
  | .receiveBlock _ b => amplitudeOk b.amplitude
  | .attemptStart _ | .collision _ | .backoffEnd _ | .sendComplete _ => true
  | .repeatMemoryExpire _ asker dst => stationByte asker && stationByte dst
  | .allowanceRefill | .linkIndicationOn | .linkUp | .linkDown => true
  | .pairFrameReceive f => field16 f.type
  | .pairSendComplete => true
  | .pairRepeatExpire asker dst tag => dirNumber asker && field16 dst && field16 tag
  | .takeArrival _ u => upsetOk u
  | .exchangeWindowClose t | .busyDelayEnd t | .exchangeTimeout t => tagOk t
  | .jobStall j => jobNumber j
  | .ageingPeriodEnd => true
  | .paceRefill _ u | .deliveryWindowClose _ u | .holdWaitEnd _ u => upsetOk u
  | .statusQueryDue n | .queryWindowClose n | .pauseLimit n => dirNumber n
  | .readStatus a | .discardEdits a | .commit a | .save a | .resetBridge a => a.wf
  | .setSetting a sel _ _ | .readSetting a sel _ | .readEntry a sel | .editEntry a sel _ | .editPrinter a sel _
  | .readPort a sel | .clearFaults a sel _ _ | .readSpool a sel | .readJob a sel | .cancelJob a sel
  | .readPrinter a sel _ | .readErrors a sel | .clearErrors a sel _ | .resetPort a sel => a.wf && field16 sel
  | .readForwarding a _ => a.wf
  | .saveComplete _ | .softReset | .portReset | .powerOn | .pinReset | .resetEnd | .configLoadEnd _ => true
  | .testRunEnd _ _ | .testInterrupt _ | .testRunResume _ | .jabberDetection _ | .jabberRecovery _ => true
  | .shortDetection x => driveTime x.duration
  | .echoMeasurement _ a => amplitudeOk a
  | .levelSample x => x.onWire.all amplitudeOk
  | .switchWindowClose _ | .splitWindowClose _ | .probeDue _ => true
  | .probePulse _ a _ => amplitudeOk a
  | .linkIndicationBreak | .foreignCarrierStart _ => true

end Sys2Proof
end

