-- ==== Sys2Proof/Config.lean ====
section
/-! DEFINITION. What an implementation fixes and the free values: sizes and times the manual states, and the uninterpreted
constants for what it leaves open (log 7, log 8). Nothing can be proved about the value of an uninterpreted constant. -/

namespace Sys2Proof.Config

/-! ## Sizes and times the manual states -/

/-- Class-0 queue: 8 frames (R17). -/
abbrev class0Size : Nat := 8
/-- Class-1 queue: 24 frames (R17). -/
abbrev class1Size : Nat := 24
/-- Pair transmit queue: 48 frames (R32). -/
abbrev pairQueueSize : Nat := 48
/-- Repeat memory: 16 records (R15). -/
abbrev repeatSize : Nat := 16
/-- Pair repeat memory: 8 records (R30). -/
abbrev pairRepeatSize : Nat := 8
/-- Staging area: 32 pending edits (R66). -/
abbrev stagingSize : Nat := 32
/-- Job records: 32 (R121). -/
abbrev jobRecords : Nat := 32
/-- Blocks a job's chain may hold: 128 (R128). -/
abbrev chainLimit : Nat := 128
/-- Quiet word times before an attempt or a pulse: 4 (R8, R179). -/
abbrev quietTime : Time := 4
/-- A backoff slot: 32 word times (R9). -/
abbrev slot : Time := 32
/-- The two preamble words of a block (R1). -/
abbrev preambleTime : Time := 2
/-- The test pulse of a probe: 2 word times (R179). -/
abbrev pulseTime : Time := 2
/-- Jam words of a collision: 2 (R9). -/
abbrev jam : Time := 2
/-- The coax answer window: 4 ms (R14). -/
abbrev coaxWindow : Time := Time.ms 4
/-- The delivery unit's answer window on the pair side: 50 ms (R32). -/
abbrev pairWindow : Time := Time.ms 50
/-- BUSY_DELAY: 20 ms (R111). -/
abbrev busyDelay : Time := Time.ms 20
/-- A termination test run: 20 ms (R160). -/
abbrev testRun : Time := Time.ms 20
/-- The longest burst that is no jabber: 640 word times (R163). -/
abbrev jabberLimit : Time := 640
/-- The jabber quiet time and the wait for link UP: 500 ms (R163, R22). -/
abbrev halfSecond : Time := Time.ms 500
/-- The probe timer's limit: 10 s (R179). -/
abbrev probeTime : Time := Time.sec 10
/-- The poll timer's limit: 2 s (R149). -/
abbrev pollTime : Time := Time.sec 2
/-- The wait of a waiting reset: 100 ms (R190). -/
abbrev resetWait : Time := Time.ms 100
/-- The pace allowance's limit: 600 words (R143). -/
abbrev paceLimit : Nat := 600
/-- The most data bytes of a delivery frame: 1022 (R144). -/
abbrev frameData : Nat := 1022

/-! ## What the manual leaves open -/

/-- The two preamble words, a fixed synchronising pattern the manual does not give (R1). -/
opaque preamble : Word × Word

/-- The successive draws of the backoff (R9: uniform, no source given), applied to a counter of State (log 7). -/
opaque backoffDraw : Nat → Nat

/-- The flags byte of a PRINT-DATA to a printer from FIRST and END-OF-COPY (R3 names the flags and gives no bits). -/
opaque flagsByte : Bool → Bool → Byte

/-- The identifier and value in a SET-SETTING body (R184 gives no layout). -/
opaque parseSetting : List Byte → Option (Nat × SettingValue)
/-- The identifier in a READ-SETTING body. -/
opaque parseSettingId : List Byte → Option Nat
/-- The body of EDIT-ENTRY (R67). -/
opaque parseEntryEdit : List Byte → Option EntryEdit
/-- The body of EDIT-PRINTER (R68). -/
opaque parseBinding : List Byte → Option Binding
/-- The kinds in a CLEAR-FAULTS body, and whether a kind outside the four is among them (R166). -/
opaque parseKinds : List Byte → Option (FaultSet × Bool)
/-- The clear flag in the body of READ-PRINTER, CLEAR-ERRORS and READ-FORWARDING (R183, R185). -/
opaque parseClear : List Byte → Option Bool

/-- The bytes of a management answer body (R183 names the fields and gives no layout). -/
opaque answerBytes : AnswerBody → List Byte
/-- The bytes of a notice record (R187). -/
opaque noticeBytes : Notice → List Byte
/-- The bytes of the image that its check covers (R188). -/
opaque imageBytes : Image → List Byte

end Sys2Proof.Config
end

