-- ==== Sys2Proof/Machine/State.lean ====
section
/-! DEFINITION. The state of the U416, its reset, and the reasons a step can stop. -/

namespace Sys2Proof.Machine
open Sys2Proof

/-- Reasons to stop with a fault: none. No command of the manual stops the part (INVENTORY.md, Faults); the type is empty, so
a step that faults cannot exist. Safe. -/
inductive Fault
  deriving DecidableEq, Repr

/-- Reasons to refuse a command. -/
inductive Refusal
  /-- Raised only by an arm of exec that has no meaning yet, with the row's mnemonic. Safe: no next state is claimed. -/
  | notModelled (mnemonic : String)
  deriving DecidableEq, Repr

/-- Which reset holds the part, or where start-up stands (R190, R192). -/
inductive Phase | heldPower | heldPin | loading | running
  deriving DecidableEq, Repr

/-- The reset a management request has armed (R190). -/
inductive ArmedReset | soft | port (p : Port)
  deriving DecidableEq, Repr

/-- A waiting reset: its kind, the serial number of its answer, whether that answer has been reported sent or not sent, and
the moment 100 ms after the answer was offered (R190). -/
structure WaitingReset where
  kind : ArmedReset
  answer : Nat
  reported : Bool
  deadline : Time
  deriving DecidableEq, Repr

/-- The reset controller's records (R190, R192), the seconds counter (R185) and the clock (log 1). -/
structure Control where
  now : Time := 0
  phase : Phase := .loading
  cause : ResetCause := .power
  waiting : Option WaitingReset := none
  secondsFrom : Time := 0
  deriving DecidableEq, Repr

/-- The pair port (chapter 2). -/
structure PairPort where
  link : Bool := false
  indication : Bool := false
  waitFrom : Option Time := none
  queue : List PairFrame := []
  handing : Option EtherOut := none
  waiting : List Lp := []
  repeats : List PairRepeat := []
  question : Byte := 0
  arrivals : List PairArrival := []
  deriving DecidableEq, Repr

/-- The directory (chapter 3) and its staging area (R66). -/
structure Directory where
  entries : Entries := []
  ageingDue : Time := 0
  staging : List Edit := []
  deriving DecidableEq, Repr

/-- The print spool (chapter 7), but for the bytes of the spool store. `toWrite` holds what the running command's append puts
into the store, and is empty between commands (log 5). -/
structure Spool where
  lps : Vector LogicalPrinter 8 := Vector.replicate 8 {}
  jobs : List Job := []
  jobCounter : Nat := 1
  freeList : List BlockNo := List.finRange 512
  toWrite : List Host.Cell := []
  deriving DecidableEq, Repr

/-- The delivery counters of R154. -/
abbrev deliveryCounters : Counters :=
  [(.noResponse, 0), (.pauseLimit, 0), (.stopped, 0), (.printerFail, 0), (.unexpectedAnswer, 0)]

/-- The print delivery unit (chapter 8). `ended` lists the logical printers whose delivery ended in the running command, and is
empty between commands (R142; log 14). -/
structure DeliveryUnit where
  records : Vector (Option Delivery) 8 := Vector.replicate 8 none
  pace : Vector Nat 8 := Vector.replicate 8 Config.paceLimit
  waiting : List Lp := []
  printers : List (Nat × Printer) := []
  counters : Counters := deliveryCounters
  ended : List Lp := []
  deriving DecidableEq, Repr

/-- The forwarding engine's drop counters (R95). -/
abbrev forwardCounters : Counters :=
  [(.unknownDest, 0), (.destUnreachable, 0), (.noNumber, 0), (.queueFull, 0), (.flushed, 0), (.noOwner, 0), (.pairLocal, 0),
   (.refused, 0)]

/-- The counters of a LINE group (R6, R9, R17, R165). -/
abbrev lineCounters : Counters :=
  [(.fragment, 0), (.badCheck, 0), (.badLength, 0), (.badKind, 0), (.badAddress, 0), (.badPayload, 0), (.excessCollision, 0),
   (.answerDropped, 0), (.short, 0), (.jabber, 0), (.openLine, 0), (.lowSignal, 0), (.testInconclusive, 0), (.degraded, 0)]

/-- The counters of the PAIR group (R37). -/
abbrev pairCounters : Counters :=
  [(.badFcs, 0), (.malformed, 0), (.badAddress, 0), (.badKind, 0), (.badPayload, 0), (.unknownSource, 0), (.sourceMismatch, 0),
   (.answerDropped, 0), (.linkLost, 0)]

/-- The counters of the EXCHANGE group (R117). -/
abbrev exchangeCounters : Counters :=
  [(.unexpectedReply, 0), (.unexpectedAnswer, 0), (.timedOut, 0), (.noAnswer, 0), (.targetFailed, 0), (.tableFull, 0),
   (.closedByLine, 0)]

/-- The counters of the SPOOL group (R134). -/
abbrev spoolCounters : Counters :=
  [(.disabled, 0), (.jobsFull, 0), (.fillingLimit, 0), (.storeFull, 0), (.streamHeld, 0), (.tooLarge, 0), (.stalled, 0),
   (.noticeLost, 0)]

/-- The nine error groups in the order of R183: LINE0 to LINE3, PAIR, EXCHANGE, MAP, SPOOL, STORE. -/
abbrev groupCounters (g : Fin 9) : Counters :=
  match g.val with
  | 0 | 1 | 2 | 3 => lineCounters
  | 4 => pairCounters
  | 5 => exchangeCounters
  | 6 => [(.mapFull, 0), (.conflict, 0)]
  | 7 => spoolCounters
  | _ => [(.parity, 0)]

/-- The reporting unit (R185 to R187). -/
structure Reporting where
  groups : Vector ErrorGroup 9 := Vector.ofFn fun g => { counters := groupCounters g }
  noticeDropped : Nat := 0
  fault : Bool := false
  deriving DecidableEq, Repr

/-- The management agent (R182, R189) and the configuration store interface with the serial memory behind it (R188). -/
structure Agent where
  setup : Bool := false
  loadResult : LoadResult := .absent
  saveState : SaveState := .idle
  lastSave : SaveResult := .none
  saving : Image := {}
  answerLost : Nat := 0
  configMem : ConfigMemory := {}
  deriving DecidableEq, Repr

/-- Everything the U416 holds but the bytes of its spool store, by the blocks of section 0.2. `exchanges` lists the records in
use by tag. `serial` numbers the frames offered to queues and `drawCount` the backoff draws (log 29, log 7). -/
structure Bridge where
  ctl : Control := {}
  settings : Settings := {}
  ports : Vector PortState 4 := Vector.replicate 4 {}
  feeds : Vector Feed 2 := Vector.replicate 2 {}
  repeats : List Repeat := []
  refillDue : Time := Time.ms 1
  pair : PairPort := {}
  dir : Directory := {}
  forwarding : Counters := forwardCounters
  exchanges : List (Nat × Exchange) := []
  spool : Spool := {}
  delivery : DeliveryUnit := {}
  reporting : Reporting := {}
  agent : Agent := {}
  serial : Nat := 0
  drawCount : Nat := 0
  deriving DecidableEq, Repr

/-- The bytes of the spool store (R119): `cells` in the canonical form of `Memory.wf`, and `bad`, the addresses whose parity bit
does not match the byte, rising (R120; log 6). -/
structure Store where
  cells : List Host.Cell := []
  bad : List Nat := []
  deriving DecidableEq, Repr

/-- The state of the block: the queue of waiting commands, the spool store, and everything else. -/
structure State where
  pending : List Instr := []
  store : Store := {}
  bridge : Bridge := {}
  deriving DecidableEq, Repr

/-- Right after a power-on reset has ended: the configuration load is running (R188, R192), every block holds its power-on
values, and no command waits (log 3, log 4). -/
def State.reset : State := {}

end Sys2Proof.Machine
end

