-- ==== Sys2Proof/Machine/Ops.lean ====
section
/-! DEFINITION. Named operations over the state's parts: keyed lists, the spool store's bytes, one-place updates of the bridge's
blocks, ports, pairs and segments, and the clock. -/

namespace Sys2Proof.Machine
open Sys2Proof

/-! ## Keyed lists: number and value, by rising number -/

/-- The value listed under a number. -/
def look {α : Type} (k : Nat) : List (Nat × α) → Option α
  | [] => none
  | (n, v) :: rest => if n = k then some v else look k rest

/-- The list with a value under a number, put in its place by number. -/
def put {α : Type} (k : Nat) (v : α) : List (Nat × α) → List (Nat × α)
  | [] => [(k, v)]
  | (n, w) :: rest => if k < n then (k, v) :: (n, w) :: rest else if n = k then (k, v) :: rest else (n, w) :: put k v rest

/-- The list without what a number lists. -/
def drop {α : Type} (k : Nat) : List (Nat × α) → List (Nat × α)
  | [] => []
  | (n, w) :: rest => if n = k then drop k rest else (n, w) :: drop k rest

/-- The list with the value under a number changed, if there is one. -/
def change {α : Type} (k : Nat) (f : α → α) : List (Nat × α) → List (Nat × α)
  | [] => []
  | (n, w) :: rest => if n = k then (n, f w) :: rest else (n, w) :: change k f rest

/-- Numbers strictly rising. -/
def rising {α : Type} : List (Nat × α) → Bool
  | [] => true
  | [_] => true
  | (m, _) :: (n, w) :: rest => m < n && rising ((n, w) :: rest)

/-! ## The spool store (R119, R120) -/

/-- The canonical form: addresses strictly rising, and no entry equal to the 0 that an unlisted address reads as (log 5). -/
def Memory.wf (m : List Host.Cell) : Bool := rising m && m.all fun c => c.2 != 0

/-- The byte at an address: 0 where nothing is listed (log 5). -/
def Memory.read (m : List Host.Cell) (a : Nat) : Byte := (look a m).getD 0

/-- Writes a byte, keeping the canonical form. -/
def Memory.write (m : List Host.Cell) (a : Nat) (v : Byte) : List Host.Cell := if v = 0 then drop a m else put a v m

/-- Writes a byte and its parity with it (R120). -/
def Store.write (s : Store) (c : Host.Cell) : Store :=
  { cells := Memory.write s.cells c.1 c.2, bad := s.bad.filter (· != c.1) }

/-- Writes the bytes of an append in order (R128). -/
def Store.writeAll (s : Store) (l : List Host.Cell) : Store := l.foldl Store.write s

/-- Insertion into a rising list of addresses without repeats. -/
def insertAddr (a : Nat) : List Nat → List Nat
  | [] => [a]
  | x :: xs => if a < x then a :: x :: xs else if a = x then x :: xs else x :: insertAddr a xs

/-- Marks addresses whose stored bit has changed (log 6). -/
def Store.upset (s : Store) (l : List Nat) : Store := { s with bad := l.foldl (fun acc a => insertAddr a acc) s.bad }

/-- The store address of byte `i` of a chain (R119, R121): block number times 512 plus the offset in the block. -/
def chainAddr (chain : List BlockNo) (i : Nat) : Nat := ((chain.getD (i / 512) 0).val) * 512 + i % 512

/-- The addresses of `count` bytes of a chain from `start`. -/
def chainAddrs (chain : List BlockNo) (start count : Nat) : List Nat := (List.range count).map fun i => chainAddr chain (start + i)

/-! ## One-place updates of the bridge -/

namespace Bridge

def setCtl (b : Bridge) (x : Control) : Bridge := { b with ctl := x }
def setSettings (b : Bridge) (x : Settings) : Bridge := { b with settings := x }
def setPorts (b : Bridge) (x : Vector PortState 4) : Bridge := { b with ports := x }
def setFeeds (b : Bridge) (x : Vector Feed 2) : Bridge := { b with feeds := x }
def setRepeats (b : Bridge) (x : List Repeat) : Bridge := { b with repeats := x }
def setRefillDue (b : Bridge) (x : Time) : Bridge := { b with refillDue := x }
def setPair (b : Bridge) (x : PairPort) : Bridge := { b with pair := x }
def setDir (b : Bridge) (x : Directory) : Bridge := { b with dir := x }
def setForwarding (b : Bridge) (x : Counters) : Bridge := { b with forwarding := x }
def setExchanges (b : Bridge) (x : List (Nat × Exchange)) : Bridge := { b with exchanges := x }
def setSpool (b : Bridge) (x : Spool) : Bridge := { b with spool := x }
def setDelivery (b : Bridge) (x : DeliveryUnit) : Bridge := { b with delivery := x }
def setReporting (b : Bridge) (x : Reporting) : Bridge := { b with reporting := x }
def setAgent (b : Bridge) (x : Agent) : Bridge := { b with agent := x }
def setSerial (b : Bridge) (x : Nat) : Bridge := { b with serial := x }
def setDrawCount (b : Bridge) (x : Nat) : Bridge := { b with drawCount := x }

/-- The present moment. -/
abbrev now (b : Bridge) : Time := b.ctl.now

/-- A segment port. -/
def port (b : Bridge) (p : Port) : PortState := b.ports[p]

/-- A change of one segment port. -/
def modPort (b : Bridge) (p : Port) (f : PortState → PortState) : Bridge := b.setPorts (b.ports.set p (f (b.port p)))

/-- A port's line monitor. -/
def mon (b : Bridge) (p : Port) : Monitor := (b.port p).mon

/-- A change of one line monitor. -/
def modMon (b : Bridge) (p : Port) (f : Monitor → Monitor) : Bridge := b.modPort p fun x => { x with mon := f x.mon }

/-- A port's settings. -/
def portSettings (b : Bridge) (p : Port) : PortSettings := b.settings.port[p]

/-- A pair's feed controller. -/
def feed (b : Bridge) (i : PairNo) : Feed := b.feeds[i]

/-- A change of one feed controller. -/
def modFeed (b : Bridge) (i : PairNo) (f : Feed → Feed) : Bridge := b.setFeeds (b.feeds.set i (f (b.feed i)))

/-- A change of the pair port. -/
def modPair (b : Bridge) (f : PairPort → PairPort) : Bridge := b.setPair (f b.pair)

/-- A change of the directory. -/
def modDir (b : Bridge) (f : Directory → Directory) : Bridge := b.setDir (f b.dir)

/-- A change of the directory's entries. -/
def modEntries (b : Bridge) (f : Entries → Entries) : Bridge := b.modDir fun d => { d with entries := f d.entries }

/-- The entry under a number, if it is in use (R38). -/
def entry (b : Bridge) (n : DirNo) : Option Entry := look n b.dir.entries

/-- A change of one entry in use. -/
def modEntry (b : Bridge) (n : DirNo) (f : Entry → Entry) : Bridge := b.modEntries (change n f)

/-- A change of the spool's records. -/
def modSpool (b : Bridge) (f : Spool → Spool) : Bridge := b.setSpool (f b.spool)

/-- A logical printer record. -/
def lp (b : Bridge) (l : Lp) : LogicalPrinter := b.spool.lps[l]

/-- A change of one logical printer record. -/
def modLp (b : Bridge) (l : Lp) (f : LogicalPrinter → LogicalPrinter) : Bridge :=
  b.modSpool fun s => { s with lps := s.lps.set l (f s.lps[l]) }

/-- The job record with a number, if it is in use. -/
def job (b : Bridge) (n : Nat) : Option Job := b.spool.jobs.find? (·.number == n)

/-- A change of one job record. -/
def modJob (b : Bridge) (n : Nat) (f : Job → Job) : Bridge :=
  b.modSpool fun s => { s with jobs := s.jobs.map fun j => if j.number = n then f j else j }

/-- A change of the delivery unit. -/
def modDelivery (b : Bridge) (f : DeliveryUnit → DeliveryUnit) : Bridge := b.setDelivery (f b.delivery)

/-- A logical printer's delivery record, if it has a current job. -/
def record (b : Bridge) (l : Lp) : Option Delivery := b.delivery.records[l]

/-- Writes a logical printer's delivery record. -/
def setRecord (b : Bridge) (l : Lp) (d : Option Delivery) : Bridge :=
  b.modDelivery fun u => { u with records := u.records.set l d }

/-- A change of one delivery record in use. -/
def modRecord (b : Bridge) (l : Lp) (f : Delivery → Delivery) : Bridge := b.setRecord l ((b.record l).map f)

/-- A physical printer record. -/
def printer (b : Bridge) (n : DirNo) : Option Printer := look n b.delivery.printers

/-- A change of one physical printer record. -/
def modPrinter (b : Bridge) (n : DirNo) (f : Printer → Printer) : Bridge :=
  b.modDelivery fun u => { u with printers := change n f u.printers }

/-- A change of one exchange record in use. -/
def modExchange (b : Bridge) (tag : Nat) (f : Exchange → Exchange) : Bridge := b.setExchanges (change tag f b.exchanges)

/-- A change of the management agent. -/
def modAgent (b : Bridge) (f : Agent → Agent) : Bridge := b.setAgent (f b.agent)

/-- A change of the reporting unit. -/
def modReporting (b : Bridge) (f : Reporting → Reporting) : Bridge := b.setReporting (f b.reporting)

/-- Takes the next serial number of a frame. -/
def nextSerial (b : Bridge) : Bridge := b.setSerial (b.serial + 1)

/-- The seconds counter: 32 bits, saturating (R185). -/
def seconds (b : Bridge) : Nat := min ((b.now - b.ctl.secondsFrom) / Time.sec 1) 4294967295

/-- The command's effect while the U416 takes traffic (R192). -/
def whenRunning (b : Bridge) (f : Bridge → Bridge) : Bridge := if b.ctl.phase = .running then f b else b

/-- The effect of an event that reaches the part unless a power-on or pin reset holds it (R192). -/
def whenPowered (b : Bridge) (f : Bridge → Bridge) : Bridge :=
  if b.ctl.phase = .running ∨ b.ctl.phase = .loading then f b else b

end Bridge

/-! ## Ports, pairs and segments (R42, R173) -/

/-- The pair a port belongs to. -/
def pairOf (p : Port) : PairNo := ⟨p.val / 2, by omega⟩

/-- End A of a pair. -/
def lowerOf (i : PairNo) : Port := ⟨2 * i.val, by omega⟩

/-- End B of a pair. -/
def upperOf (i : PairNo) : Port := ⟨2 * i.val + 1, by omega⟩

/-- The end a port is on its pair. -/
def sideOf (p : Port) : Side := if p.val % 2 = 0 then .a else .b

/-- The other port of the pair. -/
def partner (p : Port) : Port := if p.val % 2 = 0 then upperOf (pairOf p) else lowerOf (pairOf p)

/-- The port of an end of a pair. -/
def portAt (i : PairNo) : Side → Port
  | .a => lowerOf i
  | .b => upperOf i

namespace Bridge

/-- Whether the pairing in effect pairs a port. -/
def paired (b : Bridge) (p : Port) : Bool := (b.feed (pairOf p)).paired

/-- The number of the segment a port serves: its lower port while paired (R42). -/
def segmentOf (b : Bridge) (p : Port) : Port := if b.paired p then lowerOf (pairOf p) else p

/-- The segments as they stand, by number: every port but the upper one of a paired segment. -/
def segments (b : Bridge) : List Port := (List.finRange 4).filter fun p => b.segmentOf p = p

/-- What a feed state lets an end do (R173); nothing while the start-up wait is yes (R180). -/
def feedAllows (f : Feed) (s : Side) : Bool :=
  !f.startWait && match f.state, s with
    | .feedA, .a => true
    | .feedB, .b => true
    | .split, _ => true
    | _, _ => false

/-- Whether a port can transmit: ACTIVE, and on a paired segment allowed by the feed state (R155, R173). The same condition lets
it deliver blocks for forwarding (R7). -/
def canTransmit (b : Bridge) (p : Port) : Bool :=
  (b.mon p).state = .active && (!b.paired p || feedAllows (b.feed (pairOf p)) (sideOf p))

/-- Whether a port is driving the wire: an attempt in hand, or jam words still to end (R8, R9). -/
def driving (b : Bridge) (p : Port) : Bool := (b.port p).attempt.isSome || b.now < (b.port p).quietFrom

/-- The ports on which a frame for a home port and end goes out (R91, R107, R144): the port; the named end; or, for end UNKNOWN,
every end that can transmit. -/
def endsFor (b : Bridge) (p : Port) (e : Option EndField) : List Port :=
  if b.paired p then
    match e with
    | some .a => [lowerOf (pairOf p)]
    | some .b => [upperOf (pairOf p)]
    | _ => [lowerOf (pairOf p), upperOf (pairOf p)].filter b.canTransmit
  else [p]

/-- The ports of a latched route (R107, R144); a PAIR route has none. -/
def routePorts (b : Bridge) : Route → List Port
  | .port p => [p]
  | .unknownEnd l => [l, upperOf (pairOf l)].filter b.canTransmit
  | .pair _ => []

/-- Whether a latched route can transmit (R115, R153). -/
def routeCan (b : Bridge) : Route → Bool
  | .port p => b.canTransmit p
  | .unknownEnd l => b.canTransmit l || b.canTransmit (upperOf (pairOf l))
  | .pair _ => b.pair.link

end Bridge

end Sys2Proof.Machine

namespace Sys2Proof
open Machine

/-- Whether a latched route lies on a port or, for end UNKNOWN, on the segment it is an end of. -/
def Route.covers : Route → Port → Bool
  | .port q, p => q = p
  | .unknownEnd l, p => pairOf l = pairOf p
  | .pair _, _ => false

/-- The end a route names (R177). -/
def Route.named : Route → Option Port
  | .port p => some p
  | _ => none

/-! ## Sets -/

/-- A set of ports with one more. -/
def PortSet.insert (s : PortSet) (p : Port) : PortSet := Vector.set s p true

/-- A set of ports less one. -/
def PortSet.erase (s : PortSet) (p : Port) : PortSet := Vector.set s p false

/-- Whether a set of ports holds none. -/
def PortSet.isEmpty (s : PortSet) : Bool := s = PortSet.none

/-- Whether a set of fault kinds holds a kind. -/
def FaultSet.has (s : FaultSet) : FaultKind → Bool
  | .short => s.short
  | .openLine => s.openLine
  | .jabber => s.jabber
  | .lowSignal => s.lowSignal

/-- A set of fault kinds with a kind put in or taken out. -/
def FaultSet.put (s : FaultSet) (k : FaultKind) (v : Bool) : FaultSet :=
  match k with
  | .short => { s with short := v }
  | .openLine => { s with openLine := v }
  | .jabber => { s with jabber := v }
  | .lowSignal => { s with lowSignal := v }

/-- Whether a set of fault kinds is empty. -/
def FaultSet.isEmpty (s : FaultSet) : Bool := !s.short && !s.openLine && !s.jabber && !s.lowSignal

/-- The four fault kinds in the order of R155. -/
def faultKinds : List FaultKind := [.short, .openLine, .jabber, .lowSignal]

end Sys2Proof
end

