-- ==== Sys2Proof/Machine/Operands.lean ====
section
/-! DEFINITION. The forms on the wire: codes, words and bytes, the check word, blocks, carrier frames, payload fields, word
order, answers and management records. -/

namespace Sys2Proof

/-! ## Codes -/

/-- A kind's code (section 0.6). -/
def Kind.code : Kind → Nat
  | .data => 0 | .request => 1 | .reply => 2 | .hold => 3 | .busy => 4 | .fail => 5 | .printOpen => 6 | .printData => 7
  | .printClose => 8 | .status => 9 | .manage => 10 | .notice => 11 | .hello => 12

/-- The kind of a code; 13 and above are not assigned. -/
def kindOf : Nat → Option Kind
  | 0 => some .data | 1 => some .request | 2 => some .reply | 3 => some .hold | 4 => some .busy | 5 => some .fail
  | 6 => some .printOpen | 7 => some .printData | 8 => some .printClose | 9 => some .status | 10 => some .manage
  | 11 => some .notice | 12 => some .hello | _ => none

/-- A FAIL reason's code (R4). -/
def FailReason.code : FailReason → Nat
  | .timeout => 1 | .unreachable => 2 | .noAnswer => 3 | .refused => 4 | .sequence => 5 | .tooLarge => 6 | .reset => 7
  | .notOwner => 8 | .unknownJob => 9 | .full => 10 | .targetFailed => 11

/-- The STATUS code of a number (R4). -/
def statusOf : Nat → Option StatusCode
  | 1 => some .ready | 2 => some .busy | 3 => some .paperOut | 4 => some .offline | _ => none

/-- A result's code (R183). -/
def Result.code : Result → Nat
  | .ok => 0 | .denied => 1 | .malformed => 2 | .notFound => 3 | .busy => 4 | .full => 5 | .checkFailed => 6

/-- Whether a kind is an answer kind for dispatch (R83); STATUS is judged by its code. -/
def Kind.isAnswer : Kind → Bool
  | .reply | .hold | .busy | .fail => true
  | _ => false

/-- Request-like kinds (section 1.2). -/
def Kind.isRequestLike : Kind → Bool
  | .request | .printOpen | .printData | .printClose | .manage => true
  | _ => false

/-! ## Words and bytes -/

/-- The high and low byte of a 16-bit number, high byte first (section 0.4). -/
def bytes16 (n : Nat) : List Byte := [BitVec.ofNat 8 (n / 256), BitVec.ofNat 8 n]

/-- A 16-bit number from two bytes of a list, high byte first; a missing byte reads as 0. -/
def read16 (l : List Byte) (i : Nat) : Nat := (l.getD i 0).toNat * 256 + (l.getD (i + 1) 0).toNat

/-- Words as bytes, high byte first (R1). -/
def bytesOf (ws : List Word) : List Byte := ws.flatMap fun w => [w.extractLsb' 8 8, w.extractLsb' 0 8]

/-- Bytes as words, high byte first; a last odd byte gets a low byte of 0 (R36). -/
def wordsOf : List Byte → List Word
  | [] => []
  | [x] => [x ++ (0 : Byte)]
  | x :: y :: rest => (x ++ y) :: wordsOf rest

/-- Content bytes as a payload: padded with a 0 byte when odd, and whether it is padded (R1, R36). -/
def padded (l : List Byte) : List Byte × Bool := if l.length % 2 = 1 then (l ++ [0], true) else (l, false)

/-- Exchanges the two bytes of each complete pair; a trailing odd byte stays (R35, R36). -/
def swapPairs : List Byte → List Byte
  | x :: y :: rest => y :: x :: swapPairs rest
  | l => l

/-- Data in the order a pair entry keeps (R35, R36): the exchange is its own inverse. -/
def inOrder (o : Order) (l : List Byte) : List Byte :=
  match o with
  | .asSent => l
  | .swapped => swapPairs l

/-! ## The check word (R2) -/

/-- One bit step of the check with polynomial x^16+x^12+x^5+1. -/
def checkStep (c : Word) : Word := if c.msb then (c <<< 1) ^^^ 0x1021#16 else c <<< 1

/-- One byte into the check, most significant bit first. -/
def checkByte (c : Word) (x : Byte) : Word :=
  checkStep (checkStep (checkStep (checkStep (checkStep (checkStep (checkStep (checkStep (c ^^^ (x ++ (0 : Byte))))))))))

/-- The check over bytes, from the initial value of all ones. -/
def checkOf (l : List Byte) : Word := l.foldl checkByte 0xFFFF#16

/-! ## Coax blocks (R1) -/

namespace Block

/-- The number of payload words. -/
def length (b : Block) : Nat := b.payload.length / 2

/-- The content bytes: the payload less the padding byte (R1). -/
def content (b : Block) : List Byte := if b.pad then b.payload.dropLast else b.payload

/-- Header words 0 and 1 (section 0.6). -/
def header (b : Block) : List Word :=
  [BitVec.ofNat 8 b.dst ++ BitVec.ofNat 8 b.src,
   BitVec.ofNat 16 (b.kind.code * 4096 + b.seq.toNat * 2048 + b.pad.toNat * 1024 + b.length)]

/-- The words the check covers: header and payload (R2). -/
def covered (b : Block) : List Word := b.header ++ wordsOf b.payload

/-- Every word of the block as driven: preamble, header, payload, check word (R1). -/
def wire (b : Block) : List Word :=
  [Config.preamble.1, Config.preamble.2] ++ b.covered ++ [checkOf (bytesOf b.covered)]

/-- A frame's cost: its payload words plus 9 (R98). -/
def cost (b : Block) : Nat := b.length + 9

/-- A block built by the U416 from content bytes (R1). -/
def build (dst src : Nat) (kind : Kind) (seq : Bool) (content : List Byte) : Block :=
  { dst, src, kind, seq, pad := (padded content).2, payload := (padded content).1 }

/-- The STATUS code of a STATUS block with a payload (R3). -/
def statusCode (b : Block) : Option StatusCode := if b.kind = .status then statusOf (read16 b.content 0) else none

end Block

/-- The minimum payload words of a kind as received (R3). -/
def minWords : Kind → Nat
  | .hold | .fail | .printOpen => 1
  | .printData | .printClose => 2
  | .manage => 3
  | _ => 0

/-- The value checks of R3 and R4 on a received block. A byte that is only padding reads as 0 (log 36). -/
def payloadOk (b : Block) : Bool :=
  minWords b.kind ≤ b.length && match b.kind with
    | .printOpen => (b.content.getD 1 0).toNat ≤ 1
    | .fail => 1 ≤ (b.content.getD 0 0).toNat && (b.content.getD 0 0).toNat ≤ 11
    | .status => b.length = 0 || (1 ≤ read16 b.content 0 && read16 b.content 0 ≤ 4)
    | _ => true

/-- What the receive checks make of a burst (R5, R6). -/
inductive Reception
  | dropped (c : Ctr)
  | block (b : Block)
  deriving DecidableEq, Repr

/-- The receive checks of R5 and R6, in their order, on the words after a complete preamble. -/
def receive (burst : Burst) : Reception :=
  match burst.words with
  | w0 :: w1 :: rest =>
    if !burst.preamble || rest.isEmpty then .dropped .fragment
    else
      let covered := burst.words.dropLast
      let len := (w1.extractLsb' 0 10).toNat
      if checkOf (bytesOf covered) ≠ burst.words.getLast?.getD 0 then .dropped .badCheck
      else if len > 512 ∨ burst.words.length ≠ len + 3 then .dropped .badLength
      else
        match kindOf (w1.extractLsb' 12 4).toNat with
        | none => .dropped .badKind
        | some .hello => .dropped .badKind
        | some kind =>
          let b : Block :=
            { dst := (w0.extractLsb' 8 8).toNat, src := (w0.extractLsb' 0 8).toNat, kind, seq := w1.getLsbD 11,
              pad := w1.getLsbD 10, payload := bytesOf rest.dropLast }
          if b.src = 0 ∨ b.src = 255 ∨ b.dst = 0 then .dropped .badAddress
          else if !payloadOk b then .dropped .badPayload
          else if b.pad && b.length = 0 then .dropped .badPayload
          else .block b
  | _ => .dropped .fragment

/-! ## Carrier frames (section 0.6, R25, R29) -/

/-- The carrier header and data of a frame sent, padded so that the Ethernet frame has 60 bytes before its check (R29). -/
def Carrier.bytes (c : Carrier) : List Byte :=
  let l := [1, BitVec.ofNat 8 c.kind.code, BitVec.ofNat 8 c.reason, c.seq] ++ bytes16 c.tag ++ bytes16 c.dst ++ bytes16 c.src
    ++ bytes16 c.data.length ++ c.data
  l ++ List.replicate (46 - l.length) 0

/-- The minimum data bytes of a kind as received (R25). -/
def minBytes : Kind → Nat
  | .hold | .printOpen => 2
  | .printData | .printClose => 4
  | .manage => 6
  | _ => 0

/-- The value checks of R25. -/
def carrierOk (c : Carrier) : Bool :=
  minBytes c.kind ≤ c.data.length && match c.kind with
    | .fail => 1 ≤ c.reason && c.reason ≤ 11
    | .printOpen => (c.data.getD 1 0).toNat ≤ 1
    | .status => c.reason ≤ 4
    | _ => true

/-- What the header checks make of a carrier frame. -/
inductive CarrierReception
  | dropped (c : Ctr)
  | frame (c : Carrier)
  deriving DecidableEq, Repr

/-- The header checks of R25, in their order. -/
def readCarrier (f : EtherIn) : CarrierReception :=
  let l := f.data
  let len := read16 l 10
  if l.length < 12 then .dropped .malformed
  else if l.getD 0 0 ≠ 1 then .dropped .malformed
  else if len > 1024 ∨ len > l.length - 12 then .dropped .malformed
  else
    match kindOf (l.getD 1 0).toNat with
    | none => .dropped .badKind
    | some kind =>
      let c : Carrier :=
        { mac := f.src, kind, reason := (l.getD 2 0).toNat, seq := l.getD 3 0, tag := read16 l 4, dst := read16 l 6,
          src := read16 l 8, data := (l.drop 12).take len }
      if carrierOk c then .frame c else .dropped .badPayload

/-- The STATUS code of a carrier STATUS (R25); 0 is a query. -/
def Carrier.statusCode (c : Carrier) : Option StatusCode := if c.kind = .status then statusOf c.reason else none

/-- The broadcast MAC (R24). -/
def broadcastMac : Mac := BitVec.allOnes 48

/-- A group address: bit 0 of the first byte (R24). -/
def isGroup (m : Mac) : Bool := m.getLsbD 40

/-! ## Answers (R12, R13, R30) -/

/-- An answer's kind. -/
def Answer.kind : Answer → Kind
  | .reply _ => .reply
  | .hold _ => .hold
  | .busy => .busy
  | .fail _ _ => .fail

/-- An answer's content on coax (R3). -/
def Answer.content : Answer → List Byte
  | .reply d => d
  | .hold t => bytes16 t
  | .busy => []
  | .fail r d => [BitVec.ofNat 8 r.code, BitVec.ofNat 8 d]

/-- An answer's data on the pair side (R25, R29): a FAIL carries its detail only when it is not 0. -/
def Answer.data : Answer → List Byte
  | .reply d => d
  | .hold t => bytes16 t
  | .busy => []
  | .fail _ d => if d = 0 then [] else [BitVec.ofNat 8 d]

/-- An answer's reason byte on the pair side (R29). -/
def Answer.reason : Answer → Nat
  | .fail r _ => r.code
  | _ => 0

/-- Whether a repeat is answered from the memory with this answer: REPLY and FAIL (R15, R30). -/
def Answer.final : Answer → Bool
  | .reply _ | .fail _ _ => true
  | .hold _ | .busy => false

/-- Whether an answer goes to class 0: not a REPLY of more than 2 payload words (R12, R13). -/
def Answer.short : Answer → Bool
  | .reply d => d.length ≤ 4
  | _ => true

/-! ## Management records (section 0.6, R181, R183) -/

/-- The request a management record carries, or none where its form is wrong (R181): code not in the table, body length field
different from the bytes present, or body fields missing. The layouts of the bodies are Config's (log 8). -/
def parseRequest (l : List Byte) : Option ManageReq :=
  let sel := read16 l 2
  let body := l.drop 6
  if read16 l 4 ≠ body.length then none
  else
    match (l.getD 0 0).toNat with
    | 1 => some .readStatus
    | 2 => (Config.parseSetting body).map fun x => .setSetting sel x.1 x.2
    | 3 => (Config.parseSettingId body).map fun i => .readSetting sel i
    | 4 => some (.readEntry sel)
    | 5 => (Config.parseEntryEdit body).map fun e => .editEntry sel e
    | 6 => (Config.parseBinding body).map fun x => .editPrinter sel x
    | 7 => some .discardEdits
    | 8 => some .commit
    | 9 => some (.readPort sel)
    | 10 => (Config.parseKinds body).map fun x => .clearFaults sel x.1 x.2
    | 11 => some (.readSpool sel)
    | 12 => some (.readJob sel)
    | 13 => some (.cancelJob sel)
    | 14 => (Config.parseClear body).map fun c => .readPrinter sel c
    | 15 => some (.readErrors sel)
    | 16 => (Config.parseClear body).map fun c => .clearErrors sel c
    | 17 => (Config.parseClear body).map fun c => .readForwarding c
    | 18 => some .save
    | 19 => some .resetBridge
    | 20 => some (.resetPort sel)
    | _ => none

/-- A request's code (R183). -/
def ManageReq.code : ManageReq → Nat
  | .readStatus => 1 | .setSetting _ _ _ => 2 | .readSetting _ _ => 3 | .readEntry _ => 4 | .editEntry _ _ => 5
  | .editPrinter _ _ => 6 | .discardEdits => 7 | .commit => 8 | .readPort _ => 9 | .clearFaults _ _ _ => 10
  | .readSpool _ => 11 | .readJob _ => 12 | .cancelJob _ => 13 | .readPrinter _ _ => 14 | .readErrors _ => 15
  | .clearErrors _ _ => 16 | .readForwarding _ => 17 | .save => 18 | .resetBridge => 19 | .resetPort _ => 20

/-- A request's selector; 0 where the table ignores it (R183). -/
def ManageReq.selector : ManageReq → Nat
  | .setSetting s _ _ | .readSetting s _ | .readEntry s | .editEntry s _ | .editPrinter s _ | .readPort s | .clearFaults s _ _
  | .readSpool s | .readJob s | .cancelJob s | .readPrinter s _ | .readErrors s | .clearErrors s _ | .resetPort s => s
  | _ => 0

/-- The bytes of a management answer: the record header and the body (section 0.6), within the 1024 bytes of a frame. -/
def answerRecord (code selector : Nat) (r : Result) (body : AnswerBody) : List Byte :=
  let l := (Config.answerBytes body).take 1018
  [BitVec.ofNat 8 code, BitVec.ofNat 8 r.code] ++ bytes16 selector ++ bytes16 l.length ++ l

end Sys2Proof
end

