-- ==== Sys2Proof/Machine/Directory.lean ====
section
/-! DEFINITION. The directory: presence, lookups, reach, pins, freeing and withdrawals (chapter 3). -/

namespace Sys2Proof.Machine
open Sys2Proof

/-! ## Presence and lookups (R42 to R46) -/

/-- Whether an entry is LEARNED or FIXED: found by lookups and present where shown (R42, R57). -/
def Entry.inPlan (e : Entry) : Bool := e.state ≠ .retiring

/-- The number of an entry on segment `s` (the naming lookup of R46, by R42): its home number there, or its visible number where
it is shown and not withdrawn. -/
def numberOn (e : Entry) (s : Port) : Option Nat :=
  if e.state = .retiring then none
  else
    match e.home with
    | .seg p n => if p = s then some n else if e.shown[s] && !e.withdrawn[s] then e.visible else none
    | _ => if e.shown[s] && !e.withdrawn[s] then e.visible else none

/-- The entry homed on segment `s` with home number `n` (R44, R45); a RETIRING one is not found (R57; log 27). -/
def findHome (es : Entries) (s : Port) (n : Nat) : Option (Nat × Entry) :=
  es.find? fun x => x.2.state ≠ .retiring && match x.2.home with
    | .seg p m => p = s && m = n
    | _ => false

/-- The entry present on segment `s` under number `n` (R42): the lowest-numbered one, where a pairing change has left two there, since
C1 does not judge an upper port while it is paired (R71); a lookup of R45 tries `findHome` first (DESIGN CHOICE, log 62). -/
def findOn (es : Entries) (s : Port) (n : Nat) : Option (Nat × Entry) := es.find? fun x => numberOn x.2 s = some n

/-- Whether number `n` is free on segment `s` (R43). -/
def freeOn (es : Entries) (s : Port) (n : Nat) : Bool := (findOn es s n).isNone

/-- The entry homed on PAIR with a MAC, RETIRING entries left out (R26; log 27). -/
def findMac (es : Entries) (m : Mac) : Option (Nat × Entry) :=
  es.find? fun x => x.2.state ≠ .retiring && match x.2.home with
    | .pair k _ => k = m
    | _ => false

/-- Whether a RETIRING entry holds a MAC (R26, R28). -/
def retiringMac (es : Entries) (m : Mac) : Bool :=
  es.any fun x => x.2.state = .retiring && match x.2.home with
    | .pair k _ => k = m
    | _ => false

/-- The lowest-numbered FREE entry from 10 up (R28, R48). -/
def lowestFree (es : Entries) : Option DirNo := (List.range' 10 375).find? fun n => (look n es).isNone

/-- The order of the entry under a number (R34): its own when homed on PAIR. Of one that a commit has moved away from PAIR while an
exchange with its old route is open, AS_SENT (DESIGN CHOICE, log 44). -/
def orderOf (es : Entries) (n : DirNo) : Order :=
  match look n es with
  | some e =>
    match e.home with
    | .pair _ o => o
    | _ => .asSent
  | none => .asSent

namespace Bridge

/-- The bridge number where entry 1 is present on segment `s` (R90). -/
def bridgeNumberOn (b : Bridge) (s : Port) : Option Nat := (b.entry 1).bind fun e => numberOn e s

/-- The number of an entry on a segment, by directory number (R46). -/
def numberOf (b : Bridge) (n : DirNo) (s : Port) : Option Nat := (b.entry n).bind fun e => numberOn e s

/-! ## Reach (R58, R59) -/

/-- An entry's reach as its home gives it (R58). -/
def reachOf (b : Bridge) (e : Entry) : Bool :=
  match e.home with
  | .internal => true
  | .pair _ _ => b.pair.link
  | .seg p _ =>
    if b.paired p then
      if p = lowerOf (pairOf p) then
        match e.endField with
        | some .a => b.canTransmit (lowerOf (pairOf p))
        | some .b => b.canTransmit (upperOf (pairOf p))
        | _ => b.canTransmit (lowerOf (pairOf p)) || b.canTransmit (upperOf (pairOf p))
      else false
    else (b.mon p).state = .active

/-- A printer's poll timer at a change of its reach while NOT_RESPONDING: from 0 when it becomes REACHABLE, stopped when it
becomes UNREACHABLE (R150, R153; that it stops is DESIGN CHOICE, log 70). -/
def pollAtReach (now : Time) (old new : Bool) (r : Printer) : Printer :=
  if r.status = .notResponding then
    if !old && new then { r with pollFrom := some now }
    else if old && !new then { r with pollFrom := none } else r
  else r

/-- Recomputes every entry's reach (R59) and follows it with the printers' poll timers. -/
def refreshReach (b : Bridge) : Bridge :=
  let printers := b.delivery.printers.map fun x =>
    match b.entry x.1 with
    | some e => (x.1, pollAtReach b.now e.reachable (b.reachOf e) x.2)
    | none => x
  (b.modDelivery fun u => { u with printers }).modEntries fun es =>
    es.map fun x => (x.1, { x.2 with reachable := b.reachOf x.2 })

/-- Whether an entry is in use and REACHABLE. -/
def reachable (b : Bridge) (n : DirNo) : Bool := (b.entry n).any (·.reachable)

/-- Gives the entries homed on a paired segment end UNKNOWN (R60, R174). -/
def clearEnds (b : Bridge) (lower : Port) : Bridge :=
  b.modEntries fun es => es.map fun x =>
    match x.2.home with
    | .seg p _ => if p = lower then (x.1, { x.2 with endField := some .unknown }) else x
    | _ => x

/-! ## Withdrawals and freeing (R53, R55) -/

/-- Lifts the withdrawal from segment `s` under number `n` of the lowest-numbered entry that has one, if `n` is free there (R53).
RETIRING entries, which are present nowhere, are passed over (DESIGN CHOICE, log 45). -/
def lift (b : Bridge) (s : Port) (n : Nat) : Bridge :=
  if freeOn b.dir.entries s n then
    match b.dir.entries.find? fun x => x.2.state ≠ .retiring && x.2.visible = some n && x.2.withdrawn[s] with
    | some (m, _) => b.modEntry m fun e => { e with withdrawn := PortSet.erase e.withdrawn s }
    | none => b
  else b

/-- Where an entry was present, and under which number, by segment (R42). -/
def presences (b : Bridge) (e : Entry) : List (Port × Nat) :=
  b.segments.filterMap fun s => (numberOn e s).map fun n => (s, n)

/-- Lifts the withdrawals that a departed entry stood in the way of, for each segment it was present on (R53; log 30). -/
def liftAll (b : Bridge) (l : List (Port × Nat)) : Bridge := l.foldl (fun b x => b.lift x.1 x.2) b

/-- Frees an entry but for the lifting of withdrawals (R55, items 1, 2, 4, 5). -/
def freeQuiet (b : Bridge) (n : DirNo) : Bridge :=
  let b := b.modEntries (drop n)
  let b := b.modPair fun p => { p with repeats := p.repeats.filter fun r => r.asker ≠ n }
  b.modDelivery fun u => { u with printers := drop n u.printers }

/-- Frees an entry (R55). -/
def freeEntry (b : Bridge) (n : DirNo) : Bridge :=
  match b.entry n with
  | some e => (b.freeQuiet n).liftAll (b.presences e)
  | none => b

/-- Makes an entry RETIRING: no lookup finds it and its rights are gone (R57). -/
def retireQuiet (b : Bridge) (n : DirNo) : Bridge := b.modEntry n fun e => { e with state := .retiring, rights := {} }

/-! ## Pins (R56, R57) -/

/-- Raises an entry's pin count by one. -/
def pin (b : Bridge) (n : DirNo) : Bridge := b.modEntry n fun e => { e with pins := e.pins + 1 }

/-- Lowers an entry's pin count by one; a RETIRING entry whose pin count reaches 0 is freed (R57). -/
def unpin (b : Bridge) (n : DirNo) : Bridge :=
  let b := b.modEntry n fun e => { e with pins := e.pins - 1 }
  match b.entry n with
  | some e => if e.state = .retiring ∧ e.pins = 0 then b.freeEntry n else b
  | none => b

/-- Traffic from an entry: its age becomes 0 (R44, R26). -/
def heardFrom (b : Bridge) (n : DirNo) : Bridge := b.modEntry n fun e => { e with age := 0 }

end Bridge

end Sys2Proof.Machine
end

