-- ==== Sys2Proof/Machine/Flags.lean ====
section
/-! DEFINITION. Counters, error groups' counts, and the condition of the FAULT pin (R185, R186). -/

namespace Sys2Proof.Machine
open Sys2Proof

/-- Adds to one counter, saturating at 65535 (section 0.4). -/
def addTo (c : Ctr) (k : Nat) (l : Counters) : Counters := l.map fun x => if x.1 = c then (x.1, min 65535 (x.2 + k)) else x

/-- One count. -/
def bump (c : Ctr) (l : Counters) : Counters := addTo c 1 l

/-- The value of a counter. -/
def countOf (c : Ctr) (l : Counters) : Nat := ((l.find? (·.1 = c)).map (·.2)).getD 0

/-- All counters at 0. -/
def cleared (l : Counters) : Counters := l.map fun x => (x.1, 0)

/-- The LINE group of a port: groups 0 to 3 (R183). -/
def lineGroup (p : Port) : Fin 9 := ⟨p.val, by omega⟩
/-- The PAIR group: 4. -/
abbrev pairGroup : Fin 9 := 4
/-- The EXCHANGE group: 5. -/
abbrev exchangeGroup : Fin 9 := 5
/-- The MAP group: 6. -/
abbrev mapGroup : Fin 9 := 6
/-- The SPOOL group: 7. -/
abbrev spoolGroup : Fin 9 := 7
/-- The STORE group: 8. -/
abbrev storeGroup : Fin 9 := 8

namespace Bridge

/-- An error group. -/
def group (b : Bridge) (g : Fin 9) : ErrorGroup := b.reporting.groups[g]

/-- A change of one error group. -/
def modGroup (b : Bridge) (g : Fin 9) (f : ErrorGroup → ErrorGroup) : Bridge :=
  b.modReporting fun r => { r with groups := r.groups.set g (f r.groups[g]) }

/-- One count in an error group (R185). -/
def count (b : Bridge) (g : Fin 9) (c : Ctr) : Bridge := b.modGroup g fun x => { x with counters := bump c x.counters }

/-- One count in a port's LINE group. -/
def countLine (b : Bridge) (p : Port) (c : Ctr) : Bridge := b.count (lineGroup p) c

/-- One count of the forwarding engine (R95). -/
def countForward (b : Bridge) (c : Ctr) : Bridge := b.setForwarding (bump c b.forwarding)

/-- One count of the delivery unit (R154). -/
def countDelivery (b : Bridge) (c : Ctr) : Bridge := b.modDelivery fun u => { u with counters := bump c u.counters }

/-- One count of a feed controller (R173). -/
def countFeed (b : Bridge) (i : PairNo) (c : Ctr) : Bridge := b.modFeed i fun f => { f with counters := bump c f.counters }

/-- One NOTICE_DROPPED (R187), 16 bits, saturating. -/
def countNoticeDropped (b : Bridge) : Bridge := b.modReporting fun r => { r with noticeDropped := min 65535 (r.noticeDropped + 1) }

/-- One ANSWER_LOST (R181), 16 bits, saturating. -/
def countAnswerLost (b : Bridge) : Bridge := b.modAgent fun a => { a with answerLost := min 65535 (a.answerLost + 1) }

/-- Whether a latched fault kind of a port has report setting REPORT (R165). -/
def reportedLatch (b : Bridge) (p : Port) : Bool :=
  faultKinds.any fun k => (b.mon p).latched.has k && (b.portSettings p).report.has k

/-- The condition that drives the FAULT pin (R186); it is released until the configuration load has ended. -/
def faultCondition (b : Bridge) : Bool :=
  b.ctl.phase = .running && ((List.finRange 4).any b.reportedLatch || (b.group storeGroup).first.isSome || b.agent.setup)

/-- The FAULT pin takes up its conditions (R186). -/
def driveFault (b : Bridge) : Bridge := b.modReporting fun r => { r with fault := b.faultCondition }

end Bridge

end Sys2Proof.Machine
end

