-- ==== Sys2Proof/Machine/Queues.lean ====
section
/-! DEFINITION. Offering frames to the transmit queues (R13, R17, R32), answers (R12, R30), notices (R187) and captures (R185). -/

namespace Sys2Proof.Machine
open Sys2Proof

/-- What the pair port makes of a frame offered to it (R32). -/
inductive PairOffer | accepted | refused | notSent
  deriving DecidableEq, Repr

namespace Bridge

/-! ## Offers -/

/-- Offers a frame to a port's class-0 queue; a full queue drops it and counts ANSWER_DROPPED (R17). -/
def offer0 (b : Bridge) (p : Port) (f : CoaxFrame) : Bridge :=
  if (b.port p).class0.length < Config.class0Size then b.modPort p fun x => { x with class0 := x.class0 ++ [f] }
  else b.countLine p .answerDropped

/-- Whether a port's class-1 queue has a place (R17). -/
def hasPlace (b : Bridge) (p : Port) : Bool := (b.port p).class1.length < Config.class1Size

/-- Offers a frame to a port's class-1 queue; a full queue refuses it (R17). -/
def offer1 (b : Bridge) (p : Port) (f : CoaxFrame) : Bridge :=
  if b.hasPlace p then b.modPort p fun x => { x with class1 := x.class1 ++ [f] } else b

/-- Offers a copy of a frame to the class-1 queue of each of several ports, and gives the ports that refused it. -/
def offerEach (b : Bridge) (ps : List Port) (f : CoaxFrame) : List Port × Bridge :=
  (ps.filter fun p => !b.hasPlace p, ps.foldl (fun b p => b.offer1 p f) b)

/-- Offers a frame to the pair transmit queue (R32): not sent while the link is DOWN, refused when 48 frames wait. -/
def offerPair (b : Bridge) (f : PairFrame) : PairOffer × Bridge :=
  if !b.pair.link then (.notSent, b)
  else if b.pair.queue.length < Config.pairQueueSize then
    (.accepted, b.modPair fun x => { x with queue := x.queue ++ [f] })
  else (.refused, b)

/-- Offers a class-1 frame with the next serial number to several ports. -/
def sendEach (b : Bridge) (ps : List Port) (blk : Block) (o : Origin) (named : Option Port) : List Port × Bridge :=
  (b.nextSerial).offerEach ps { block := blk, origin := o, serial := b.serial, named }

/-- Offers a frame with the next serial number to the pair side. -/
def sendPair (b : Bridge) (c : Carrier) (o : Origin) : PairOffer × Bridge :=
  (b.nextSerial).offerPair { frame := c, origin := o, serial := b.serial }

/-! ## Answers (R12, R30) -/

/-- The block of an answer on coax (R12). -/
def answerBlock (src dst : Nat) (seq : Bool) (x : Answer) : Block := Block.build src dst x.kind seq x.content

/-- The frame of an answer on the pair side (R29, R30). -/
def answerFrame (mac : Mac) (dst tag : Nat) (seq : Byte) (e : Option DirNo) (x : Answer) : Carrier :=
  { mac, kind := x.kind, reason := x.reason, seq, tag, dst := e.getD 0, src := dst, data := x.data }

/-- Gives an asker its answer: in class 0 or, for a longer REPLY, class 1 of the arrival port; on the pair queue for a pair
asker, where a full queue drops it and counts ANSWER_DROPPED (R12, R30, R32). `named` marks the answers of the exchange table,
whose route names the arrival port (R177). -/
def answer (b : Bridge) (a : Asker) (x : Answer) (named : Bool := false) : Bridge :=
  match a with
  | .coax p src dst seq _ =>
    let f : CoaxFrame :=
      { block := answerBlock src dst seq x, origin := .answer, serial := b.serial, named := if named then some p else none }
    if x.short then b.nextSerial.offer0 p f else b.nextSerial.offer1 p f
  | .pair mac dst tag seq e =>
    match b.sendPair (answerFrame mac dst tag seq e x) .answer with
    | (.refused, b) => b.count pairGroup .answerDropped
    | (_, b) => b

/-! ## Notices (R187, R133) -/

/-- Places a notice's copies for an entry: on its port or end, from the source number given for the segment, or on the pair
queue with the source field given. Says whether the notice was lost at once. -/
def placeNotice (b : Bridge) (o : Origin) (n : DirNo) (e : Entry) (source : Port → Option Nat) (pairSrc : Nat)
    (bytes : List Byte) : Bool × Bridge :=
  match e.home with
  | .seg p num =>
    match source (b.segmentOf p) with
    | some src =>
      let ps := b.endsFor p e.endField
      let r := b.sendEach ps (Block.build num src .notice false bytes) o none
      (r.1.length = ps.length, r.2)
    | none => (true, b)
  | .pair mac _ =>
    let r := b.sendPair { mac, kind := .notice, dst := n, src := pairSrc, data := bytes } o
    (r.1 ≠ .accepted, r.2)
  | .internal => (true, b)

/-- The bytes of a notice record at this moment (R187), within the 1024 bytes of a frame. -/
def noticeRecord (b : Bridge) (ev : NoticeEvent) : List Byte := (Config.noticeBytes { seconds := b.seconds, event := ev }).take 1024

/-- Offers a notice to one destination (R187): not built when the destination is absent; dropped and counted when it is FREE,
RETIRING or UNREACHABLE, when entry 1 is withdrawn from its segment, or when its queue refuses it. -/
def noticeTo (b : Bridge) (dest : Option DirNo) (ev : NoticeEvent) : Bridge :=
  match dest with
  | none => b
  | some n =>
    match b.entry n with
    | some e =>
      if e.state ≠ .retiring ∧ e.reachable then
        match b.placeNotice .notice n e b.bridgeNumberOn 1 (b.noticeRecord ev) with
        | (true, b) => b.countNoticeDropped
        | (false, b) => b
      else b.countNoticeDropped
    | none => b.countNoticeDropped

/-- Offers a notice to the first destination and then to the second (R187). -/
def notify (b : Bridge) (ev : NoticeEvent) : Bridge := (b.noticeTo b.settings.notice1 ev).noticeTo b.settings.notice2 ev

/-! ## Captures (R185) -/

/-- Whether a group's captures send an ERROR notice: PAIR, EXCHANGE, MAP, SPOOL and STORE (R185). -/
def sendsErrorNotice (g : Fin 9) : Bool := 4 ≤ g.val

/-- A capturing event: it becomes the group's first error, with an ERROR notice but for a LINE group (log 19), or, where one is
held, sets MULTIPLE (R185). -/
def capture (b : Bridge) (g : Fin 9) (kind : Ctr) (detail : ErrorDetail) : Bridge :=
  match (b.group g).first with
  | some _ => b.modGroup g fun x => { x with multiple := true }
  | none =>
    let e : FirstError := { kind, time := b.seconds, detail }
    let b := b.modGroup g fun x => { x with first := some e }
    if sendsErrorNotice g then b.notify (.error g e) else b

/-- An event that is counted and captured in one group. -/
def countCapture (b : Bridge) (g : Fin 9) (c : Ctr) (detail : ErrorDetail) : Bridge := (b.count g c).capture g c detail

end Bridge

end Sys2Proof.Machine
end

