-- ==== Sys2Proof/Machine/Spool.lean ====
section
/-! DEFINITION. The print spool's records: the free list, the queues, readiness, and the end of a job (chapter 7). -/

namespace Sys2Proof.Machine
open Sys2Proof

/-- The directory number of a logical printer: L1 is entry 2 (R41). -/
def lpEntry (l : Lp) : DirNo := l.val + 2

/-- The logical printer of a directory number, 2 to 9. -/
def lpOf (n : Nat) : Option Lp := if h : 2 ≤ n ∧ n ≤ 9 then some ⟨n - 2, by omega⟩ else none

/-- Blocks a byte count needs: divided by 512, rounded up (R121). -/
def blocksFor (bytes : Nat) : Nat := (bytes + 511) / 512

/-- Puts an URGENT job directly after the last URGENT job of a queue, or at its head (R124). -/
def insertUrgent (isUrgent : Nat → Bool) (n : Nat) : List Nat → List Nat
  | [] => [n]
  | x :: xs => if isUrgent x || xs.any isUrgent then x :: insertUrgent isUrgent n xs else n :: x :: xs

/-- Returns a chain's blocks to the free list one at a time, from the first to the last (R119). -/
def freeBlocks (chain freeList : List BlockNo) : List BlockNo := chain.foldl (fun fl x => x :: fl) freeList

namespace Bridge

/-- Whether a job in use is URGENT. -/
def urgentJob (b : Bridge) (n : Nat) : Bool := (b.job n).any (·.urgent)

/-- Places a job in its logical printer's queue by its class (R124). -/
def placeJob (b : Bridge) (l : Lp) (n : Nat) : Bridge :=
  b.modLp l fun x =>
    { x with queue := if b.urgentJob n then insertUrgent b.urgentJob n x.queue else x.queue ++ [n] }

/-- Takes a job out of every queue it is in. -/
def leaveQueue (b : Bridge) (l : Lp) (n : Nat) : Bridge := b.modLp l fun x => { x with queue := x.queue.filter (· ≠ n) }

/-- Whether a job at the head of its queue is ready to start (R125). -/
def jobReady (j : Job) : Bool :=
  match j.mode with
  | .spool => true
  | .stream => 4 ≤ j.chain.length || j.input ≠ .opened

/-- The ready head job of a logical printer that has a primary (R125). -/
def readyHead (b : Bridge) (l : Lp) : Option Job :=
  if (b.lp l).binding.primary.isNone then none
  else
    match (b.lp l).queue.head? with
    | some n => (b.job n).filter jobReady
    | none => none

/-- The owner notice of an ended job (R133). -/
def jobNotice (b : Bridge) (j : Job) (o : JobOutcome) (r : JobReason) : Bridge :=
  let rec_ := b.noticeRecord (.job j.number (lpEntry j.lp) o r j.total j.copiesDone)
  let source := fun s => (b.numberOf (lpEntry j.lp) s).orElse fun _ => b.bridgeNumberOn s
  match b.entry j.owner with
  | some e =>
    if e.reachable then
      match b.placeNotice .jobNotice j.owner e source (lpEntry j.lp) rec_ with
      | (true, b) => b.count spoolGroup .noticeLost
      | (false, b) => b
    else b.count spoolGroup .noticeLost
  | none => b.count spoolGroup .noticeLost

/-- Puts a job record out of use: out of its queue, its chain freed (R132, items 1, 2, 6). -/
def retireJob (b : Bridge) (j : Job) : Bridge :=
  (b.leaveQueue j.lp j.number).modSpool fun s =>
    { s with freeList := freeBlocks j.chain s.freeList, jobs := s.jobs.filter (·.number ≠ j.number) }

/-- The outcome of a job that reaches DONE: DONE_PARTIAL for a STREAM job whose input was PARTIAL (R132). -/
def doneOutcome (j : Job) : JobOutcome := if j.mode = .stream ∧ j.input = .partly then .donePartial else .done

/-- Ends a job with an outcome and a reason, in the order of R132. -/
def endJob (b : Bridge) (n : Nat) (o : JobOutcome) (r : JobReason) : Bridge :=
  match b.job n with
  | some j => (((b.retireJob j).jobNotice j o r)).unpin j.owner
  | none => b

/-- Requeues a SPOOL job returned from a stopped delivery at the head of its queue (R137). -/
def requeue (b : Bridge) (j : Job) : Bridge :=
  (b.modJob j.number fun x => { x with state := .queued, position := 0, latchedTarget := none, latchedPace := none }).modLp j.lp
    fun x => { x with queue := j.number :: x.queue }

/-- The next job number after one in use (R123): the counter runs 1 to 65535 and wraps to 1. -/
def nextNumber (n : Nat) : Nat := if n < 65535 then n + 1 else 1

/-- The job number for a PRINT-OPEN: the counter's value, advanced past numbers in use; at most 31 are (R123). -/
def pickNumber (jobs : List Job) : Nat → Nat → Nat
  | 0, n => n
  | k + 1, n => if jobs.any (·.number = n) then pickNumber jobs k (nextNumber n) else n

end Bridge

end Sys2Proof.Machine
end

