-- ==== Sys2Proof/Machine/Delivery.lean ====
section
/-! DEFINITION. The print delivery unit: choosing a printer, starting, building and handing over frames, answers, silence,
pauses, cancels and stops (chapter 8). -/

namespace Sys2Proof.Machine
open Sys2Proof

/-- What a printer answers (R145, R146). -/
inductive PrinterAnswer | reply | hold (time : Nat) | busy | fail | status (c : StatusCode)
  deriving DecidableEq, Repr

/-- A printer's status after it reported a STATUS code (R138, R146). -/
def statusAfter : StatusCode → PrinterStatus
  | .ready => .ready
  | .busy => .busy
  | .paperOut => .paperOut
  | .offline => .offline

/-- A frame's pace weight: 1 word and its data bytes in words, rounded up (R143). -/
def paceWeight (count : Nat) : Nat := 1 + (count + 1) / 2

/-- The next frame of a job from its delivery position (R144): none when a STREAM job whose input is OPEN has fewer than 1022
bytes beyond the position. -/
def frameShape (j : Job) (d : Delivery) : Option DeliveryFrame :=
  let beyond := j.held - j.position
  let n := min Config.frameData beyond
  let seq := if d.fresh then d.counter else d.counter + 1
  match j.mode with
  | .spool => some { start := j.position, count := n, first := j.position = 0, endOfCopy := j.position + n = j.held, seq }
  | .stream =>
    if j.input = .opened then
      if Config.frameData ≤ beyond then
        some { start := j.position, count := Config.frameData, first := d.fresh, endOfCopy := false, seq }
      else none
    else some { start := j.position, count := n, first := d.fresh, endOfCopy := j.position + n = j.held, seq }

/-- The whole blocks before the position of a STREAM job go out of its chain; the held byte count and the position follow
(R121, R145). -/
def releaseFront (j : Job) : Job :=
  let k := j.position / 512
  { j with chain := j.chain.drop k, held := j.held - 512 * k, position := j.position - 512 * k }

namespace Bridge

/-- The route of an entry's home as it stands (R105, R141). -/
def routeOf (b : Bridge) (e : Entry) : Option Route :=
  match e.home with
  | .internal => none
  | .pair mac _ => some (.pair mac)
  | .seg p _ =>
    if b.paired p then
      match e.endField with
      | some .a => some (.port (lowerOf (pairOf p)))
      | some .b => some (.port (upperOf (pairOf p)))
      | _ => some (.unknownEnd (lowerOf (pairOf p)))
    else some (.port p)

/-! ## Choosing and starting (R140 to R142) -/

/-- Whether a printer is available for a start (R140). -/
def available (b : Bridge) (n : DirNo) : Bool :=
  match b.entry n, b.printer n with
  | some e, some r =>
    e.state = .fixed && e.kind = .printer && e.reachable && r.status ≠ .notResponding && r.delivering.isNone
      && match e.home with
        | .seg p _ => (b.bridgeNumberOn (b.segmentOf p)).isSome
        | _ => true
  | _, _ => false

/-- The printers a logical printer is bound to, the one its active target names first (R140). -/
def candidates (x : LogicalPrinter) : List DirNo :=
  match x.active with
  | .primary => x.binding.primary.toList ++ x.binding.alternate.toList
  | .alternate => x.binding.alternate.toList ++ x.binding.primary.toList

/-- Builds the next frame of a delivery, which goes to pacing with tries made 1, or waits for data (R144, R147). -/
def buildFrame (b : Bridge) (l : Lp) : Bridge :=
  match b.record l with
  | some d =>
    match b.job d.job with
    | some j =>
      match frameShape j d with
      | some f => b.setRecord l (some { d with frame := some f, counter := f.seq, fresh := false, phase := .pacing, tries := 1 })
      | none => b.setRecord l (some { d with frame := none, phase := .dataWait })
    | none => b
  | none => b

/-- Starts a job on a chosen printer, in the order of R141. -/
def startJob (b : Bridge) (l : Lp) (j : Job) (n : DirNo) : Bridge :=
  match b.entry n with
  | some e =>
    match b.routeOf e with
    | some r =>
      let source := match e.home with
        | .seg p _ => (b.bridgeNumberOn (b.segmentOf p)).getD 0
        | _ => 0
      let pace := match e.home with
        | .seg _ _ => if (b.lp l).binding.pace = 0 then 16 else (b.lp l).binding.pace
        | _ => (b.lp l).binding.pace
      let b := b.leaveQueue l j.number
      let b := b.modJob j.number fun x =>
        { x with state := .delivering, started := true, position := 0, latchedTarget := some n, latchedPace := some pace }
      let b := b.modLp l fun x => { x with state := .delivering, current := some j.number, active := .primary }
      let b := b.modPrinter n fun x => { x with delivering := some j.number, question := .none }
      let b := b.pin n
      let b := b.setRecord l (some { job := j.number, target := n, route := r, source, pace, refillDue := b.now + Time.ms 1 })
      let b := b.modDelivery fun u => { u with pace := u.pace.set l Config.paceLimit }
      b.buildFrame l
    | none => b
  | none => b

/-- Takes a logical printer with a ready head job through R140: started, or not. -/
def tryStart (b : Bridge) (l : Lp) : Option Bridge :=
  match b.readyHead l with
  | some j =>
    match (candidates (b.lp l)).find? b.available with
    | some n => some (b.startJob l j n)
    | none => none
  | none => none

/-- Offers to one logical printer on the WAITING list (R142): it starts and leaves, becomes IDLE and leaves when it has no ready
head, or keeps its place. It leaves too where an URGENT STREAM job that is not ready has taken the head (DESIGN CHOICE, log 68). -/
def offerWaiting (b : Bridge) (l : Lp) : Bridge :=
  let leave := fun (b : Bridge) => b.modDelivery fun u => { u with waiting := u.waiting.filter (· ≠ l) }
  match b.readyHead l with
  | none => leave (b.modLp l fun x => { x with state := .idle })
  | some _ =>
    match b.tryStart l with
    | some b => leave b
    | none => b

/-- Offers to one IDLE logical printer (R140): it starts, or becomes WAITING at the tail of the list. -/
def offerIdle (b : Bridge) (l : Lp) : Bridge :=
  if (b.lp l).state = .idle ∧ (b.readyHead l).isSome then
    match b.tryStart l with
    | some b => b
    | none => (b.modLp l fun x => { x with state := .waiting }).modDelivery fun u => { u with waiting := u.waiting ++ [l] }
  else b

/-- Offers the available printers (R142): to the WAITING list, oldest first; to IDLE logical printers with a ready head, in order
of directory number; last to those whose delivery has just ended (log 14). -/
def dispatch (b : Bridge) : Bridge :=
  let b := b.delivery.waiting.foldl offerWaiting b
  let ended := b.delivery.ended
  let b := ((List.finRange 8).filter fun l => !ended.contains l).foldl offerIdle b
  let b := ended.foldl offerIdle b
  b.modDelivery fun u => { u with ended := [] }

/-! ## The end of a delivery (R145, R152) -/

/-- Frees a delivery's printer: no delivering job, no pause, no question in hand, its poll timer stopped unless it is
NOT_RESPONDING, its pin lowered. -/
def releasePrinter (b : Bridge) (n : DirNo) : Bridge :=
  (b.modPrinter n fun r =>
    { r with delivering := none, pauseStart := none, question := .none,
             pollFrom := if r.status = .notResponding then r.pollFrom else none }).unpin n

/-- Empties a delivery record; the logical printer becomes IDLE with no current job, to be offered after the others (R142). -/
def emptyRecord (b : Bridge) (l : Lp) : Bridge :=
  ((b.setRecord l none).modLp l fun x => { x with state := .idle, current := none }).modDelivery
    fun u => { u with ended := u.ended ++ [l] }

/-- Finishes a delivery with the job's end, and offers the freed printer (R145). -/
def finish (b : Bridge) (l : Lp) (o : JobOutcome) (r : JobReason) : Bridge :=
  match b.record l with
  | some d => (((b.releasePrinter d.target).emptyRecord l).endJob d.job o r).dispatch
  | none => b

/-- The reason a cancelled job ends with. -/
def cancelReasonOf (b : Bridge) (n : Nat) : JobReason := ((b.job n).bind (·.cancelReason)).getD .owner

/-- Finishes a delivery with its job CANCELLED (R151). -/
def finishCancelled (b : Bridge) (l : Lp) : Bridge :=
  match b.record l with
  | some d => b.finish l .cancelled (b.cancelReasonOf d.job)
  | none => b

/-- The active target after a stop (R152, item 3): the other bound printer if it is available at this moment. Where a commit has unbound
the printer that the delivery went to, there is no other one: the active target stays as it is (DESIGN CHOICE, log 57). -/
def failover (b : Bridge) (l : Lp) (target : DirNo) : Bridge :=
  let x := b.lp l
  if x.binding.primary = some target then
    if x.binding.alternate.any b.available then b.modLp l fun x => { x with active := .alternate } else b
  else if x.binding.alternate = some target then
    if x.binding.primary.any b.available then b.modLp l fun x => { x with active := .primary } else b
  else b

/-- Stops a delivery, but for the offers that follow (R152, items 1 to 5). -/
def stopQuiet (b : Bridge) (l : Lp) : Bridge :=
  match b.record l with
  | some d =>
    let b := (b.releasePrinter d.target).failover l d.target
    let b := b.emptyRecord l
    let b := match b.job d.job with
      | some j =>
        if j.state = JobState.cancelling then b.endJob d.job .cancelled (b.cancelReasonOf d.job)
        else match j.mode with
          | .spool => b.requeue j
          | .stream => b.endJob d.job .failed .targetLost
      | none => b
    b.countDelivery .stopped
  | none => b

/-- Stops a delivery and offers the freed printer and the requeued job (R152). -/
def stop (b : Bridge) (l : Lp) : Bridge := (b.stopQuiet l).dispatch

/-- A printer becomes NOT_RESPONDING; its poll timer starts from 0 if it is REACHABLE (R148 to R150). -/
def setNotResponding (b : Bridge) (n : DirNo) : Bridge :=
  b.modPrinter n fun r =>
    { r with status := .notResponding, pollFrom := if b.reachable n then some b.now else none }

/-! ## Tries and answers (R145 to R151) -/

/-- Sends the frame in hand to PACING as a resend, with the tries given (R146, R148). -/
def resend (b : Bridge) (l : Lp) (tries : Nat) : Bridge :=
  b.modRecord l fun d => { d with phase := .pacing, tries, frame := d.frame.map fun f => { f with built := none } }

/-- A try ends without an answer (R148): a resend while tries remain, otherwise NOT_RESPONDING and a stop. -/
def tryEnds (b : Bridge) (l : Lp) : Bridge :=
  match b.record l with
  | some d =>
    if d.tries < 3 then b.resend l (d.tries + 1)
    else ((b.setNotResponding d.target).countDelivery .noResponse).stop l
  | none => b

/-- A HOLD answer, or one treated as HOLD, in units of 10 ms clamped to 1 to 500 (R146). -/
def holdFrame (b : Bridge) (l : Lp) (units : Nat) : Bridge :=
  match b.record l with
  | some d =>
    (b.modPrinter d.target fun r => { r with status := .busy }).setRecord l
      (some { d with phase := .holdWait (b.now + Time.ms 10 * max 1 (min 500 units)), tries := 1 })
  | none => b

/-- Pauses a delivery at STATUS PAPER_OUT or OFFLINE (R149). -/
def pauseFrame (b : Bridge) (l : Lp) (c : StatusCode) : Bridge :=
  match b.record l with
  | some d =>
    (b.modPrinter d.target fun r =>
      { r with status := statusAfter c, question := .none, pauseStart := some b.now, pollFrom := some b.now }).setRecord l
      (some { d with phase := .paused, frame := d.frame.map fun f => { f with asked := false, built := none } })
  | none => b

/-- A REPLY that matches the frame in hand (R145): the position advances, released blocks go to the free list, and the next frame
is built or the delivery is finished. -/
def replyFrame (b : Bridge) (l : Lp) : Bridge :=
  match b.record l with
  | some d =>
    match d.frame, b.job d.job with
    | some f, some j =>
      let b := b.modPrinter d.target fun r => { r with question := .none }
      let j := { j with position := f.start + f.count }
      let b := match j.mode with
        | .spool => b.modJob j.number fun _ => j
        | .stream =>
          (b.modJob j.number fun _ => releaseFront j).modSpool
            fun s => { s with freeList := freeBlocks (j.chain.take (j.position / 512)) s.freeList }
      if f.endOfCopy then
        let b := b.modJob j.number fun x => { x with copiesDone := x.copiesDone + 1 }
        if j.copiesDone + 1 < j.copies then (b.modJob j.number fun x => { x with position := 0 }).buildFrame l
        else b.finish l (doneOutcome j) .none
      else b.buildFrame l
    | _, _ => b
  | none => b

/-- The effect of an answer that matches the frame in hand (R145, R146), or that ends a cancel (R151): a REPLY to the last frame of a copy
that comes while the job is CANCELLING does not raise the copies done (DESIGN CHOICE, log 58). -/
def frameAnswered (b : Bridge) (l : Lp) (a : PrinterAnswer) : Bridge :=
  let b := if a = .fail then b.countDelivery .printerFail else b
  match b.record l with
  | some d =>
    if (b.job d.job).any fun j => j.state = .cancelling then
      let b := match a with
        | .status c => b.modPrinter d.target fun r => { r with status := statusAfter c }
        | .hold _ | .busy => b.modPrinter d.target fun r => { r with status := .busy }
        | _ => b
      b.finishCancelled l
    else
      match a with
      | .reply => b.replyFrame l
      | .hold t => b.holdFrame l t
      | .busy => b.holdFrame l 10
      | .status .busy => b.holdFrame l 10
      | .status .ready => (b.modPrinter d.target fun r => { r with status := .ready }).resend l 1
      | .status c => b.pauseFrame l c
      | .fail => b.tryEnds l
  | none => b

/-- A silent printer speaks: it leaves NOT_RESPONDING with the status given, its poll timer stops (R150). -/
def leaveSilence (b : Bridge) (n : DirNo) (s : PrinterStatus) : Bridge :=
  b.modPrinter n fun r => if r.status = .notResponding then { r with status := s, pollFrom := none } else r

/-- A STATUS that matches the query in hand sets the printer's status; READY ends a pause (R149, R150). -/
def queryAnswered (b : Bridge) (n : DirNo) (l : Option Lp) (c : StatusCode) : Bridge :=
  let silent := (b.printer n).any (·.status = .notResponding)
  let b := b.modPrinter n fun r =>
    { r with status := statusAfter c, question := .none, pollFrom := if silent then none else r.pollFrom }
  match l with
  | some l =>
    if c = .ready ∧ (b.record l).any (·.phase = .paused) then
      (b.modPrinter n fun r => { r with pauseStart := none, pollFrom := none }).resend l 1
    else b
  | none => b

/-- A printer's question in hand (R138). -/
def question (b : Bridge) (n : DirNo) : Question :=
  match b.printer n with
  | some r => r.question
  | none => .none

/-- The logical printer that delivers to a printer. -/
def lpDelivering (b : Bridge) (n : DirNo) : Option Lp :=
  (List.finRange 8).find? fun l => (b.record l).any (·.target = n)

/-- Whether the tag of a pair answer is the question's: the logical printer's number for a frame, 1 for a query (R144, R149). -/
def tagMatches (tag : Option Nat) (want : Nat) : Bool := tag.all (· = want)

/-- An answer from a printer, with its sequence and, on the pair side, its tag (R145, R149, R150). -/
def printerAnswer (b : Bridge) (n : DirNo) (seq : OutSeq) (tag : Option Nat) (a : PrinterAnswer) : Bridge :=
  let l := b.lpDelivering n
  match b.question n with
  | .frame s =>
    match l with
    | some l =>
      if s = seq ∧ tagMatches tag (lpEntry l) then b.frameAnswered l a
      else (b.countDelivery .unexpectedAnswer).leaveSilence n .unknown
    | none => (b.countDelivery .unexpectedAnswer).leaveSilence n .unknown
  | .query s _ _ =>
    if s = seq ∧ tagMatches tag 1 then
      match a with
      | .status c => b.queryAnswered n l c
      | _ => (b.modPrinter n fun r => { r with question := .none }).leaveSilence n .unknown
    else (b.countDelivery .unexpectedAnswer).leaveSilence n .unknown
  | .none => (b.countDelivery .unexpectedAnswer).leaveSilence n .unknown

/-- Tells the delivery unit that a delivering job has got data or that its input has left OPEN (R147). -/
def toldOfData (b : Bridge) (l : Lp) : Bridge :=
  if (b.record l).any (·.phase = .dataWait) then b.buildFrame l else b

/-- A cancel of a DELIVERING job (R151): CANCELLING while a frame awaits an answer, otherwise finished at once. -/
def cancelDelivery (b : Bridge) (l : Lp) (r : JobReason) : Bridge :=
  match b.record l with
  | some d =>
    let b := b.modJob d.job fun j => { j with cancelReason := some r }
    match d.phase with
    | .queued | .window _ =>
      (b.modJob d.job fun j => { j with state := .cancelling }).modLp l fun x => { x with state := .cancelling }
    | _ => b.finish l .cancelled r
  | none => b

/-- Cancels a job by its state (R131). -/
def cancelJob (b : Bridge) (n : Nat) (r : JobReason) : Bridge :=
  match b.job n with
  | some j =>
    match j.state with
    | .filling | .queued => b.endJob n .cancelled r
    | .delivering => b.cancelDelivery j.lp r
    | .cancelling => b
  | none => b

/-! ## Handing over (R143, R144) -/

/-- The sequence of a printer's next new question (R138): the printer's bit toggled on coax, the question counter on the pair
side. -/
def newQuestion (b : Bridge) (n : DirNo) (r : Route) : OutSeq × Bridge :=
  match r with
  | .pair _ => (.byte b.pair.question, b.modPair fun p => { p with question := p.question + 1 })
  | _ =>
    let bit := !(b.entry n).any (·.bridgeBit)
    (.bit bit, b.modEntry n fun e => { e with bridgeBit := bit })

/-- The home number of the entry a coax frame is addressed to. -/
def homeNumber (b : Bridge) (n : DirNo) : Nat :=
  match (b.entry n).map (·.home) with
  | some (Home.seg _ k) => k
  | _ => 0

/-- The fixed fields of a PRINT-DATA to a printer and the data read from the store (R3, R144). -/
def frameBytes (f : DeliveryFrame) (data : List Byte) : List Byte := [f.seq, Config.flagsByte f.first f.endOfCopy] ++ data

/-- The PRINT-DATA block of a delivery (R144). -/
def deliveryBlock (b : Bridge) (d : Delivery) (seq : OutSeq) (bytes : List Byte) : Block :=
  Block.build (b.homeNumber d.target) d.source .printData (seq = .bit true) bytes

/-- The PRINT-DATA carrier frame of a delivery (R144). -/
def deliveryCarrier (l : Lp) (d : Delivery) (mac : Mac) (seq : OutSeq) (bytes : List Byte) : Carrier :=
  { mac, kind := .printData, seq := (match seq with | .byte x => x | .bit _ => 0), tag := lpEntry l, dst := d.target,
    src := lpEntry l, data := bytes }

/-- Whether a delivery's frame may be handed over: in PACING, with allowance for its weight (R143), and with an end that can
transmit to offer it to (log 17). -/
def mayHandOver (b : Bridge) (l : Lp) : Bool :=
  match b.record l with
  | some d =>
    match d.phase, d.frame with
    | .pacing, some f =>
      (d.pace = 0 || paceWeight f.count ≤ b.delivery.pace[l]) && match d.route with
        | .pair _ => true
        | r => !(b.routePorts r).isEmpty
    | _, _ => false
  | none => false

/-- A read of the store whose parity does not match ends the delivery (R120, R144, R151). -/
def parityError (b : Bridge) (l : Lp) (n : Nat) (blk : BlockNo) : Bridge :=
  let cancelling := (b.job n).any fun j => j.state = .cancelling
  let b := if cancelling then b.finishCancelled l else b.finish l .failed .storeError
  b.countCapture storeGroup .parity (.parity blk n)

/-- Joins a logical printer to the waiting list of a port (R18): at most once. One still on it from a frame that has gone keeps its
place (DESIGN CHOICE, log 41). -/
def joinWaiting (b : Bridge) (p : Port) (l : Lp) : Bridge :=
  b.modPort p fun x => { x with waiting := if x.waiting.contains l then x.waiting else x.waiting ++ [l] }

/-- Joins a logical printer to the pair waiting list (R33): at most once. One still on it from a frame that has gone keeps its place
(DESIGN CHOICE, log 41). -/
def joinPairWaiting (b : Bridge) (l : Lp) : Bridge :=
  b.modPair fun x => { x with waiting := if x.waiting.contains l then x.waiting else x.waiting ++ [l] }

/-- Offers a frame that has been charged to its route's queues (R144): QUEUED, LISTED where every queue refuses it, or a try that
ends at once where the pair link is DOWN (R32). -/
def offerFrame (b : Bridge) (l : Lp) (d : Delivery) (f : DeliveryFrame) (seq : OutSeq) (bytes : List Byte) : Bridge :=
  match d.route with
  | .pair mac =>
    let f := { f with serial := b.serial }
    match b.sendPair (deliveryCarrier l d mac seq bytes) (.delivery l) with
    | (.accepted, b) => b.setRecord l (some { d with phase := .queued, frame := some f })
    | (.refused, b) =>
      (b.setRecord l (some { d with phase := .listed, frame := some { f with built := some (seq, bytes) } })).joinPairWaiting l
    | (.notSent, b) => (b.setRecord l (some { d with phase := .queued, frame := some f })).tryEnds l
  | r =>
    let f := { f with serial := b.serial }
    let ps := b.routePorts r
    let x := b.sendEach ps (b.deliveryBlock d seq bytes) (.delivery l) r.named
    if x.1.length = ps.length then
      ps.foldl (fun b p => b.joinWaiting p l)
        (x.2.setRecord l (some { d with phase := .listed, frame := some { f with built := some (seq, bytes) } }))
    else x.2.setRecord l (some { d with phase := .queued, frame := some f })

/-- Hands over the frame of a logical printer (R143, R144): the allowance is charged, the data is read from the store under the
parity check, the first handover puts the question in hand, and the frame is offered. A delivery whose latched pace is 0 is not paced: it
leaves its allowance as it is (DESIGN CHOICE, log 56). -/
def handOver (m : Store) (b : Bridge) (l : Lp) : Bridge :=
  match b.record l with
  | some d =>
    match d.frame, b.job d.job with
    | some f, some j =>
      let addrs := chainAddrs j.chain f.start f.count
      match addrs.find? m.bad.contains with
      | some a => b.parityError l j.number (Fin.ofNat 512 (a / 512))
      | none =>
        let b := if d.pace = 0 then b
          else b.modDelivery fun u => { u with pace := u.pace.set l (u.pace[l] - paceWeight f.count) }
        let data := addrs.map (Memory.read m.cells)
        let data := match d.route with
          | .pair _ => inOrder (orderOf b.dir.entries d.target) data
          | _ => data
        match f.asked, b.question d.target with
        | true, .frame seq => b.offerFrame l d f seq (frameBytes f data)
        | _, _ =>
          let q := b.newQuestion d.target d.route
          let b := q.2.modPrinter d.target fun r => { r with question := .frame q.1 }
          b.offerFrame l d { f with asked := true } q.1 (frameBytes f data)
    | _, _ => b
  | none => b

/-- Hands over every frame that may be handed over, lowest logical printer first, until none may (R143; the order is DESIGN CHOICE, log
14). -/
def handOvers (m : Store) : Nat → Bridge → Bridge
  | 0, b => b
  | k + 1, b =>
    match (List.finRange 8).find? b.mayHandOver with
    | some l => handOvers m k (b.handOver m l)
    | none => b

/-! ## Waiting lists (R18, R33) -/

/-- The wire form of a LISTED frame of a logical printer for a port: the frame its waiting list may place there. -/
def listedFor (b : Bridge) (l : Lp) (p : Port) : Option CoaxFrame :=
  match b.record l with
  | some d =>
    match d.phase, d.frame with
    | .listed, some f =>
      match f.built with
      | some (seq, bytes) =>
        if d.route.covers p then
          some { block := b.deliveryBlock d seq bytes, origin := .delivery l, serial := f.serial, named := d.route.named }
        else none
      | none => none
    | _, _ => none
  | none => none

/-- A listed frame is accepted: phase QUEUED (R144). -/
def listedAccepted (b : Bridge) (l : Lp) : Bridge :=
  b.modRecord l fun d => { d with phase := .queued, frame := d.frame.map fun f => { f with built := none } }

/-- Offers a freed class-1 place to the port's waiting list, oldest first, until one still has a frame for the port (R18). -/
def offerPlace (b : Bridge) (p : Port) : List Lp → Bridge
  | [] => b.modPort p fun x => { x with waiting := [] }
  | l :: rest =>
    match b.listedFor l p with
    | some f => ((b.modPort p fun x => { x with waiting := rest }).offer1 p f).listedAccepted l
    | none => b.offerPlace p rest

/-- The wire form of a LISTED frame of a logical printer for the pair side. -/
def listedForPair (b : Bridge) (l : Lp) : Option PairFrame :=
  match b.record l with
  | some d =>
    match d.phase, d.frame, d.route with
    | .listed, some f, .pair mac =>
      f.built.map fun x => { frame := deliveryCarrier l d mac x.1 x.2, origin := .delivery l, serial := f.serial }
    | _, _, _ => none
  | none => none

/-- Offers a freed place of the pair queue to the pair waiting list (R33). -/
def offerPairPlace (b : Bridge) : List Lp → Bridge
  | [] => b.modPair fun x => { x with waiting := [] }
  | l :: rest =>
    match b.listedForPair l with
    | some f => ((b.modPair fun x => { x with waiting := rest }).offerPair f).2.listedAccepted l
    | none => b.offerPairPlace rest

/-! ## Reports of the queues -/

/-- The send time of a delivery frame: its window opens at the first report (R144). The report of an older handover of
the frame, whose copy still waited when the frame was QUEUED again, is ignored (DESIGN CHOICE, log 69). -/
def deliverySent (b : Bridge) (l : Lp) (serial : Nat) (window : Time) : Bridge :=
  b.modRecord l fun d =>
    if d.phase = .queued ∧ d.frame.any (·.serial = serial) then { d with phase := .window (b.now + window) } else d

/-- Every copy of a delivery frame has left its queue unsent: the try ends, if the frame is still the one queued (R148);
the loss of an older handover is ignored (DESIGN CHOICE, log 69). -/
def deliveryNotSent (b : Bridge) (l : Lp) (serial : Nat) : Bridge :=
  if (b.record l).any fun d => d.phase = .queued && d.frame.any (·.serial = serial) then b.tryEnds l else b

/-- The send time of a status query: its window opens at the first report (R149). -/
def querySent (b : Bridge) (n : DirNo) (serial : Nat) (window : Time) : Bridge :=
  b.modPrinter n fun r =>
    match r.question with
    | .query s k none => if k = serial then { r with question := .query s k (some (b.now + window)) } else r
    | _ => r

/-- A status query reported not sent counts as unanswered (R11, R32). -/
def queryNotSent (b : Bridge) (n : DirNo) (serial : Nat) : Bridge :=
  b.modPrinter n fun r =>
    match r.question with
    | .query _ k _ => if k = serial then { r with question := .none } else r
    | _ => r

/-- Ends the try of a logical printer whose LISTED frame a flush finds on a port's waiting list (R19, R148). -/
def listedFlushed (b : Bridge) (p : Port) (l : Lp) : Bridge := if (b.listedFor l p).isSome then b.tryEnds l else b

/-- The same for the pair waiting list (R33). -/
def listedPairFlushed (b : Bridge) (l : Lp) : Bridge := if (b.listedForPair l).isSome then b.tryEnds l else b

/-- Stops every delivery whose latched route a report loses (R153), lowest logical printer first, each with the offers that follow it
before the next (DESIGN CHOICE, log 71). -/
def deliveryLosses (b : Bridge) (concerns : Route → Bool) : Bridge :=
  (List.finRange 8).foldl
    (fun b l => if (b.record l).any fun d => concerns d.route && !b.routeCan d.route then b.stop l else b) b

end Bridge

end Sys2Proof.Machine
end

