-- ==== Sys2Proof/Machine/Exchange.lean ====
section
/-! DEFINITION. The exchange table: opening, the question on the target's side, answers, and ending without a reply
(chapter 6). -/

namespace Sys2Proof.Machine
open Sys2Proof

/-- The requester of a record, as the asker its answers go to (R100, R112). -/
def Exchange.asker (x : Exchange) : Asker :=
  match x.requesterRoute, x.requesterSeq with
  | .pair mac, .tagged tag seq => .pair mac x.numberAsked tag seq (some x.requester)
  | .port p, .bit s => .coax p x.requesterSrc x.numberAsked s (some x.requester)
  | .port p, .tagged _ _ | .unknownEnd p, _ => .coax p x.requesterSrc x.numberAsked false (some x.requester)
  | .pair mac, .bit _ => .pair mac x.numberAsked 0 0 (some x.requester)

/-- The requester route and sequence that an asker's REQUEST latches (R100). -/
def Asker.latched : Asker → Route × ReqSeq × Nat × Nat
  | .coax p src dst seq _ => (.port p, .bit seq, src, dst)
  | .pair mac dst tag seq _ => (.pair mac, .tagged tag seq, 0, dst)

/-- The asker without its source entry. -/
def Asker.withoutEntry : Asker → Asker
  | .coax p src dst seq _ => .coax p src dst seq none
  | .pair mac dst tag seq _ => .pair mac dst tag seq none

/-- The lowest FREE tag of the 16 (R106). -/
def freeTag (l : List (Nat × Exchange)) : Option Nat := (List.range 16).find? fun t => (look t l).isNone

/-- The content bytes of a request copy: its payload less the padding byte (R1, R35). -/
def copyContent (x : Exchange) : List Byte := if x.copyPad then x.copy.dropLast else x.copy

/-- The bit of an outbound sequence (R105). -/
def OutSeq.isSet : OutSeq → Bool
  | .bit x => x
  | .byte _ => false

/-- The byte of an outbound sequence (R109). -/
def OutSeq.asByte : OutSeq → Byte
  | .bit _ => 0
  | .byte x => x

/-- An answer from a target (R110 to R113): a REPLY with its content, payload and PAD flag, HOLD, BUSY, or FAIL with its reason. -/
inductive TargetAnswer
  | reply (content payload : List Byte) (pad : Bool)
  | hold
  | busy
  | fail (reason : Nat)
  deriving DecidableEq, Repr

namespace Bridge

/-- An exchange record in use. -/
def exchange (b : Bridge) (tag : Nat) : Option Exchange := look tag b.exchanges

/-- Closes a record: its pins are released and it becomes FREE (R116). -/
def closeExchange (b : Bridge) (tag : Nat) : Bridge :=
  match b.exchange tag with
  | some x => ((b.setExchanges (drop tag b.exchanges)).unpin x.requester).unpin x.target
  | none => b

/-- Answers a record's requester FAIL and closes the record (R108, R114). -/
def failExchange (b : Bridge) (tag : Nat) (r : FailReason) : Bridge :=
  match b.exchange tag with
  | some x => (b.answer (Exchange.asker x) (.fail r 0) true).closeExchange tag
  | none => b

/-! ## The request on the target's side (R107 to R109) -/

/-- The forwarded REQUEST to a coax target (R107). -/
def requestBlock (b : Bridge) (x : Exchange) : Block :=
  match x.direction with
  | .pairCoax =>
    Block.build x.wireDst x.wireSrc .request (OutSeq.isSet x.outSeq) (inOrder (orderOf b.dir.entries x.requester) x.copy)
  | _ => { dst := x.wireDst, src := x.wireSrc, kind := .request, seq := OutSeq.isSet x.outSeq, pad := x.copyPad, payload := x.copy }

/-- The forwarded REQUEST to a pair target (R109). -/
def requestFrame (b : Bridge) (tag : Nat) (x : Exchange) (mac : Mac) : Carrier :=
  { mac, kind := .request, seq := OutSeq.asByte x.outSeq, tag, dst := x.target, src := x.requester,
    data := inOrder (orderOf b.dir.entries x.target) (copyContent x) }

/-- Sends a record's question, with phase QUEUED (R107, R109); says whether any queue took it. A frame offered while the pair
link is DOWN is not sent and has no effect of its own (R32, R109). -/
def sendQuestion (b : Bridge) (tag : Nat) : Bool × Bridge :=
  match b.exchange tag with
  | some x =>
    let b := b.modExchange tag fun x => { x with state := .opened .queued, sending := b.serial }
    match x.targetRoute with
    | .pair mac =>
      match b.sendPair (b.requestFrame tag x mac) (.request tag) with
      | (.refused, b) => (false, b)
      | (_, b) => (true, b)
    | r =>
      let ps := b.routePorts r
      let y := b.sendEach ps (b.requestBlock x) (.request tag) r.named
      (decide (y.1.length < ps.length), y.2)
  | none => (true, b)

/-- Sends a record's question again; refused by every queue, the record closes with FAIL REFUSED (R108, R111). -/
def resendQuestion (b : Bridge) (tag : Nat) : Bridge :=
  match b.sendQuestion tag with
  | (true, b) => b
  | (false, b) => b.failExchange tag .refused

/-- A try on a coax target ends without an answer (R108). -/
def questionUnanswered (b : Bridge) (tag : Nat) : Bridge :=
  match b.exchange tag with
  | some x =>
    if x.tries < 3 then (b.modExchange tag fun x => { x with tries := x.tries + 1 }).resendQuestion tag
    else (b.failExchange tag .noAnswer).count exchangeGroup .noAnswer
  | none => b

/-- Whether a record waits for the send report of the copies with a serial number: those of the last sending of its question; the report
of an older one is ignored (DESIGN CHOICE, log 69). -/
def awaitsReport (b : Bridge) (tag serial : Nat) : Bool :=
  (b.exchange tag).any fun x => x.state = .opened .queued && x.sending = serial

/-- A copy of a question has been sent: WINDOW on coax, AWAITING on the pair side (R107, R109). -/
def questionSent (b : Bridge) (tag serial : Nat) (pairSide : Bool) : Bridge :=
  if b.awaitsReport tag serial then
    b.modExchange tag fun x =>
      { x with state := .opened (if pairSide then .awaiting else .window (b.now + Config.coaxWindow)) }
  else b

/-- Every copy of a coax try has left its queue unsent: the try counts as made (R108). -/
def questionNotSent (b : Bridge) (tag serial : Nat) : Bridge :=
  if b.awaitsReport tag serial then b.questionUnanswered tag else b

/-- The answer window of a record closes (R108). -/
def closeAnswerWindow (b : Bridge) (tag : Nat) : Bridge :=
  match b.exchange tag with
  | some x =>
    match x.state with
    | .opened (.window closes) => if closes ≤ b.now then b.questionUnanswered tag else b
    | _ => b
  | none => b

/-- BUSY_DELAY ends: the question is sent again as the same try (R111). -/
def endBusyDelay (b : Bridge) (tag : Nat) : Bridge :=
  match b.exchange tag with
  | some x =>
    match x.state with
    | .opened (.busyDelay ends) => if ends ≤ b.now then b.resendQuestion tag else b
    | _ => b
  | none => b

/-- A record times out (R114). -/
def timeOutExchange (b : Bridge) (tag : Nat) : Bridge :=
  match b.exchange tag with
  | some x => if x.deadline ≤ b.now then (b.failExchange tag .timeout).count exchangeGroup .timedOut else b
  | none => b

/-! ## Opening (R103 to R106) -/

/-- A record of the same requester and target. -/
def sameParties (b : Bridge) (requester target : DirNo) : Option (Nat × Exchange) :=
  b.exchanges.find? fun r => r.2.requester = requester && r.2.target = target

/-- The hold time of a repeat: the remaining time in units of 10 ms, rounded up, at least 1 (R102). -/
def holdTime (b : Bridge) (x : Exchange) : Nat := max 1 ((x.deadline - b.now + (Time.ms 10 - 1)) / Time.ms 10)

/-- How a request's route resolves (R105): the direction, target route, wire numbers, use of the bridge number and outbound
sequence; or the refusal. -/
inductive Resolution
  | refused (x : Answer)
  | resolved (d : Direction) (r : Route) (wireDst wireSrc : Nat) (usesBridge : Bool) (q : OutSeq)
  deriving DecidableEq, Repr

/-- The lowest bit of a requester's sequence (R105). -/
def requesterBit : ReqSeq → Bool
  | .bit s => s
  | .tagged _ s => s.getLsbD 0

/-- Resolves the route of a new exchange against the directory as it stands (R105). -/
def resolveRoute (b : Bridge) (requester target : DirNo) (e : Entry) (q : ReqSeq) : Resolution :=
  match b.routeOf e, e.home with
  | some r, .seg t number =>
    let d := match q with
      | .bit _ => Direction.coaxCoax
      | .tagged _ _ => Direction.pairCoax
    match b.numberOf requester t with
    | some src => .resolved d r number src false (.bit (requesterBit q))
    | none =>
      match b.bridgeNumberOn t with
      | some src =>
        if b.exchanges.any fun x => x.2.target = target && x.2.usesBridge then .refused .busy
        else .resolved d r number src true (.bit (!e.bridgeBit))
      | none => .refused (.fail .refused 0)
  | some r, .pair _ _ => .resolved .coaxPair r 0 0 false (.byte b.pair.question)
  | _, _ => .refused (.fail .refused 0)

/-- Advances the sequence a new exchange has taken: the target's bridge sequence bit, or the question counter (R61, R105, R109). -/
def advanceSequence (b : Bridge) (target : DirNo) (usesBridge : Bool) : OutSeq → Bridge
  | .bit x => if usesBridge then b.modEntry target fun e => { e with bridgeBit := x } else b
  | .byte _ => b.modPair fun p => { p with question := p.question + 1 }

/-- Opens a record under a tag, in the order of R106. -/
def openExchange (b : Bridge) (tag : Nat) (a : Asker) (x : Exchange) : Bridge :=
  let b := b.setExchanges (put tag x b.exchanges)
  let b := (b.pin x.requester).pin x.target
  match b.sendQuestion tag with
  | (false, b) => b.failExchange tag .refused
  | (true, b) => b.answer a (.hold (10 * b.settings.exchangeTimeout)) true

/-- Takes a REQUEST with a requester entry and a target entry (R103). A requester that was RETIRING and has been freed by the closing of
step 2 cannot be pinned: the REQUEST is answered as one without a source entry (R56, R85, R100; DESIGN CHOICE, log 53). -/
def takeRequest (b : Bridge) (a : Asker) (requester : DirNo) (target : DirNo) (e : Entry) (copy : List Byte) (pad : Bool) :
    Bridge :=
  let (route, q, src, dst) := Asker.latched a
  match (b.sameParties requester target).filter fun r => r.2.requesterSeq = q with
  | some (_, x) => b.answer a (.hold (b.holdTime x)) true
  | none =>
    let b := match b.sameParties requester target with
      | some (tag, _) => b.closeExchange tag
      | none => b
    if (b.entry requester).isNone then (b.answer (Asker.withoutEntry a) (.fail .refused 0)).countForward .refused
    else if e.kind ≠ .station then b.answer a (.fail .refused 0) true
    else if !e.reachable then b.answer a (.fail .unreachable 0) true
    else
      match freeTag b.exchanges with
      | none => (b.answer a .busy true).count exchangeGroup .tableFull
      | some tag =>
        match b.resolveRoute requester target e q with
        | .refused x => b.answer a x true
        | .resolved d r wireDst wireSrc usesBridge outSeq =>
          (b.advanceSequence target usesBridge outSeq).openExchange tag a
            { state := .opened .queued, direction := d, requester, requesterRoute := route, requesterSrc := src,
              numberAsked := dst, requesterSeq := q, target, targetRoute := r, wireDst, wireSrc, usesBridge, outSeq,
              tries := 1, deadline := b.now + Time.ms 100 * b.settings.exchangeTimeout, copy, copyPad := pad,
              sending := b.serial }

/-! ## Answers (R110 to R113) -/

/-- Whether a latched route lies on the segment a block arrived on, at either end (R110). -/
def routeOnSegment (b : Bridge) (r : Route) (p : Port) : Bool :=
  match r with
  | .port q | .unknownEnd q => b.segmentOf q = b.segmentOf p
  | .pair _ => false

/-- The record a coax answer matches (R110): of two that a commit has left with the same wire numbers, the one with the lower tag
(DESIGN CHOICE, log 48). -/
def matchCoax (b : Bridge) (p : Port) (blk : Block) : Option Nat :=
  (b.exchanges.find? fun r =>
    b.routeOnSegment r.2.targetRoute p && r.2.wireDst = blk.src && r.2.wireSrc = blk.dst
      && r.2.outSeq = .bit blk.seq).map (·.1)

/-- The record a pair answer matches (R110). -/
def matchPair (b : Bridge) (f : Carrier) : Option Nat :=
  (b.exchanges.find? fun r => r.1 = f.tag && r.2.targetRoute = .pair f.mac && r.2.outSeq = .byte f.seq).map (·.1)

/-- HOLD from the target (R111). -/
def targetHolds (b : Bridge) (tag : Nat) : Bridge := b.modExchange tag fun x => { x with state := .held }

/-- BUSY from the target (R111). -/
def targetBusy (b : Bridge) (tag : Nat) : Bridge :=
  b.modExchange tag fun x =>
    match x.state with
    | .opened .queued | .opened (.busyDelay _) => x
    | _ => { x with state := .opened (.busyDelay (b.now + Config.busyDelay)) }

/-- Relays a target's REPLY to the requester (R112): class 1 of the latched route, or the pair queue, where a refusal loses it
without a count (R32). -/
def relayReply (b : Bridge) (x : Exchange) (content payload : List Byte) (pad : Bool) : Bridge :=
  match Exchange.asker x with
  | .coax p src dst seq _ =>
    let blk : Block := match x.direction with
      | .coaxPair => Block.build src dst .reply seq (inOrder (orderOf b.dir.entries x.target) content)
      | _ => { dst := src, src := dst, kind := .reply, seq, pad, payload }
    (b.sendEach [p] blk .answer (some p)).2
  | .pair mac _ tag seq _ =>
    (b.sendPair { mac, kind := .reply, seq, tag, dst := x.requester, src := x.target,
                  data := inOrder (orderOf b.dir.entries x.requester) content } .answer).2

/-- Relays a target's FAIL as FAIL TARGET_FAILED with its reason (R112). A full pair queue loses it without a count (R32). -/
def relayFail (b : Bridge) (x : Exchange) (reason : Nat) : Bridge :=
  match Exchange.asker x with
  | .coax p src dst seq e => b.answer (.coax p src dst seq e) (.fail .targetFailed reason) true
  | .pair mac dst tag seq e => (b.sendPair (answerFrame mac dst tag seq e (.fail .targetFailed reason)) .answer).2

/-- An answer that matches a record (R111, R112). -/
def targetAnswered (b : Bridge) (tag : Nat) (a : TargetAnswer) : Bridge :=
  match b.exchange tag with
  | some x =>
    match a with
    | .hold => b.targetHolds tag
    | .busy => b.targetBusy tag
    | .reply content payload pad => (b.relayReply x content payload pad).closeExchange tag
    | .fail reason => ((b.relayFail x reason).closeExchange tag).count exchangeGroup .targetFailed
  | none => b

/-- An answer that matches no record (R113). -/
def unexpected (b : Bridge) (a : TargetAnswer) (detail : ErrorDetail) : Bridge :=
  match a with
  | .reply _ _ _ => b.countCapture exchangeGroup .unexpectedReply detail
  | _ => b.count exchangeGroup .unexpectedAnswer

/-- The answer kinds of a coax block, for the exchange table. -/
def coaxAnswer (blk : Block) : Option TargetAnswer :=
  match blk.kind with
  | .reply => some (.reply blk.content blk.payload blk.pad)
  | .hold => some .hold
  | .busy => some .busy
  | .fail => some (.fail (blk.content.getD 0 0).toNat)
  | _ => none

/-- The answer kinds of a carrier frame, for the exchange table. -/
def carrierAnswer (f : Carrier) : Option TargetAnswer :=
  match f.kind with
  | .reply => some (.reply f.data f.data false)
  | .hold => some .hold
  | .busy => some .busy
  | .fail => some (.fail f.reason)
  | _ => none

/-- A coax answer handed to the exchange table (R110). A late mark changes nothing. -/
def exchangeCoaxAnswer (b : Bridge) (p : Port) (blk : Block) : Bridge :=
  match coaxAnswer blk with
  | some a =>
    match b.matchCoax p blk with
    | some tag => b.targetAnswered tag a
    | none => b.unexpected a (.replyCoax (b.segmentOf p) blk.dst blk.src blk.seq)
  | none => b

/-- A pair answer handed to the exchange table (R110). -/
def exchangePairAnswer (b : Bridge) (f : Carrier) : Bridge :=
  match carrierAnswer f with
  | some a =>
    match b.matchPair f with
    | some tag => b.targetAnswered tag a
    | none => b.unexpected a (.replyPair f.mac f.dst f.src f.seq f.tag)
  | none => b

/-! ## Losses (R115) -/

/-- Closes a record whose requester or target route a report loses (R115). -/
def exchangeLoss (b : Bridge) (concerns : Route → Bool) (tag : Nat) : Bridge :=
  match b.exchange tag with
  | some x =>
    let lost := fun r => concerns r && !b.routeCan r
    if lost x.requesterRoute || lost x.targetRoute then
      let b := if b.routeCan x.requesterRoute then b.failExchange tag .unreachable else b.closeExchange tag
      b.count exchangeGroup .closedByLine
    else b
  | none => b

/-- The exchange table takes a report of a port, a feed or the pair link (R115): the records it loses are closed by rising tag
(DESIGN CHOICE, log 48). -/
def exchangeLosses (b : Bridge) (concerns : Route → Bool) : Bridge :=
  (List.range 16).foldl (fun b tag => b.exchangeLoss concerns tag) b

end Bridge

end Sys2Proof.Machine
end

