-- ==== Sys2Proof/Machine/Reports.lean ====
section
/-! DEFINITION. What the ports, the feed controllers and the pair link report, and what follows: send reports and losses of
frames (R10, R11), flushes (R19, R23), the feed state (chapter 10), reach, exchanges and deliveries (R171). -/

namespace Sys2Proof.Machine
open Sys2Proof

/-- How a frame left its queue unsent (R11, R91). -/
inductive LossCause | collisions | flushed
  deriving DecidableEq, Repr

/-- What a flush has removed from a port's queues: its class-1 frames, oldest first, and its waiting list (R19). -/
structure Flush where
  port : Port
  frames : List CoaxFrame
  waiting : List Lp := []
  deriving DecidableEq, Repr

/-- What the feed controller does at a report, by its state and the ends available (R174 to R176). -/
inductive FeedMove | stay | abandon | openSwitch | go (s : FeedState)
  deriving DecidableEq, Repr

/-- The table of R174, with the reports that reach a window (R175, R176). -/
def feedMove (f : Feed) (availableA availableB : Bool) : FeedMove :=
  match f.state, availableA, availableB with
  | .feedA, true, true => .stay
  | .feedA, true, false => .abandon
  | .feedA, false, true => .go .feedB
  | .feedB, true, true => if f.window = .none then .openSwitch else .stay
  | .feedB, false, true => .abandon
  | .feedB, true, false => .go .feedA
  | .down, true, _ => .go .feedA
  | .down, false, true => .go .feedB
  | .down, false, false => .stay
  | .split, false, false => .go .down
  | .split, true, true => .stay
  | .split, _, _ => .abandon
  | _, false, false => .go .down

/-- A feed controller that enters a state: no window, no probe; the probe timer starts from 0 in SPLIT (R174, R176). Outside SPLIT it
reads 0 (DESIGN CHOICE, log 79). -/
def Feed.enter (now : Time) (s : FeedState) (f : Feed) : Feed :=
  { f with state := s, window := .none, probing := false, probeFrom := if s = .split then some now else none }

/-- A window abandoned, or a probe ended as void, whose timer restarts from 0 (R175, R176, R179). -/
def Feed.abandon (now : Time) (f : Feed) : Feed :=
  { f with window := .none, probing := false, probeFrom := if f.probing then some now else f.probeFrom }

/-- The end of the start-up wait (R180): the state is chosen, with a split window at once where both ends are ACTIVE and a test
ended OPEN during the wait. -/
def Feed.endWait (now : Time) (a c : PortMode) (f : Feed) : Feed :=
  let s : FeedState := if a = .active then .feedA else if c = .active then .feedB else .down
  { Feed.enter now s f with
    startWait := false, openInWait := false,
    window := if a = .active ∧ c = .active ∧ f.openInWait then .split else .none }

/-- A line monitor that takes a new port state (R157, R160): entering TESTING starts a test and its first run; entering ACTIVE
sets the echo count to 0; any other state has no run in hand. No echo of an earlier state is measured. -/
def Monitor.enter (now : Time) (s : PortMode) (m : Monitor) : Monitor :=
  { m with
    state := s, runFrom := if s = .testing then some now else none, restarts := if s = .testing then 0 else m.restarts,
    echo := if s = .active then 0 else m.echo, echoDue := false }

/-- Whether a report that lets certain ports transmit no more concerns a route (R115, R153). -/
def lostBy (lost : List Port) : Route → Bool
  | .port q => lost.contains q
  | .unknownEnd l => lost.any fun q => pairOf q = pairOf l
  | .pair _ => false

/-- The routes a pair link report concerns (R115, R153). -/
def onPair : Route → Bool
  | .pair _ => true
  | _ => false

namespace Bridge

/-! ## Send reports and losses -/

/-- Whether a copy of a frame waits on any segment port. -/
def copyQueued (b : Bridge) (serial : Nat) : Bool :=
  (List.finRange 4).any fun p =>
    (b.port p).class0.any (·.serial = serial) || (b.port p).class1.any (·.serial = serial)

/-- Marks the waiting copies of a frame: another copy has been sent (R177). -/
def markSent (b : Bridge) (serial : Nat) : Bridge :=
  let mark := List.map fun f : CoaxFrame => if f.serial = serial then { f with siblingSent := true } else f
  b.setPorts (b.ports.map fun x => { x with class0 := mark x.class0, class1 := mark x.class1 })

/-- The answer of a management request that armed a reset has been reported sent or not sent (R190). -/
def answerReported (b : Bridge) (serial : Nat) : Bridge :=
  b.setCtl { b.ctl with waiting := b.ctl.waiting.map fun w => if w.answer = serial then { w with reported := true } else w }

/-- The originator takes a send report (R10, R32). -/
def sendReport (b : Bridge) (o : Origin) (serial : Nat) (pairSide : Bool) : Bridge :=
  let window := if pairSide then Config.pairWindow else Config.coaxWindow
  match o with
  | .request tag => b.questionSent tag serial pairSide
  | .delivery l => b.deliverySent l serial window
  | .query n => b.querySent n serial window
  | .agent => b.answerReported serial
  | _ => b

/-- A segment port reports a frame sent: the first report of a frame's copies counts (R10, R177). -/
def frameSent (b : Bridge) (f : CoaxFrame) : Bridge :=
  let b := b.markSent f.serial
  if f.siblingSent then b else b.sendReport f.origin f.serial false

/-- The originator takes a not-sent report (R11, R32). -/
def lossReport (b : Bridge) (cause : LossCause) (o : Origin) (serial : Nat) : Bridge :=
  match o with
  | .forward => if cause = .flushed then b.countForward .flushed else b
  | .relay i => b.countFeed i .relayLost
  | .request tag => b.questionNotSent tag serial
  | .delivery l => b.deliveryNotSent l serial
  | .query n => b.queryNotSent n serial
  | .agent => b.countAnswerLost.answerReported serial
  | .notice => b.countNoticeDropped
  | .jobNotice => b.count spoolGroup .noticeLost
  | .answer => b

/-- A segment port reports a frame not sent: the loss of a copy while another remains or has been sent has no effect (R108,
R177). -/
def frameLost (b : Bridge) (cause : LossCause) (f : CoaxFrame) : Bridge :=
  if f.siblingSent || b.copyQueued f.serial then b else b.lossReport cause f.origin f.serial

/-- Reports flushed frames in order; of copies flushed together the last one reports. -/
def framesFlushed (b : Bridge) : List CoaxFrame → Bridge
  | [] => b
  | f :: rest => (if rest.any (·.serial = f.serial) then b else b.frameLost .flushed f).framesFlushed rest

/-- Reports a frame of the pair queue not sent. A forwarded REQUEST's loss has no effect of its own (R109). -/
def pairFrameLost (b : Bridge) (f : PairFrame) : Bridge :=
  match f.origin with
  | .request _ => b
  | o => b.lossReport .flushed o f.serial

/-! ## Flushes (R19) -/

/-- Empties a port's queues and abandons its attempt: the steps of R19 but for the reports. -/
def takeFlush (b : Bridge) (p : Port) : Flush × Bridge :=
  let x := b.port p
  ({ port := p, frames := x.class1, waiting := x.waiting },
   b.modPort p fun x =>
     { x with class0 := [], class1 := [], attempt := none, backoff := none, waiting := [],
              quietFrom := if b.driving p then b.now else x.quietFrom })

/-- The reports of flushes: each class-1 frame not sent, then the LISTED frames of the waiting lists (R19); of two ports that one change
flushes, the lower port's come before the upper's in each of the two (DESIGN CHOICE, log 76). -/
def reportFlush (b : Bridge) (l : List Flush) : Bridge :=
  let b := b.framesFlushed (l.flatMap (·.frames))
  l.foldl (fun b x => x.waiting.foldl (fun b w => b.listedFlushed x.port w) b) b

/-- Sets a port's allowance to its cap with remainder 0 (R96). -/
def fullAllowance (b : Bridge) (p : Port) : Bridge :=
  b.modPort p fun x => { x with allowance := (b.portSettings p).cap, remainder := 0 }

/-! ## The feed state (R173 to R180) -/

/-- A change of a feed controller, taken whole (R174): ends become UNKNOWN outside SPLIT, echo counts 0 in SPLIT, an end newly
able to transmit gets its cap, and the queues of an end no longer able are flushed. -/
def changeFeed (b : Bridge) (i : PairNo) (g : Feed → Feed) : List Flush × Bridge :=
  let ends := [lowerOf i, upperOf i]
  let could := ends.filter b.canTransmit
  let old := (b.feed i).state
  let b := b.modFeed i g
  let new := (b.feed i).state
  let b := if new ≠ old then
      if new = .split then ends.foldl (fun b p => b.modMon p fun m => { m with echo := 0 }) b else b.clearEnds (lowerOf i)
    else b
  let b := (ends.filter fun p => b.canTransmit p && !could.contains p).foldl fullAllowance b
  (could.filter fun p => !b.canTransmit p).foldl
    (fun y p => let x := y.2.takeFlush p; (y.1 ++ [x.1], x.2)) ([], b)

/-- The feed controller takes a report of its ends (R174 to R176, R180). -/
def follow (b : Bridge) (i : PairNo) : List Flush × Bridge :=
  let f := b.feed i
  let a := (b.mon (lowerOf i)).state
  let c := (b.mon (upperOf i)).state
  if !f.paired then ([], b)
  else if f.startWait then
    if a = .testing ∨ c = .testing then ([], b) else b.changeFeed i (Feed.endWait b.now a c)
  else
    match feedMove f (a = .active) (c = .active) with
    | .stay => ([], b)
    | .abandon => ([], b.modFeed i (Feed.abandon b.now))
    | .openSwitch => ([], b.modFeed i fun f => { f with window := .switch })
    | .go s => b.changeFeed i (Feed.enter b.now s)

/-- The notice of a change of feed state, where end A's report setting for OPEN is REPORT (R173). A port reset that makes a PAIRED pair
UNPAIRED brings its record to DOWN, and that change is noticed too (DESIGN CHOICE, log 80). -/
def feedNotice (b : Bridge) (i : PairNo) (old : FeedState) : Bridge :=
  if (b.feed i).state ≠ old ∧ (b.portSettings (lowerOf i)).report.openLine then
    b.notify (.feed (lowerOf i) (b.feed i).state)
  else b

/-- Concludes a change of what the ports can do since `before`: the directory, the exchange table and the delivery unit take the
report, a new feed state is sent as a notice, and what was flushed is reported not sent (R171, R174; log 12). -/
def concludeChange (b before : Bridge) (l : List Flush) : Bridge :=
  let lost := (List.finRange 4).filter fun p => before.canTransmit p && !b.canTransmit p
  let b := b.refreshReach
  let b := if lost.isEmpty then b else (b.exchangeLosses (lostBy lost)).deliveryLosses (lostBy lost)
  let b := (b.feedNotice 0 (before.feed 0).state).feedNotice 1 (before.feed 1).state
  b.reportFlush l

/-- A port takes a new state (R157, R171): the driver, the flush on leaving ACTIVE or entering OFF, the allowance on entering
ACTIVE, and the reports. -/
def changeState (b : Bridge) (p : Port) (s : PortMode) : Bridge :=
  let old := (b.mon p).state
  if s = old then b
  else
    let c := b.modMon p (Monitor.enter b.now s)
    let c := if s = .active then c.fullAllowance p else c
    let x := if old = .active ∨ s = .off then (let y := c.takeFlush p; ([y.1], y.2)) else ([], c)
    let y := x.2.follow (pairOf p)
    y.2.concludeChange b (x.1 ++ y.1)

/-- A change of a feed controller by its own event, with its reports. -/
def feedEvent (b : Bridge) (i : PairNo) (g : Feed → Feed) : Bridge :=
  let y := b.changeFeed i g
  y.2.concludeChange b y.1

/-- The feed controller is told of an OPEN that an end has detected (R176): with the other end available, a split window opens in
FEED_A or FEED_B, or takes the place of a switch window. -/
def tellOpen (b : Bridge) (p : Port) : Bridge :=
  let i := pairOf p
  let f := b.feed i
  if f.paired ∧ !f.startWait ∧ (f.state = .feedA ∨ f.state = .feedB) ∧ (b.mon (partner p)).state = .active then
    b.modFeed i fun f => { f with window := .split }
  else b

/-- The feeding end of a pair in FEED_A or FEED_B (R173). -/
def feedingEnd (b : Bridge) (i : PairNo) : Port := if (b.feed i).state = .feedB then upperOf i else lowerOf i

/-! ## Redistribution (R177) -/

/-- A frame as it is placed at another end: uncharged, with its attempts still to make (R177). -/
def CoaxFrame.fresh (f : CoaxFrame) : CoaxFrame := { f with attempts := 1, charged := false }

/-- The frames that stay on the feeding end, and those placed on the other end, each with whether it is moved (R177). -/
def splitQueue (other : Port) (l : List CoaxFrame) : List CoaxFrame × List (CoaxFrame × Bool) :=
  (l.filter fun f => f.named ≠ some other,
   l.filterMap fun f =>
     if f.named = some other then some (CoaxFrame.fresh f, true)
     else if f.named.isNone then some (CoaxFrame.fresh f, false) else none)

/-- Places frames at the tail of a queue while it has room; gives the moved frames that found it full. -/
def placeFrames (size : Nat) (q : List CoaxFrame) : List (CoaxFrame × Bool) → List CoaxFrame × List CoaxFrame
  | [] => (q, [])
  | (f, moved) :: rest =>
    if q.length < size then placeFrames size (q ++ [f]) rest
    else
      let y := placeFrames size q rest
      (y.1, if moved then f :: y.2 else y.2)

/-- Redistributes the feeding end's queues between the ends, class 0 before class 1; gives the moved frames that are not sent
(R177). -/
def redistribute (b : Bridge) (feeding other : Port) : Flush × Bridge :=
  let x := b.port feeding
  let q0 := splitQueue other x.class0
  let q1 := splitQueue other x.class1
  let r0 := placeFrames Config.class0Size (b.port other).class0 q0.2
  let r1 := placeFrames Config.class1Size (b.port other).class1 q1.2
  let b := b.modPort feeding fun x => { x with class0 := q0.1, class1 := q1.1 }
  let b := b.modPort other fun x => { x with class0 := r0.1, class1 := r1.1 }
  let freed := x.class1.length - q1.1.length
  ({ port := feeding, frames := r0.2 ++ r1.2 },
   (List.range freed).foldl (fun b _ => b.offerPlace feeding (b.port feeding).waiting) b)

/-- The split window closes: the segment enters SPLIT as one change (R176). -/
def splitNow (b : Bridge) (i : PairNo) : Bridge :=
  let feeding := b.feedingEnd i
  let y := b.changeFeed i (Feed.enter b.now .split)
  let z := y.2.redistribute feeding (partner feeding)
  (z.2.countFeed i .splits).concludeChange b (y.1 ++ [z.1])

/-! ## The pair link (R22, R23) -/

/-- The link goes DOWN: the queue, the waiting list and the pair repeat memory are emptied, LINK_LOST is counted and captured, and
the report is taken (R22, R23). R23 gives its effects no order: exchanges close and deliveries stop first, then LINK_LOST is counted,
captured and noticed, then the frames of the queue are reported and the tries of LISTED frames end (DESIGN CHOICE, log 50). -/
def linkLost (b : Bridge) : Bridge :=
  let frames := b.pair.queue
  let waiting := b.pair.waiting
  let b := b.modPair fun x =>
    { x with link := false, indication := false, waitFrom := none, queue := [], handing := none, waiting := [], repeats := [] }
  let b := b.refreshReach
  let b := (b.exchangeLosses onPair).deliveryLosses onPair
  let b := b.countCapture pairGroup .linkLost .none
  waiting.foldl listedPairFlushed (frames.foldl pairFrameLost b)

end Bridge

end Sys2Proof.Machine
end

