-- ==== Sys2Proof/Machine/Monitor.lean ====
section
/-! DEFINITION. The line monitor: latches, isolation, recovery, the termination test, echoes, the sampler, the port enable and
CLEAR-FAULTS (chapter 9). -/

namespace Sys2Proof.Machine
open Sys2Proof

/-- The LINE group counter of a fault kind (R165). -/
def faultCtr : FaultKind → Ctr
  | .short => .short
  | .openLine => .openLine
  | .jabber => .jabber
  | .lowSignal => .lowSignal

/-- The effective sampling mode: WATCH while LOW_SIGNAL is held, the setting otherwise (R167). -/
def effectiveMode (hold : FaultSet) (m : SamplingMode) : SamplingMode := if hold.lowSignal then .watch else m

/-- The sampling interval of a mode (R167). -/
def samplingInterval : SamplingMode → Time
  | .spot => Time.sec 4
  | .watch => Time.ms 64

/-- The level of an amplitude at a nominal amplitude (R168). -/
def levelOf (a nominal : Nat) : Nat := min 15 (8 * a / nominal)

/-- The history with a level added: the oldest of 8 goes first (R168). -/
def addLevel (h : List Nat) (level : Nat) : List Nat := (if h.length < 8 then h else h.drop 1) ++ [level]

/-- The smoothed level; none for an empty history (R168). -/
def smoothed (h : List Nat) : Option Nat := if h.isEmpty then none else some (h.sum / h.length)

/-- Whether an echo is above threshold: it exceeds one quarter of the nominal amplitude (R164). -/
def echoHigh (a nominal : Nat) : Bool := nominal < 4 * a

/-- The sampler starts: the first sample is due one interval from now, and bursts that have ended before do not count (R167; log 34).
One still on the wire counts, though its preamble was complete before (DESIGN CHOICE, log 78). -/
def Monitor.startSampler (now : Time) (m : SamplingMode) (x : Monitor) : Monitor :=
  { x with mode := effectiveMode x.hold m, lastSample := now, lastAmp := none }

/-- A cause put into the hold set: with JABBER its quiet time is 0 and counts from the end of the carrier; with LOW_SIGNAL the
mode is WATCH (R157, R163, R167). -/
def Monitor.holds (k : FaultKind) (m : SamplingMode) (x : Monitor) : Monitor :=
  let hold := FaultSet.put x.hold k true
  { x with hold, jabberFrom := if k = .jabber then none else x.jabberFrom, mode := effectiveMode hold m }

/-- A cause taken out of the hold set (R156). When JABBER leaves it, the jabber quiet time reads 0 (DESIGN CHOICE, log 72). -/
def Monitor.releases (k : FaultKind) (m : SamplingMode) (x : Monitor) : Monitor :=
  let hold := FaultSet.put x.hold k false
  { x with hold, jabberFrom := if k = .jabber then none else x.jabberFrom, mode := effectiveMode hold m }

namespace Bridge

/-- Isolates a port with a cause (R157). -/
def isolate (b : Bridge) (p : Port) (k : FaultKind) : Bridge :=
  (b.modMon p (Monitor.holds k (b.portSettings p).sampling)).changeState p .isolated

/-- Latches a fault kind; the kind newly latched is captured in the LINE group (R165). -/
def latch (b : Bridge) (p : Port) (k : FaultKind) : Bridge :=
  if (b.mon p).latched.has k then b
  else
    (b.modMon p fun m => { m with latched := FaultSet.put m.latched k true }).capture (lineGroup p) (faultCtr k) (.fault p k)

/-- A detection of a fault: counted, latched, answered as its response says; a new latch whose report setting is REPORT sends a
notice with the state that results (R165; log 20). -/
def detect (b : Bridge) (p : Port) (k : FaultKind) (response : Bridge → Bridge) : Bridge :=
  let fresh := !(b.mon p).latched.has k
  let b := response ((b.countLine p (faultCtr k)).latch p k)
  if fresh && (b.portSettings p).report.has k then b.notify (.fault p k (b.mon p).state) else b

/-- Recovery notices for causes that have left the hold set (R165). -/
def recoveries (b : Bridge) (p : Port) (l : List FaultKind) : Bridge :=
  l.foldl (fun b k => if (b.portSettings p).report.has k then b.notify (.recovery p k (b.mon p).state) else b) b

/-- Causes leave the hold set by recovery or CLEAR-FAULTS; an empty hold set lets the port leave ISOLATED (R156). -/
def leaveHold (b : Bridge) (p : Port) (l : List FaultKind) : Bridge :=
  let b := l.foldl (fun b k => b.modMon p (Monitor.releases k (b.portSettings p).sampling)) b
  let m := b.mon p
  let b := if m.state = .isolated ∧ m.hold.isEmpty then
      b.changeState p (if m.testOwed then .testing else .active)
    else b
  b.recoveries p l

/-! ## The termination test (R160, R161) -/

/-- A test of a paired end that has found OPEN during the start-up wait is remembered (R180). -/
def noteOpenInWait (b : Bridge) (p : Port) : Bridge :=
  b.modFeed (pairOf p) fun f => if f.paired ∧ f.startWait then { f with openInWait := true } else f

/-- Whether a paired port's other end is ACTIVE. -/
def partnerActive (b : Bridge) (p : Port) : Bool := b.paired p && (b.mon (partner p)).state = .active

/-- What an OPEN result of a test does to the port (R160): with the other end ACTIVE the end becomes ACTIVE and the feed
controller is told. -/
def testOpen (b : Bridge) (p : Port) : Bridge :=
  if b.partnerActive p then (b.changeState p .active).tellOpen p
  else if (b.portSettings p).openResponse = .isolate then b.isolate p .openLine
  else b.changeState p .active

/-- A termination test reaches a result (R160). -/
def testResult (b : Bridge) (p : Port) (r : TestResult) : Bridge :=
  let b := b.modMon p fun m => { m with testOwed := false }
  match r with
  | .good => b.changeState p .active
  | .short => b.detect p .short (·.isolate p .short)
  | .openLine => (b.noteOpenInWait p).detect p .openLine (·.testOpen p)

/-- A run is interrupted by foreign carrier (R161). -/
def interruptTest (b : Bridge) (p : Port) : Bridge :=
  if (b.mon p).restarts < 5 then b.modMon p fun m => { m with restarts := m.restarts + 1, runFrom := none }
  else
    ((b.modMon p fun m => { m with testOwed := false }).countCapture (lineGroup p) .testInconclusive (.port p)).changeState p
      .active

/-! ## Echoes (R164) -/

/-- What an OPEN detection by echo does: the feeding end of a pair whose other end is ACTIVE stays ACTIVE and the feed controller
is told; otherwise the OPEN response applies. -/
def echoOpen (b : Bridge) (p : Port) : Bridge :=
  if b.partnerActive p && b.canTransmit p then b.tellOpen p
  else if (b.portSettings p).openResponse = .isolate then b.isolate p .openLine
  else b

/-- Whether a port is an end of a pair in SPLIT, where echo counts are held at 0. -/
def inSplit (b : Bridge) (p : Port) : Bool := b.paired p && (b.feed (pairOf p)).state = .split

/-- The echo of an own transmission is measured (R164). -/
def measureEcho (b : Bridge) (p : Port) (a : Nat) : Bridge :=
  let b := b.modMon p fun m => { m with echoDue := false }
  if b.inSplit p then b.modMon p fun m => { m with echo := 0 }
  else if echoHigh a (b.portSettings p).nominal then
    if (b.mon p).echo < 2 then b.modMon p fun m => { m with echo := m.echo + 1 }
    else (b.modMon p fun m => { m with echo := 0 }).detect p .openLine (·.echoOpen p)
  else b.modMon p fun m => { m with echo := 0 }

/-! ## The sampler (R167 to R170) -/

/-- LOW_SIGNAL is detected at the fourth level 0 in a row (R169). Where CLEAR-FAULTS has taken it from the latched set while it is still
held, it is latched, captured and noticed again (R165; DESIGN CHOICE, log 59). -/
def lowSignal (b : Bridge) (p : Port) : Bridge :=
  (b.modMon p fun m => { m with lowRun := 0 }).detect p .lowSignal fun b =>
    if (b.portSettings p).lowResponse = .isolate then b.isolate p .lowSignal else b

/-- What a level does to the low-level run count and to LOW_SIGNAL in the hold set (R169). -/
def runCount (b : Bridge) (p : Port) (level : Nat) : Bridge :=
  if level = 0 then
    if 3 ≤ (b.mon p).lowRun then b.lowSignal p else b.modMon p fun m => { m with lowRun := m.lowRun + 1 }
  else
    let b := b.modMon p fun m => { m with lowRun := 0 }
    if 2 ≤ level ∧ (b.mon p).hold.lowSignal then b.leaveHold p [.lowSignal] else b

/-- What a smoothed level does to the DEGRADED flag (R170). -/
def degradedFlag (b : Bridge) (p : Port) : Bridge :=
  match smoothed (b.mon p).history with
  | some s =>
    if s ≤ 3 ∧ !(b.mon p).degraded then
      let b := (b.modMon p fun m => { m with degraded := true }).countLine p .degraded
      if (b.portSettings p).report.lowSignal then b.notify (.degraded p (b.mon p).state) else b
    else if 5 ≤ s ∧ (b.mon p).degraded then b.modMon p fun m => { m with degraded := false }
    else b
  | none => b

/-- The amplitude of a burst on the wire whose preamble is complete and has not been taken by an earlier sample (R167; log 34). -/
def wireAmplitude (b : Bridge) (p : Port) (onWire : Option Nat) : Option Nat :=
  match (b.port p).carrier with
  | some c => if !c.sampled ∧ c.start + Config.preambleTime ≤ b.now then onWire else none
  | none => none

/-- Marks the burst on the wire whose amplitude a sample has taken. -/
def markSampled (b : Bridge) (p : Port) : Bridge :=
  b.modPort p fun x => { x with carrier := x.carrier.map fun c => { c with sampled := true } }

/-- A sample is taken at this moment: skipped, or one level into the history (R167, R168). The most recent burst is the one on the
wire, if its preamble is complete, and otherwise the last one that has ended. What R169 makes of the level comes before the DEGRADED flag,
whose notice carries the state it leaves (DESIGN CHOICE, log 60). -/
def takeSample (b : Bridge) (p : Port) (onWire : Option Nat) : Bridge :=
  let w := b.wireAmplitude p onWire
  let a := w <|> (b.mon p).lastAmp
  let b := if w.isSome then b.markSampled p else b
  let b := b.modMon p fun m => { m with lastAmp := none, lastSample := b.now }
  match a with
  | some a =>
    let level := levelOf a (b.portSettings p).nominal
    ((b.modMon p fun m => { m with history := addLevel m.history level }).runCount p level).degradedFlag p
  | none => b

/-! ## Management (R159, R166) -/

/-- The port enable goes from ON to OFF (R159). -/
def disablePort (b : Bridge) (p : Port) : Bridge :=
  (b.modMon p fun m =>
    { m with hold := {}, testOwed := false, restarts := 0, echo := 0, jabberFrom := none, lowRun := 0,
             mode := (b.portSettings p).sampling }).changeState p .off

/-- The port enable goes from OFF to ON (R159). -/
def enablePort (b : Bridge) (p : Port) : Bridge :=
  (b.modMon p fun m => Monitor.startSampler b.now (b.portSettings p).sampling { m with testOwed := true }).changeState p
    .testing

/-- CLEAR-FAULTS carried out (R166): of two causes that leave the hold set together, SHORT is noticed before OPEN (DESIGN CHOICE, log
61). -/
def clearFaults (b : Bridge) (p : Port) (kinds : FaultSet) : Bridge :=
  let b := b.modMon p fun m => { m with latched := faultKinds.foldl (fun s k => if kinds.has k then FaultSet.put s k false else s)
                                                     m.latched }
  let removed := [FaultKind.short, .openLine].filter fun k => kinds.has k && (b.mon p).hold.has k
  if removed.isEmpty then b else (b.modMon p fun m => { m with testOwed := true }).leaveHold p removed

end Bridge

end Sys2Proof.Machine
end

