-- ==== Sys2Proof/Machine/Plan.lean ====
section
/-! DEFINITION. The plan: the staging area, the trial and its checks C1 to C7, and what an applied commit does (chapter 4). -/

namespace Sys2Proof

/-- The logical printer or directory entry an edit concerns: at most one edit waits for each (R66). -/
def Edit.sameItem : Edit → Edit → Bool
  | .entry m _, .entry n _ => m = n
  | .printer m _, .printer n _ => m = n
  | _, _ => false

/-- Puts an edit into the staging area: in the place of the pending edit of its item, or at the end (R66). -/
def stageEdit (x : Edit) : List Edit → List Edit
  | [] => [x]
  | y :: ys => if x.sameItem y then x :: ys else y :: stageEdit x ys

/-- Whether the fields of an EDIT-ENTRY are in range, and present and absent as their home requires (R67). -/
def PlanFields.ok (f : PlanFields) : Bool :=
  let inRange := fun n : Nat => 1 ≤ n && n ≤ 254
  f.visible.all inRange && match f.home with
    | .port _ => f.number.any inRange && f.mac.isNone && f.order.isNone
    | .pair => f.number.isNone && f.mac.any (fun m => !isGroup m) && f.order.isSome
    | .internal => f.number.isNone && f.mac.isNone && f.order.isNone

/-- The home that an edit's fields write (R67). -/
def PlanFields.toHome (f : PlanFields) : Home :=
  match f.home with
  | .port p => .seg p (f.number.getD 0)
  | .pair => .pair (f.mac.getD 0) (f.order.getD .asSent)
  | .internal => .internal

/-- Whether two homes are the same port and number, or the same MAC, whatever the order (R67, R73). -/
def Home.same : Home → Home → Bool
  | .seg p m, .seg q n => p = q && m = n
  | .pair k _, .pair l _ => k = l
  | .internal, .internal => true
  | _, _ => false

/-- The segment port of a home. -/
def Home.port? : Home → Option Port
  | .seg p _ => some p
  | _ => none

/-- The MAC of a home. -/
def Home.mac? : Home → Option Mac
  | .pair m _ => some m
  | _ => none

/-- Whether an edit that writes LEARNED finds its entry LEARNED with the same kind and home (R67, R70). -/
def learnedAsEdited (e : Option Entry) (f : PlanFields) : Bool :=
  e.any fun e => e.state = .learned && e.kind = f.kind && e.home.same f.toHome

/-- Whether a pending edit has become unusable, or could not be staged: its entry is RETIRING, or is no longer LEARNED as the edit
writes it (R67, R70). -/
def editStale (e : Option Entry) : EntryEdit → Bool
  | .delete => e.any (·.state = .retiring)
  | .fields f => e.any (·.state = .retiring) || (f.state = .learned && !learnedAsEdited e f)

/-- The end of an entry written with a home: UNKNOWN when newly homed on the lower port of a paired segment, kept when the home
port does not change, absent elsewhere (R73). -/
def writtenEnd (lowerPaired : Port → Bool) (old : Option Entry) (h : Home) : Option EndField :=
  match h with
  | .seg p _ =>
    if lowerPaired p then
      match old.bind fun e => if e.home.port? = some p then e.endField else none with
      | some x => some x
      | none => some .unknown
    else none
  | _ => none

/-- The entry that a field edit writes (R73); its reach stands until it is recomputed at the end of the commit. -/
def writeEntry (lowerPaired : Port → Bool) (old : Option Entry) (f : PlanFields) : Entry :=
  let h := f.toHome
  { state := (match f.state with | .fixed => .fixed | .learned => .learned),
    kind := f.kind, home := h, endField := writtenEnd lowerPaired old h, visible := f.visible, shown := f.shown,
    rights := f.rights,
    age := (match f.state with | .fixed => 0 | .learned => (old.map (·.age)).getD 0),
    pins := (old.map (·.pins)).getD 0, reachable := old.any (·.reachable),
    bridgeBit := (match h with | .seg _ _ => old.any fun e => e.home.same h && e.bridgeBit | _ => false) }

/-- A plan as the checks of R71 examine it: entries and the bindings of the logical printers. -/
structure Plan where
  entries : Entries
  bindings : Vector Binding 8
  deriving DecidableEq, Repr

/-- An edit applied to a trial copy (R70). -/
def Plan.apply (lowerPaired : Port → Bool) (t : Plan) : Edit → Plan
  | .entry n .delete =>
    match Machine.look n t.entries with
    | some e =>
      if e.pins = 0 then { t with entries := Machine.drop n t.entries }
      else { t with entries := Machine.put n { e with state := .retiring, rights := {} } t.entries }
    | none => t
  | .entry n (.fields f) => { t with entries := Machine.put n (writeEntry lowerPaired (Machine.look n t.entries) f) t.entries }
  | .printer n b => { t with bindings := Machine.lpOf n |>.elim t.bindings fun l => t.bindings.set l b }

/-! ## The checks (R71) -/

/-- The first pair of listed entries that a relation holds of, by the lower and then the higher number. -/
def firstPair (r : Entry → Entry → Bool) : Entries → Option (Nat × Nat)
  | [] => none
  | (m, e) :: rest =>
    match rest.find? fun x => r e x.2 with
    | some x => some (m, x.1)
    | none => firstPair r rest

/-- Whether an entry is present on a segment under a number by either case of R42, as C1 counts home and visible numbers alike. -/
def presentUnder (e : Entry) (s : Port) (n : Nat) : Bool :=
  e.state ≠ .retiring && (e.home = .seg s n || (e.shown[s] && !e.withdrawn[s] && e.visible = some n))

/-- C1: two entries present on a segment under the same number. -/
def checkC1 (segments : List Port) (es : Entries) : Option CheckFailure :=
  segments.findSome? fun s =>
    (List.range' 1 254).findSome? fun n =>
      match es.filter fun x => presentUnder x.2 s n with
      | x :: y :: _ => some { check := 1, segment := s.val, number := n, first := x.1, second := y.1 }
      | _ => none

/-- The first entry, LEARNED or FIXED, that a check fails. -/
def firstEntry (check : Nat) (bad : Entry → Bool) (es : Entries) : Option CheckFailure :=
  (es.find? fun x => x.2.state ≠ .retiring && bad x.2).map fun x => { check, first := x.1 }

/-- C2: a visible number without a shown set, or a shown set without a visible number. -/
def checkC2 (es : Entries) : Option CheckFailure := firstEntry 2 (fun e => e.visible.isSome = PortSet.isEmpty e.shown) es

/-- C3: an entry shown on its own home port. -/
def checkC3 (es : Entries) : Option CheckFailure :=
  firstEntry 3 (fun e => match e.home with | .seg p _ => e.shown[p] | _ => false) es

/-- C4: two entries share a home port and number; or, RETIRING ones counted, a MAC. -/
def checkC4 (es : Entries) : Option CheckFailure :=
  (firstPair (fun e f => match e.home, f.home with
    | .seg p m, .seg q n => p = q && m = n && e.state ≠ .retiring && f.state ≠ .retiring
    | .pair k _, .pair l _ => k = l
    | _, _ => false) es).map fun x => { check := 4, first := x.1, second := x.2 }

/-- Whether a number names a FIXED PRINTER (C5). -/
def fixedPrinter (es : Entries) (n : DirNo) : Bool :=
  (Machine.look n es).any fun e => e.state = .fixed && e.kind = .printer

/-- The number for which a binding fails C5: that of its primary where primary and alternate both fail, on which R71 is silent (DESIGN
CHOICE, log 63). -/
def badBinding (es : Entries) (b : Binding) : Option DirNo :=
  match b.primary, b.alternate with
  | some p, _ =>
    if !fixedPrinter es p then some p
    else
      match b.alternate with
      | some a => if !fixedPrinter es a || a = p then some a else none
      | none => none
  | none, some a => some a
  | none, none => none

/-- Whether an entry fails C5: a PRINTER that is LEARNED or has a visible number. -/
def badPrinter (e : Entry) : Bool :=
  e.state ≠ .retiring && e.kind = .printer && (e.state = .learned || e.visible.isSome)

/-- C5: a PRINTER that is LEARNED or visible, or a binding that does not name FIXED PRINTERs rightly; entries and logical printers
in one order of directory number (R71; log 39). -/
def checkC5 (t : Plan) : Option CheckFailure :=
  (List.range' 1 384).findSome? fun n =>
    if (Machine.look n t.entries).any badPrinter then some { check := 5, first := n }
    else
      (Machine.lpOf n).bind fun l =>
        (badBinding t.entries t.bindings[l]).map fun m => { check := 5, first := n, second := m }

/-- Whether entries 1 to 9 and the others are what C6 demands under a number. -/
def reservedOk (n : Nat) (e : Option Entry) : Bool :=
  if n = 1 then
    e.any fun e => e.state = .fixed && e.kind = .bridge && e.home = .internal && e.visible.isSome && e.shown = PortSet.all
      && e.rights = {}
  else if n ≤ 9 then e.any fun e => e.state = .fixed && e.kind = .spool && e.home = .internal && e.rights = {}
  else e.all fun e => e.state = .retiring || (e.kind ≠ .bridge && e.kind ≠ .spool && e.home ≠ .internal)

/-- C6: the reserved entries and the kinds kept for them. -/
def checkC6 (es : Entries) : Option CheckFailure :=
  ((List.range' 1 384).find? fun n => !reservedOk n (Machine.look n es)).map fun n => { check := 6, first := n }

/-- C7: rights on an entry that is not FIXED. -/
def checkC7 (es : Entries) : Option CheckFailure := firstEntry 7 (fun e => e.state ≠ .fixed && e.rights ≠ {}) es

/-- The first failure of the checks, in their order (R71, R72). -/
def Plan.check (segments : List Port) (t : Plan) : Option CheckFailure :=
  checkC1 segments t.entries <|> checkC2 t.entries <|> checkC3 t.entries <|> checkC4 t.entries <|> checkC5 t
    <|> checkC6 t.entries <|> checkC7 t.entries

end Sys2Proof

namespace Sys2Proof.Machine
open Sys2Proof

namespace Bridge

/-- Whether a port is the lower port of a paired segment, by the pairing in effect. -/
def lowerPaired (b : Bridge) (p : Port) : Bool := b.paired p && p = lowerOf (pairOf p)

/-! ## Staging (R66 to R69) -/

/-- Stages an edit (R66): FULL, or OK with the count of pending edits and whether it replaced one. -/
def stage (b : Bridge) (x : Edit) : Result × AnswerBody × Bridge :=
  let replaced := b.dir.staging.any x.sameItem
  if !replaced && Config.stagingSize ≤ b.dir.staging.length then (.full, .none, b)
  else
    let b := b.modDir fun d => { d with staging := stageEdit x d.staging }
    (.ok, .staged b.dir.staging.length replaced, b)

/-- EDIT-ENTRY (R67). -/
def editEntry (b : Bridge) (selector : Nat) (edit : EntryEdit) : Result × AnswerBody × Bridge :=
  let malformed : Bool := match edit with
    | .delete => false
    | .fields f => !f.ok
  if selector < 1 ∨ 384 < selector ∨ malformed = true then (.malformed, .none, b)
  else if editStale (b.entry selector) edit || (edit = .delete && (b.entry selector).isNone) then (.notFound, .none, b)
  else b.stage (.entry selector edit)

/-- EDIT-PRINTER (R68): a pace above 16 is clamped. -/
def editPrinter (b : Bridge) (selector : Nat) (x : Binding) : Result × AnswerBody × Bridge :=
  let bad := fun n : Nat => n < 1 || 384 < n
  if selector < 2 ∨ 9 < selector ∨ x.primary.any bad ∨ x.alternate.any bad then (.malformed, .none, b)
  else b.stage (.printer selector { x with pace := min 16 x.pace })

/-- DISCARD-EDITS (R69). -/
def discardEdits (b : Bridge) : Result × AnswerBody × Bridge :=
  (.ok, .discarded b.dir.staging.length, b.modDir fun d => { d with staging := [] })

/-! ## Applying (R73 to R77) -/

/-- Whether an edit changes the kind or home of the entry it writes (R75). -/
def movesPrinter (b : Bridge) : Edit → Option DirNo
  | .entry n (.fields f) =>
    match b.entry n with
    | some e => if e.kind ≠ f.kind || !e.home.same f.toHome then some n else none
    | none => none
  | _ => none

/-- Stops the deliveries to printers that an edit moves (R75), in the order of the staging area (DESIGN CHOICE, log 54). -/
def stopMoved (b : Bridge) (l : List Edit) : Bridge :=
  (l.filterMap b.movesPrinter).foldl
    (fun b n => match b.lpDelivering n with
      | some x => b.stopQuiet x
      | none => b) b

/-- The physical printer record of an entry that has been written: made for one that becomes a PRINTER, removed from one that
stops being one (R73, R138). -/
def followPrinter (b : Bridge) (n : DirNo) (k : EntryKind) : Bridge :=
  b.modDelivery fun u =>
    if k = .printer then { u with printers := if (look n u.printers).isSome then u.printers else put n {} u.printers }
    else { u with printers := drop n u.printers }

/-- The tally of an applied commit: entries freed and made RETIRING (R70), and the presences of local entries that have gone, by
directory number (R74). -/
structure Tally where
  freed : Nat := 0
  retiring : Nat := 0
  gone : List (Nat × List (Port × Nat)) := []
  deriving DecidableEq, Repr

/-- Applies one edit (R73, R74, R76), but for the lifting of withdrawals. The entries freed are those that a DELETE of this commit frees
itself (R70; DESIGN CHOICE, log 55). -/
def applyEdit (y : Tally × Bridge) : Edit → Tally × Bridge
  | .entry n .delete =>
    match y.2.entry n with
    | some e =>
      let gone := put n (y.2.presences e) y.1.gone
      if e.pins = 0 then ({ y.1 with freed := y.1.freed + 1, gone }, y.2.freeQuiet n)
      else ({ y.1 with retiring := y.1.retiring + 1, gone }, y.2.retireQuiet n)
    | none => y
  | .entry n (.fields f) =>
    let old := y.2.entry n
    let gone := match old with
      | some e => if e.home.same f.toHome then y.1.gone else put n (y.2.presences e) y.1.gone
      | none => y.1.gone
    ({ y.1 with gone },
     (y.2.modEntries (put n (writeEntry y.2.lowerPaired old f))).followPrinter n f.kind)
  | .printer n x =>
    match lpOf n with
    | some l =>
      (y.1, y.2.modLp l fun r =>
        { r with binding := x,
                 active := if x.primary = r.binding.primary ∧ x.alternate = r.binding.alternate then r.active else .primary })
    | none => y

/-- The setup state ends when some FIXED entry holds MANAGE (R77, R182). -/
def endSetup (b : Bridge) : Bridge :=
  if b.dir.entries.any fun x => x.2.state = .fixed && x.2.rights.manage then b.modAgent fun a => { a with setup := false } else b

/-- Applies every pending edit as a single change (R73 to R77). The deliveries to printers it moves are stopped before the first edit is
applied (DESIGN CHOICE, log 47). -/
def applyCommit (b : Bridge) : Tally × Bridge :=
  let edits := b.dir.staging
  let y := edits.foldl applyEdit ({}, b.stopMoved edits)
  let b := y.1.gone.foldl (fun b x => b.liftAll x.2) y.2
  (y.1, ((b.modDir fun d => { d with staging := [] }).refreshReach).endSetup)

/-- The lowest directory number of a stale pending edit (R70). -/
def staleEdit (b : Bridge) : Option DirNo :=
  (b.dir.staging.filterMap fun x => match x with
    | .entry n e => if editStale (b.entry n) e then some n else none
    | .printer _ _ => none).min?

/-- The plan as it stands. -/
def plan (b : Bridge) : Plan := { entries := b.dir.entries, bindings := b.spool.lps.map (·.binding) }

/-- The trial copy of a COMMIT (R70). -/
def trial (b : Bridge) : Plan := b.dir.staging.foldl (Plan.apply b.lowerPaired) b.plan

/-- COMMIT (R70). Every pending edit counts as applied, a DELETE of an entry that has become FREE too (DESIGN CHOICE, log 46). -/
def commit (b : Bridge) : Result × AnswerBody × Bridge :=
  if b.agent.saveState = .running then (.busy, .none, b)
  else if b.dir.staging.isEmpty then (.ok, .committed 0 0 0, b)
  else
    match b.staleEdit with
    | some n => (.notFound, .stale n, b)
    | none =>
      match b.trial.check b.segments with
      | some f => (.checkFailed, .checkFailed f, b)
      | none =>
        let y := b.applyCommit
        (.ok, .committed b.dir.staging.length y.1.freed y.1.retiring, y.2)

end Bridge

end Sys2Proof.Machine
end

