-- ==== Sys2Proof/Machine/Settings.lean ====
section
/-! DEFINITION. The settings: identifiers, ranges and clamps, reading, writing, and the effect of a change (R184). -/

namespace Sys2Proof

/-- A number brought into a range (section 0.4: clamping). -/
def clampTo (lo hi n : Nat) : Nat := max lo (min hi n)

/-- Whether a setting identifier names a per-port setting or the pairing, whose selector must be a port (R184). -/
def perPort (id : Nat) : Bool :=
  id = 5 || id = 6 || id = 10 || id = 12 || id = 13 || (17 ≤ id && id ≤ 27)

/-- Whether a notice destination may be set: absent, or 10 to 384 (R184, R187). -/
def destinationOk (n : Option DirNo) : Bool := n.all fun n => 10 ≤ n && n ≤ 384

namespace Settings

/-- A change of one port's settings. -/
def modPort (s : Settings) (p : Port) (f : PortSettings → PortSettings) : Settings := { s with port := s.port.set p (f s.port[p]) }

/-- A change of the report setting of one fault kind. -/
def modReport (s : Settings) (p : Port) (k : FaultKind) (on : Bool) : Settings :=
  s.modPort p fun x => { x with report := FaultSet.put x.report k on }

/-- The settings with a value stored under an identifier: clamped numbers, and none where the identifier is unknown, the value is
not of the setting's kind, or its table refuses it (R184). -/
def store (s : Settings) (p : Port) (id : Nat) (v : SettingValue) : Option Settings :=
  match id, v with
  | 1, .number n => some { s with carrierType := clampTo 0x0600 0xFFFF n }
  | 2, .mac m => if isGroup m then none else some { s with pairAddress := m }
  | 3, .onOff x => some { s with pairLearning := x }
  | 4, .order x => some { s with pairOrder := x }
  | 5, .onOff x => some (s.modPort p fun y => { y with learning := x })
  | 6, .onOff x => some (s.modPort p fun y => { y with autoShow := x })
  | 7, .ports x => some { s with autoShowSet := x }
  | 8, .number n => some { s with ageingPeriod := clampTo 10 600 n }
  | 9, .number n => some { s with ageLimit := clampTo 1 255 n }
  | 10, .broadcast x => some (s.modPort p fun y => { y with broadcast := x })
  | 11, .ports x => some { s with pairBroadcast := x }
  | 12, .number n => some (s.modPort p fun y => { y with share := clampTo 5 90 n })
  | 13, .number n => some (s.modPort p fun y => { y with cap := clampTo 521 8191 n })
  | 14, .number n => some { s with exchangeTimeout := clampTo 1 255 n }
  | 15, .number n => some { s with stallTimeout := clampTo 5 255 n }
  | 16, .number n => some { s with pauseLimit := clampTo 0 60 n }
  | 17, .onOff x => some (s.modPort p fun y => { y with enable := x })
  | 18, .response x => some (s.modPort p fun y => { y with openResponse := x })
  | 19, .response x => some (s.modPort p fun y => { y with lowResponse := x })
  | 20, .report x => some (s.modReport p .short x)
  | 21, .report x => some (s.modReport p .openLine x)
  | 22, .report x => some (s.modReport p .jabber x)
  | 23, .report x => some (s.modReport p .lowSignal x)
  | 24, .number n => some (s.modPort p fun y => { y with deglitch := clampTo 10 80 n })
  | 25, .number n => some (s.modPort p fun y => { y with nominal := clampTo 200 2000 n })
  | 26, .sampling x => some (s.modPort p fun y => { y with sampling := x })
  | 27, .pairing x => some { s with pairing := s.pairing.set (Machine.pairOf p) x }
  | 28, .destination x => if destinationOk x then some { s with notice1 := x } else none
  | 29, .destination x => if destinationOk x then some { s with notice2 := x } else none
  | _, _ => none

/-- The stored value under an identifier (R183). -/
def fetch (s : Settings) (p : Port) (id : Nat) : Option SettingValue :=
  match id with
  | 1 => some (.number s.carrierType)
  | 2 => some (.mac s.pairAddress)
  | 3 => some (.onOff s.pairLearning)
  | 4 => some (.order s.pairOrder)
  | 5 => some (.onOff s.port[p].learning)
  | 6 => some (.onOff s.port[p].autoShow)
  | 7 => some (.ports s.autoShowSet)
  | 8 => some (.number s.ageingPeriod)
  | 9 => some (.number s.ageLimit)
  | 10 => some (.broadcast s.port[p].broadcast)
  | 11 => some (.ports s.pairBroadcast)
  | 12 => some (.number s.port[p].share)
  | 13 => some (.number s.port[p].cap)
  | 14 => some (.number s.exchangeTimeout)
  | 15 => some (.number s.stallTimeout)
  | 16 => some (.number s.pauseLimit)
  | 17 => some (.onOff s.port[p].enable)
  | 18 => some (.response s.port[p].openResponse)
  | 19 => some (.response s.port[p].lowResponse)
  | 20 => some (.report s.port[p].report.short)
  | 21 => some (.report s.port[p].report.openLine)
  | 22 => some (.report s.port[p].report.jabber)
  | 23 => some (.report s.port[p].report.lowSignal)
  | 24 => some (.number s.port[p].deglitch)
  | 25 => some (.number s.port[p].nominal)
  | 26 => some (.sampling s.port[p].sampling)
  | 27 => some (.pairing s.pairing[Machine.pairOf p])
  | 28 => some (.destination s.notice1)
  | 29 => some (.destination s.notice2)
  | _ => none

end Settings

end Sys2Proof

namespace Sys2Proof.Machine
open Sys2Proof

/-- The port a selector names, 0 to 3. -/
def portOf (n : Nat) : Option Port := if h : n < 4 then some ⟨n, h⟩ else none

/-- The port a SET-SETTING's selector gives: the port itself for a per-port setting, ignored otherwise (R184). -/
def settingPort (selector id : Nat) : Option Port := if perPort id then portOf selector else some 0

namespace Bridge

/-- The effect at once of a setting that has changed: the cap (R99), the sampling mode (R167), and the port enable (R159). The other
settings are read where their rules use them. -/
def settingChanged (b : Bridge) (p : Port) (old new : PortSettings) : Bridge :=
  let b := b.modPort p fun x => { x with allowance := min x.allowance new.cap }
  let b := b.modMon p fun m => { m with mode := effectiveMode m.hold new.sampling }
  if old.enable = new.enable then b else if new.enable then b.enablePort p else b.disablePort p

/-- SET-SETTING (R184). -/
def setSetting (b : Bridge) (selector id : Nat) (v : SettingValue) : Result × AnswerBody × Bridge :=
  match settingPort selector id with
  | none => (.malformed, .none, b)
  | some p =>
    match b.settings.store p id v with
    | none => (.malformed, .none, b)
    | some s =>
      let body := match s.fetch p id with
        | some x => AnswerBody.setting x
        | none => .none
      (.ok, body, (b.setSettings s).settingChanged p (b.portSettings p) s.port[p])

/-- READ-SETTING: a selector above 3 is MALFORMED whatever the setting (R183). One from 1 to 3 lies in the range of R183 and is answered
for a setting that is not of a port too (DESIGN CHOICE, log 74). An unknown identifier is MALFORMED, as R184 has it for SET-SETTING
(DESIGN CHOICE, log 81). -/
def readSetting (b : Bridge) (selector id : Nat) : Result × AnswerBody × Bridge :=
  match (portOf selector).bind fun p => b.settings.fetch p id with
  | some v => (.ok, .setting v, b)
  | none => (.malformed, .none, b)

end Bridge

end Sys2Proof.Machine
end

