-- ==== Sys2Proof/Machine/Management.lean ====
section
/-! DEFINITION. The management agent: rights, form, the twenty requests, their answers, SAVE and the arming of a reset
(chapter 11). -/

namespace Sys2Proof

/-- The arrival side of an asker, for the rights of the setup state (R181). -/
def Asker.onPair : Asker → Bool
  | .coax _ _ _ _ _ => false
  | .pair _ _ _ _ _ => true

/-- An asker's source entry. -/
def Asker.entry : Asker → Option DirNo
  | .coax _ _ _ _ e => e
  | .pair _ _ _ _ e => e

/-- What a carried-out request does beyond its answer: nothing, or the arming of a reset (R190). -/
inductive AfterAnswer | none | arm (k : Machine.ArmedReset)
  deriving DecidableEq, Repr

end Sys2Proof

namespace Sys2Proof.Machine
open Sys2Proof

namespace Bridge

/-- Whether a requester may manage (R181): a FIXED entry holding MANAGE, or any pair-side source in the setup state. -/
def mayManage (b : Bridge) (a : Asker) : Bool :=
  (a.entry.any fun n => (b.entry n).any fun e => e.state = .fixed && e.rights.manage) || (b.agent.setup && a.onPair)

/-! ## Reads -/

/-- READ-STATUS (R183). -/
def statusRead (b : Bridge) : StatusRead :=
  { cause := b.ctl.cause, setup := b.agent.setup, load := b.agent.loadResult, save := b.agent.saveState,
    lastSave := b.agent.lastSave, seconds := b.seconds, entriesInUse := b.dir.entries.length,
    pendingEdits := b.dir.staging.length, fault := b.reporting.fault, answerLost := b.agent.answerLost,
    noticeDropped := b.reporting.noticeDropped }

/-- The jabber quiet time as counted, 0 to 500 ms (R155, R163). -/
def jabberQuiet (b : Bridge) (p : Port) : Nat :=
  match (b.mon p).jabberFrom with
  | some t => min 500 ((b.now - t) / Time.ms 1)
  | none => 0

/-- The feed controller's part of READ-PORT, for the lower port of a PAIRED pair (R173, R183). -/
def feedRead (b : Bridge) (p : Port) : Option FeedRead :=
  if b.lowerPaired p then
    let f := b.feed (pairOf p)
    some { state := f.state, window := f.window, counters := f.counters,
           probeTimer := match f.probeFrom with
             | some t => min Config.probeTime (b.now - t)
             | none => 0 }
  else none

/-- READ-PORT (R171, R183). -/
def portRead (b : Bridge) (p : Port) : PortRead :=
  let m := b.mon p
  { state := m.state, hold := m.hold, latched := m.latched, testOwed := m.testOwed, restarts := m.restarts, echo := m.echo,
    lowRun := m.lowRun, jabberQuiet := b.jabberQuiet p, history := m.history, smoothed := smoothed m.history,
    degraded := m.degraded, mode := m.mode, allowance := (b.port p).allowance, remainder := (b.port p).remainder,
    counters := (b.group (lineGroup p)).counters, feed := b.feedRead p }

/-- READ-SPOOL (R183). -/
def spoolRead (b : Bridge) (selector : Nat) : Result × AnswerBody :=
  let body := fun l => AnswerBody.spool b.spool.freeList.length b.spool.jobs.length l
  if selector = 0 then (.ok, body none)
  else
    match lpOf selector with
    | some l => (.ok, body (some (b.lp l)))
    | none => (.malformed, .none)

/-- READ-JOB (R183). -/
def jobRead (b : Bridge) (selector : Nat) : Result × AnswerBody :=
  if selector < 1 ∨ 65535 < selector then (.malformed, .none)
  else
    match b.job selector with
    | some j => (.ok, .job j)
    | none => (.notFound, .none)

/-- A printer's poll timer as it stands, 0 to 2 s, while it runs (R138). -/
def pollTimer (b : Bridge) (r : Printer) : Option Time := r.pollFrom.map fun t => min Config.pollTime (b.now - t)

/-- A physical printer record as it stands (R154). -/
def printerStands (b : Bridge) (r : Printer) : PrinterRead :=
  { status := r.status, delivering := r.delivering, pauseStart := r.pauseStart, question := r.question, pollTimer := b.pollTimer r }

/-- READ-PRINTER, before its clear (R183, R154). -/
def printerRead (b : Bridge) (selector : Nat) : Result × AnswerBody :=
  if selector < 2 ∨ 384 < selector then (.malformed, .none)
  else
    match lpOf selector with
    | some l => (.ok, .delivery (b.record l) b.delivery.pace[l] b.delivery.counters)
    | none =>
      match b.printer selector with
      | some r => (.ok, .printer (b.printerStands r) b.delivery.counters)
      | none => (.notFound, .none)

/-- The error group a selector names, 0 to 8 (R183). -/
def groupOf (n : Nat) : Option (Fin 9) := if h : n < 9 then some ⟨n, h⟩ else none

/-! ## CLEAR requests, SAVE and resets -/

/-- CLEAR-ERRORS (R185): the first error and MULTIPLE go; the counters too under the clear flag. -/
def clearErrors (b : Bridge) (g : Fin 9) (clear : Bool) : Bridge :=
  b.modGroup g fun x =>
    { x with first := none, multiple := false, counters := if clear then cleared x.counters else x.counters }

/-- The plan fields of an entry as the image keeps them (R188). -/
def planEntry (e : Entry) : PlanEntry :=
  { kind := e.kind, home := e.home, visible := e.visible, shown := e.shown, rights := e.rights }

/-- The contents that a SAVE writes: settings, entries 1 to 9 and every FIXED entry, bindings (R78, R188, R189). -/
def imageNow (b : Bridge) : Image :=
  { settings := b.settings,
    entries := (b.dir.entries.filter fun x => x.2.state = .fixed).map fun x => (x.1, planEntry x.2),
    bindings := b.spool.lps.map (·.binding) }

/-- SAVE begins: the marker is erased, and the contents as they stand are written from now on (R189). -/
def beginSave (b : Bridge) : Result × AnswerBody × Bridge :=
  if b.agent.saveState = .running ∨ b.ctl.waiting.isSome then (.busy, .none, b)
  else
    (.ok, .none, b.modAgent fun a =>
      { a with saveState := .running, saving := b.imageNow, configMem := { a.configMem with marker := false } })

/-- Whether RESET-BRIDGE or RESET-PORT must be answered BUSY (R189, R190). -/
def resetBusy (b : Bridge) (k : ArmedReset) : Bool :=
  b.ctl.waiting.isSome || (k = .soft && b.agent.saveState = .running)

/-- A request to reset (R190). -/
def requestReset (b : Bridge) (k : ArmedReset) : Result × AnswerBody × AfterAnswer × Bridge :=
  if b.resetBusy k then (.busy, .none, .none, b) else (.ok, .none, .arm k, b)

/-! ## Carrying out (R183) -/

/-- A result with its body and a state, with nothing to do after the answer. -/
def plain (x : Result × AnswerBody × Bridge) : Result × AnswerBody × AfterAnswer × Bridge := (x.1, x.2.1, .none, x.2.2)

/-- Carries out a request on a port named by its selector (R183). -/
def onPort (b : Bridge) (selector : Nat) (f : Port → Result × AnswerBody × AfterAnswer × Bridge) :
    Result × AnswerBody × AfterAnswer × Bridge :=
  match portOf selector with
  | some p => f p
  | none => (.malformed, .none, .none, b)

/-- Carries out a request on an error group named by its selector (R183). -/
def onGroup (b : Bridge) (selector : Nat) (f : Fin 9 → Result × AnswerBody × AfterAnswer × Bridge) :
    Result × AnswerBody × AfterAnswer × Bridge :=
  match groupOf selector with
  | some g => f g
  | none => (.malformed, .none, .none, b)

/-- Carries out a request whose rights and form are right (R183): result, answer body, what follows the answer, and the state. -/
def carryOut (b : Bridge) : ManageReq → Result × AnswerBody × AfterAnswer × Bridge
  | .readStatus => (.ok, .status b.statusRead, .none, b)
  | .setSetting sel id v => plain (b.setSetting sel id v)
  | .readSetting sel id => plain (b.readSetting sel id)
  | .readEntry sel =>
    if sel < 1 ∨ 384 < sel then (.malformed, .none, .none, b) else (.ok, .entry (b.entry sel), .none, b)
  | .editEntry sel e => plain (b.editEntry sel e)
  | .editPrinter sel x => plain (b.editPrinter sel x)
  | .discardEdits => plain b.discardEdits
  | .commit => plain b.commit
  | .readPort sel => b.onPort sel fun p => (.ok, .port (b.portRead p), .none, b)
  | .clearFaults sel kinds foreign =>
    b.onPort sel fun p =>
      if kinds.isEmpty || foreign then (.malformed, .none, .none, b)
      else
        let b := b.clearFaults p kinds
        (.ok, .faults (b.mon p).latched (b.mon p).hold, .none, b)
  | .readSpool sel => plain ((b.spoolRead sel).1, (b.spoolRead sel).2, b)
  | .readJob sel => plain ((b.jobRead sel).1, (b.jobRead sel).2, b)
  | .cancelJob sel =>
    match b.jobRead sel with
    | (.ok, _) => (.ok, .none, .none, b.cancelJob sel .manager)
    | (r, _) => (r, .none, .none, b)
  | .readPrinter sel clear =>
    let x := b.printerRead sel
    let c := if clear && x.1 = .ok then b.modDelivery fun u => { u with counters := cleared u.counters } else b
    (x.1, x.2, .none, c)
  | .readErrors sel => b.onGroup sel fun g => (.ok, .errors (b.group g), .none, b)
  | .clearErrors sel clear => b.onGroup sel fun g => (.ok, .errors (b.group g), .none, b.clearErrors g clear)
  | .readForwarding clear =>
    (.ok, .forwarding b.forwarding, .none, if clear then b.setForwarding (cleared b.forwarding) else b)
  | .save => plain b.beginSave
  | .resetBridge => b.requestReset .soft
  | .resetPort sel => b.onPort sel fun p => b.requestReset (.port p)

/-! ## Answers (R181) -/

/-- Offers a management answer to its asker's class-1 queue or the pair queue; says whether it was refused or not sent at once,
and then counts ANSWER_LOST. -/
def manageAnswer (b : Bridge) (a : Asker) (bytes : List Byte) : Bool × Bridge :=
  match a with
  | .coax p src dst seq _ =>
    let x := b.sendEach [p] (Block.build src dst .manage seq bytes) .agent none
    if x.1.isEmpty then (false, x.2) else (true, x.2.countAnswerLost)
  | .pair mac dst tag seq e =>
    match b.sendPair { mac, kind := .manage, seq, tag, dst := e.getD 0, src := dst, data := bytes } .agent with
    | (.accepted, b) => (false, b)
    | (_, b) => (true, b.countAnswerLost)

/-- Arms a reset after its answer has been offered (R190): it waits for the report of that answer, or 100 ms. -/
def armReset (b : Bridge) (k : AfterAnswer) (answer : Nat) (reported : Bool) : Bridge :=
  match k with
  | .none => b
  | .arm k =>
    b.setCtl { b.ctl with waiting := some { kind := k, answer, reported, deadline := b.now + Config.resetWait } }

/-- Takes a management request with its code and selector (R181): rights, form, request, answer. `r` is none where the form is
wrong. -/
def takeManage (b : Bridge) (a : Asker) (code selector : Nat) (r : Option ManageReq) : Bridge :=
  let x : Result × AnswerBody × AfterAnswer × Bridge :=
    if b.mayManage a then
      match r with
      | some r => b.carryOut r
      | none => (.malformed, .none, .none, b)
    else (.denied, .none, .none, b)
  let b := x.2.2.2
  let y := b.manageAnswer a (answerRecord code selector x.1 x.2.1)
  y.2.armReset x.2.2.1 b.serial y.1

/-- A management command: the request taken as its asker sends it (log 9). -/
def request (b : Bridge) (a : Asker) (r : ManageReq) : Bridge := b.takeManage a r.code r.selector (some r)

/-- A MANAGE arrival's record taken by the agent. -/
def manageRecord (b : Bridge) (a : Asker) (l : List Byte) : Bridge :=
  b.takeManage a (l.getD 0 0).toNat (read16 l 2) (parseRequest l)

/-- SAVE completes: the marker is written and the result is DONE, or the memory does not acknowledge and it is FAILED (R189). -/
def completeSave (b : Bridge) (ack : Bool) : Bridge :=
  if b.agent.saveState = .running then
    b.modAgent fun a =>
      if ack then
        { a with saveState := .idle, lastSave := .done,
                 configMem := { marker := true, image := a.saving, check := checkOf (Config.imageBytes a.saving) } }
      else { a with saveState := .idle, lastSave := .failed }
  else b

end Bridge

end Sys2Proof.Machine
end

