-- ==== Sys2Proof/Machine/Submission.lean ====
section
/-! DEFINITION. The print spool's answers: PRINT-OPEN, PRINT-DATA, PRINT-CLOSE, stalls, and the repeat memories before them
(chapter 7, R15, R16, R30, R31). -/

namespace Sys2Proof.Machine
open Sys2Proof

/-- What the spool makes of a request: its answer, and what it does besides, after the answer has been placed and remembered. -/
abbrev Judgement := Answer × (Bridge → Bridge)

/-- A count in the SPOOL group. -/
def spoolCount (c : Ctr) (b : Bridge) : Bridge := b.count spoolGroup c

/-- Whether a job accepts data: its input is OPEN and it is not CANCELLING (R122, R127). -/
def acceptsData (j : Job) : Bool := j.input = .opened && j.state ≠ .cancelling

/-- The copies a job is opened with: 1 to 9, and 1 in STREAM mode (R126). -/
def openCopies (m : JobMode) (n : Nat) : Nat := if m = .stream then 1 else max 1 (min 9 n)

/-- The answer FAIL with a reason and detail 0. -/
def failWith (r : FailReason) : Answer := .fail r 0

/-- The hold answer of the spool: 100 ms (R128). -/
def spoolHold : Answer := .hold 10

/-- The cells that an append writes (R128). -/
def appendCells (chain : List BlockNo) (held : Nat) (data : List Byte) : List Host.Cell :=
  (chainAddrs chain held data.length).zip data

/-- A job after an append of data whose blocks have been added to its chain (R128). -/
def appended (now : Time) (chain : List BlockNo) (data : List Byte) (j : Job) : Job :=
  { j with chain, held := j.held + data.length, total := min 4294967295 (j.total + data.length), lastSeq := some j.nextSeq,
           nextSeq := (j.nextSeq + 1) % 256, lastActivity := now }

namespace Bridge

/-! ## PRINT-OPEN (R126) -/

/-- The jobs of an owner that are FILLING with input OPEN (R126). -/
def fillingJobs (b : Bridge) (owner : DirNo) : Nat :=
  (b.spool.jobs.filter fun j => j.owner = owner && j.state = .filling && j.input = .opened).length

/-- Whether URGENT is kept: the requester holds URGENT_PRINT and the logical printer allows it (R126). -/
def urgentKept (b : Bridge) (owner : DirNo) (l : Lp) : Bool :=
  (b.entry owner).any (·.rights.urgentPrint) && (b.lp l).binding.urgentAllowed

/-- Opens a job record (R126, steps 4 to 6). -/
def openJob (b : Bridge) (owner : DirNo) (l : Lp) (number copies : Nat) (urgent : Bool) : Bridge :=
  let m := (b.lp l).binding.mode
  let j : Job :=
    { number, owner, lp := l, mode := m, urgent := urgent && b.urgentKept owner l, copies := openCopies m copies,
      lastActivity := b.now }
  let b := b.modSpool fun s => { s with jobs := s.jobs ++ [j], jobCounter := nextNumber number }
  let b := b.pin owner
  if m = .stream then b.placeJob l number else b

/-- A PRINT-OPEN (R126). -/
def judgeOpen (b : Bridge) (owner : DirNo) (l : Lp) (copies : Nat) (urgent : Bool) : Judgement :=
  if (b.lp l).binding.primary.isNone then (failWith .refused, spoolCount .disabled)
  else if Config.jobRecords ≤ b.spool.jobs.length then (.busy, spoolCount .jobsFull)
  else if 2 ≤ b.fillingJobs owner then (.busy, spoolCount .fillingLimit)
  else
    let number := pickNumber b.spool.jobs Config.jobRecords b.spool.jobCounter
    (.reply (bytes16 number), fun b => b.openJob owner l number copies urgent)

/-! ## PRINT-DATA (R127, R128) -/

/-- Carries out an append whose blocks are free (R128). -/
def appendData (b : Bridge) (j : Job) (need : Nat) (data : List Byte) : Bridge :=
  let chain := j.chain ++ b.spool.freeList.take need
  let b := b.modSpool fun s => { s with freeList := s.freeList.drop need, toWrite := appendCells chain j.held data }
  let b := b.modJob j.number (appended b.now chain data)
  if j.state = JobState.delivering then b.toldOfData j.lp else b

/-- An append to a job (R128). A job that has grown too large is ended, with its owner's notice and pin, before TOO_LARGE is counted,
captured and noticed (DESIGN CHOICE, log 66). -/
def judgeAppend (b : Bridge) (j : Job) (data : List Byte) : Judgement :=
  let blocks := blocksFor (j.held + data.length)
  let need := blocks - j.chain.length
  if Config.chainLimit < blocks then
    match j.mode with
    | .spool =>
      (failWith .tooLarge, fun b =>
        (b.endJob j.number .cancelled .tooLarge).countCapture spoolGroup .tooLarge (.job j.number j.owner))
    | .stream => (spoolHold, spoolCount .streamHeld)
  else if b.spool.freeList.length < need then (spoolHold, spoolCount .storeFull)
  else (.reply [], fun b => b.appendData j need data)

/-- A PRINT-DATA (R127). -/
def judgeData (b : Bridge) (owner : DirNo) (l : Lp) (number seq : Nat) (data : List Byte) : Judgement :=
  match b.job number with
  | none => (failWith .unknownJob, id)
  | some j =>
    if j.owner ≠ owner then (failWith .notOwner, id)
    else if j.lp ≠ l ∨ !acceptsData j then (failWith .unknownJob, id)
    else if j.lastSeq = some seq then (.reply [], id)
    else if seq ≠ j.nextSeq then (.fail .sequence j.nextSeq, id)
    else b.judgeAppend j data

/-! ## PRINT-CLOSE (R129) -/

/-- Closes the input of a job that accepts data (R129, step 6). -/
def closeJob (b : Bridge) (j : Job) : Bridge :=
  let b := b.modJob j.number fun x => { x with input := .closed }
  match j.mode with
  | .spool =>
    if j.held = 0 then b.endJob j.number .done .none
    else (b.modJob j.number fun x => { x with state := .queued }).placeJob j.lp j.number
  | .stream =>
    if !j.started && j.total = 0 then b.endJob j.number .done .none
    else if j.state = JobState.delivering then b.toldOfData j.lp
    else b

/-- A PRINT-CLOSE (R129). -/
def judgeClose (b : Bridge) (owner : DirNo) (l : Lp) (number flag : Nat) : Judgement :=
  match b.job number with
  | none => (failWith .unknownJob, id)
  | some j =>
    if j.owner ≠ owner then (failWith .notOwner, id)
    else if j.lp ≠ l then (failWith .unknownJob, id)
    else if flag ≠ 0 then (.reply [], fun b => b.cancelJob number .owner)
    else if !acceptsData j then (failWith .unknownJob, id)
    else (.reply [], fun b => b.closeJob j)

/-- A print request by its kind and its data bytes (R3, R25, R126 to R129). The data that follows the fixed fields of a PRINT-DATA
is in the order the requester keeps (R34). -/
def judgePrint (b : Bridge) (owner : DirNo) (l : Lp) (k : Kind) (order : Order) (data : List Byte) : Judgement :=
  match k with
  | .printOpen => b.judgeOpen owner l (data.getD 0 0).toNat (data.getD 1 0 = 1)
  | .printData => b.judgeData owner l (read16 data 0) (data.getD 2 0).toNat (inOrder order (data.drop 4))
  | _ => b.judgeClose owner l (read16 data 0) (read16 data 2)

/-! ## Stalls (R130) -/

/-- A job stalls (R130). A job that the stall ends is ended, with its owner's notice and pin, before STALLED is counted, captured and
noticed (DESIGN CHOICE, log 65). -/
def stallJob (b : Bridge) (j : Job) : Bridge :=
  let b := match j.mode with
    | .spool => b.endJob j.number .cancelled .stalled
    | .stream =>
      let b := b.modJob j.number fun x => { x with input := .partly }
      if !j.started && j.total = 0 then b.endJob j.number .donePartial .none
      else if j.state = JobState.delivering then b.toldOfData j.lp
      else b
  b.countCapture spoolGroup .stalled (.job j.number j.owner)

/-! ## The repeat memories (R15, R16, R30, R31) -/

/-- The answer kept for a repeat: REPLY or FAIL under the same kind and sequence (R15, R30). -/
def keptAnswer (b : Bridge) (a : Asker) (k : Kind) : Option Answer :=
  match a with
  | .coax p src dst seq _ =>
    (b.repeats.find? fun r =>
      r.segment = b.segmentOf p && r.asker = src && r.dst = dst && r.kind = k && r.seq = seq && r.answer.final).map (·.answer)
  | .pair _ dst tag seq e =>
    (b.pair.repeats.find? fun r =>
      some r.asker = e && r.dst = dst && r.tag = tag && r.kind = k && r.seq = seq && r.answer.final).map (·.answer)

end Bridge

/-- The list without its first element that has the least key: of records of one oldest update time, the one listed first goes (R16, R31;
DESIGN CHOICE, log 51). -/
def dropOldest {α : Type} (key : α → Nat) (l : List α) : List α :=
  match (l.map key).min? with
  | some t => l.eraseIdx ((l.findIdx? fun x => key x = t).getD 0)
  | none => l

/-- Writes a record into a memory of a given size: in place of the record of the same parties, or in a free place, or in place of
the record with the oldest update time (R16, R31). -/
def remember {α : Type} (size : Nat) (same : α → Bool) (key : α → Nat) (x : α) (l : List α) : List α :=
  if l.any same then l.map fun y => if same y then x else y
  else (if l.length < size then l else dropOldest key l) ++ [x]

namespace Bridge

/-- Writes the repeat memory at the spool's answer (R16, R31). -/
def rememberAnswer (b : Bridge) (a : Asker) (k : Kind) (x : Answer) : Bridge :=
  match a with
  | .coax p src dst seq _ =>
    let s := b.segmentOf p
    b.setRepeats (remember Config.repeatSize (fun r => r.segment = s && r.asker = src && r.dst = dst) (·.updated)
      { segment := s, asker := src, dst, kind := k, seq, answer := x, updated := b.now } b.repeats)
  | .pair _ dst tag seq e =>
    match e with
    | some n =>
      b.modPair fun p =>
        { p with repeats := remember Config.pairRepeatSize (fun r => r.asker = n && r.dst = dst && r.tag = tag) (·.updated)
                   { asker := n, dst, tag, kind := k, seq, answer := x, updated := b.now } p.repeats }
    | none => b

/-- A print request to a logical printer, through the repeat memory (R15, R30, R81): a repeat is answered from the memory; otherwise
the spool's answer is placed and remembered before the request takes its effect. R129 has it so for a job ended at its close; of the
other effects it is a DESIGN CHOICE (log 75). -/
def printRequest (b : Bridge) (a : Asker) (owner : DirNo) (l : Lp) (k : Kind) (order : Order) (data : List Byte) : Bridge :=
  match b.keptAnswer a k with
  | some x => b.answer a x
  | none =>
    let y := b.judgePrint owner l k order data
    y.2 ((b.answer a y.1).rememberAnswer a k y.1)

end Bridge

end Sys2Proof.Machine
end

