-- ==== Sys2Proof/Machine/Forwarding.lean ====
section
/-! DEFINITION. The forwarding engine: sources, conflicts, learning, classification, dispatch, DATA, broadcasts and relays
(chapter 5, R44 to R52, R178). -/

namespace Sys2Proof.Machine
open Sys2Proof

/-- The class of a destination (R80, R82). -/
inductive Class
  | everyone
  | homed (n : DirNo) (e : Entry)
  | target (n : DirNo) (e : Entry)
  | pairLocal
  | unknown
  deriving DecidableEq, Repr

/-- An arrival's content as its dispatch needs it, on either side: its kind, its asker form, its content bytes, and the sequence,
tag and answer it carries for a printer's question. -/
inductive Arrival
  | coax (p : Port) (blk : Block)
  | carrier (f : Carrier)
  deriving DecidableEq, Repr

namespace Arrival

/-- The kind of an arrival. -/
def kind : Arrival → Kind
  | .coax _ b => b.kind
  | .carrier f => f.kind

/-- The asker of an arrival with a source entry or none (R12, R30). -/
def asker (src : Option DirNo) : Arrival → Asker
  | .coax p b => .coax p b.src b.dst b.seq src
  | .carrier f => .pair f.mac f.dst f.tag f.seq src

/-- The content bytes of an arrival, less any padding byte. -/
def content : Arrival → List Byte
  | .coax _ b => b.content
  | .carrier f => f.data

/-- The STATUS code of an arrival. -/
def statusCode : Arrival → Option StatusCode
  | .coax _ b => b.statusCode
  | .carrier f => f.statusCode

/-- Whether an arrival is an answer for dispatch (R83). -/
def isAnswer (a : Arrival) : Bool := a.kind.isAnswer || a.statusCode.isSome

/-- What an arrival answers a printer's question with (R145, R146). -/
def printerAnswer (a : Arrival) : Option PrinterAnswer :=
  match a.kind, a.statusCode with
  | .reply, _ => some .reply
  | .hold, _ => some (.hold (read16 a.content 0))
  | .busy, _ => some .busy
  | .fail, _ => some .fail
  | .status, some c => some (.status c)
  | _, _ => none

/-- The sequence and tag of an arrival (R145). -/
def sequence : Arrival → OutSeq × Option Nat
  | .coax _ b => (.bit b.seq, none)
  | .carrier f => (.byte f.seq, some f.tag)

end Arrival

namespace Bridge

/-! ## Sources (R44, R48 to R52) -/

/-- A conflict withdraws the entry from the segment, is counted and captured (R52). -/
def withdraw (b : Bridge) (s : Port) (n : Nat) (e : DirNo) : Bridge :=
  (b.modEntry e fun x => { x with withdrawn := PortSet.insert x.withdrawn s }).countCapture mapGroup .conflict (.conflict s n e)

/-- The conflict check (R51). -/
def checkConflict (b : Bridge) (s : Port) (n : Nat) : Bridge :=
  match findOn b.dir.entries s n with
  | some (e, _) => b.withdraw s n e
  | none => b

/-- The segments on which auto-show shows a station learned on a segment (R49). -/
def autoShown (b : Bridge) (s : Port) (n : Nat) : PortSet :=
  Vector.ofFn fun t =>
    (b.portSettings s).autoShow && b.segments.contains t && t ≠ s && b.settings.autoShowSet[t] && freeOn b.dir.entries t n

/-- The entry that learning writes (R48, R49). -/
def learnedEntry (b : Bridge) (s : Port) (n : Nat) : Entry :=
  let shown := b.autoShown s n
  { state := .learned, kind := .station, home := .seg s n, endField := if b.paired s then some .unknown else none,
    visible := if PortSet.isEmpty shown then none else some n, shown }

/-- Learning of an unknown coax source (R48): the entry it creates, if any. -/
def learn (b : Bridge) (s : Port) (n : Nat) : Option DirNo × Bridge :=
  if (b.portSettings s).learning then
    match lowestFree b.dir.entries with
    | some k => (some k, (b.modEntries (put k (b.learnedEntry s n))).refreshReach)
    | none => (none, b.countCapture mapGroup .mapFull (.learnCoax s n))
  else (none, b)

/-- Sets the end of an entry heard on an end of a segment in SPLIT (R60, R178). -/
def setEnd (b : Bridge) (p : Port) (n : DirNo) : Bridge :=
  if b.inSplit p then
    (b.modEntry n fun e => { e with endField := some (match sideOf p with | .a => EndField.a | .b => .b) }).refreshReach
  else b

/-- The source lookup of a coax block, with the conflict check and learning (R44). -/
def sourceLookup (b : Bridge) (p : Port) (n : Nat) : Option DirNo × Bridge :=
  let s := b.segmentOf p
  match findHome b.dir.entries s n with
  | some (k, _) => (some k, (b.heardFrom k).setEnd p k)
  | none =>
    match (b.checkConflict s n).learn s n with
    | (some k, b) => (some k, b.setEnd p k)
    | (none, b) => (none, b)

/-! ## Destinations (R80, R82) -/

/-- The class of a coax destination (R80). -/
def coaxClass (b : Bridge) (s : Port) (d : Nat) : Class :=
  if d = 255 then .everyone
  else
    match findHome b.dir.entries s d with
    | some (n, e) => .homed n e
    | none =>
      match findOn b.dir.entries s d with
      | some (n, e) => .target n e
      | none => .unknown

/-- The class of a destination field, for a sender with a source entry or none (R82): an entry homed on PAIR is Pair-local, and so is the
sender's own, wherever a commit may have moved it. -/
def pairClass (b : Bridge) (src : Option DirNo) (d : Nat) : Class :=
  if d = 0 then .everyone
  else
    match (b.entry d).filter Entry.inPlan with
    | some e => if e.home.mac?.isSome ∨ src = some d then .pairLocal else .target d e
    | none => .unknown

/-! ## DATA (R86 to R91) -/

/-- The source number of a forwarded block on a segment: the sender's, or the bridge number (R87, R90). -/
def sourceOn (b : Bridge) (src : Option DirNo) (t : Port) : Option Nat :=
  (src.bind fun n => b.numberOf n t) <|> b.bridgeNumberOn t

/-- Places a DATA block on ports; one QUEUE_FULL where any queue refuses its copy (R91). -/
def placeData (b : Bridge) (ps : List Port) (blk : Block) : Bridge :=
  let x := b.sendEach ps blk .forward none
  if x.1.isEmpty then x.2 else x.2.countForward .queueFull

/-- Places a DATA frame on the pair queue (R88, R91). -/
def placePairData (b : Bridge) (c : Carrier) : Bridge :=
  match b.sendPair c .forward with
  | (.accepted, b) => b
  | (.refused, b) => b.countForward .queueFull
  | (.notSent, b) => b.countForward .flushed

/-- The DATA block an arrival becomes on coax (R87, R89, R93, R94). A carrier frame whose source entry has been freed since it was
received has no entry to take the order of R34 from, and crosses AS_SENT (DESIGN CHOICE, log 77). -/
def dataBlock (b : Bridge) (src : Option DirNo) (dst n : Nat) : Arrival → Block
  | .coax _ blk => { blk with dst, src := n }
  | .carrier f => Block.build dst n .data false (inOrder ((src.map (orderOf b.dir.entries)).getD .asSent) f.data)

/-- Forwards a DATA arrival to a STATION (R86 to R91). -/
def forwardData (b : Bridge) (src : Option DirNo) (n : DirNo) (e : Entry) (a : Arrival) : Bridge :=
  if !e.reachable then b.countForward .destUnreachable
  else
    match e.home with
    | .seg t number =>
      match b.sourceOn src t with
      | some k => b.placeData (b.endsFor t e.endField) (b.dataBlock src number k a)
      | none => b.countForward .noNumber
    | .pair mac order =>
      b.placePairData { mac, kind := .data, dst := n, src := src.getD 1, data := inOrder order a.content }
    | .internal => b.countForward .noOwner

/-! ## Broadcasts (R93, R94) -/

/-- The ports of a segment that can transmit. -/
def ableEnds (b : Bridge) (t : Port) : List Port :=
  (if b.paired t then [lowerOf (pairOf t), upperOf (pairOf t)] else [t]).filter b.canTransmit

/-- The segments a broadcast set names: an upper port of a paired segment names the segment, and the arrival's own segment is
left out (R92; log 24). -/
def members (b : Bridge) (set : PortSet) (own : Option Port) : List Port :=
  b.segments.filter fun t => some t ≠ own && (List.finRange 4).any fun p => set[p] && b.segmentOf p = t

/-- The copy of a broadcast for a segment (R93). -/
def copyToSegment (src : Option DirNo) (a : Arrival) (b : Bridge) (t : Port) : Bridge :=
  let ps := b.ableEnds t
  if ps.isEmpty then b.countForward .destUnreachable
  else
    match b.sourceOn src t with
    | some k => b.placeData ps (b.dataBlock src 255 k a)
    | none => b.countForward .noNumber

/-- The copy of a coax broadcast for the pair side (R93). -/
def copyToPair (src : Option DirNo) (a : Arrival) (b : Bridge) : Bridge :=
  if b.pair.link then b.placePairData { mac := broadcastMac, kind := .data, dst := 0, src := src.getD 1, data := a.content }
  else b.countForward .destUnreachable

/-- A DATA broadcast copied to its broadcast set; any other kind is ignored (R93, R94). -/
def broadcast (b : Bridge) (src : Option DirNo) (a : Arrival) : Bridge :=
  if a.kind ≠ .data then b
  else
    match a with
    | .coax p _ =>
      let s := b.segmentOf p
      let set := (b.portSettings s).broadcast
      let b := (b.members set.segments (some s)).foldl (copyToSegment src a) b
      if set.pair then b.copyToPair src a else b
    | .carrier _ => (b.members b.settings.pairBroadcast none).foldl (copyToSegment src a) b

/-! ## Dispatch (R80 to R85) -/

/-- The forwarding engine's own FAIL REFUSED (R84). -/
def refuse (b : Bridge) (a : Asker) : Bridge := (b.answer a (failWith .refused)).countForward .refused

/-- An answer dispatched by its source (R83). A PRINTER that a commit has deleted is still the source of a carrier frame received before
(R79), but no lookup finds it on coax or for a frame received after (R26, R44, R57; DESIGN CHOICE, log 27). -/
def answerArrival (b : Bridge) (src : Option DirNo) (a : Arrival) : Bridge :=
  match src.filter fun n => (b.entry n).any (·.kind = .printer), a.printerAnswer with
  | some n, some x => b.printerAnswer n a.sequence.1 a.sequence.2 x
  | _, _ =>
    if a.kind = .status then b.countForward .noOwner
    else
      match a with
      | .coax p blk => b.exchangeCoaxAnswer p blk
      | .carrier f => b.exchangePairAnswer f

/-- A REQUEST handed to the exchange table with its payload as received (R81, R106). -/
def requestArrival (b : Bridge) (src : Option DirNo) (n : DirNo) (e : Entry) (a : Arrival) : Bridge :=
  match src with
  | some k =>
    match a with
    | .coax _ blk => b.takeRequest (a.asker src) k n e blk.payload blk.pad
    | .carrier f => b.takeRequest (a.asker src) k n e f.data false
  | none => b.refuse (a.asker src)

/-- A print request: to a logical printer through the repeat memory; refused to any other target and with no source entry (R81,
R84, R85). -/
def printArrival (b : Bridge) (src : Option DirNo) (n : DirNo) (a : Arrival) : Bridge :=
  match src, lpOf n with
  | some k, some l => b.printRequest (a.asker src) k l a.kind (match a with | .coax _ _ => .asSent | .carrier _ => orderOf b.dir.entries k) a.content
  | _, _ => b.refuse (a.asker src)

/-- An arrival whose class is Target (R81, R85). -/
def dispatchTarget (b : Bridge) (src : Option DirNo) (n : DirNo) (e : Entry) (a : Arrival) : Bridge :=
  if a.isAnswer then b.answerArrival src a
  else
    match a.kind with
    | .data => if e.kind = .station then b.forwardData src n e a else b.countForward .noOwner
    | .request => b.requestArrival src n e a
    | .printOpen | .printData | .printClose => b.printArrival src n a
    | .manage => if n = 1 then b.manageRecord (a.asker src) a.content else b.refuse (a.asker src)
    | _ => b.countForward .noOwner

/-- An arrival whose class is Unknown (R80, R82). -/
def dispatchUnknown (b : Bridge) (src : Option DirNo) (a : Arrival) : Bridge :=
  if a.isAnswer then b.answerArrival src a
  else if a.kind = .data then b.countForward .unknownDest
  else b

/-- An arrival whose class is Pair-local (R82). -/
def dispatchPairLocal (b : Bridge) (src : Option DirNo) (a : Arrival) : Bridge :=
  if a.isAnswer then b.answerArrival src a
  else if a.kind.isRequestLike then b.refuse (a.asker src)
  else b.countForward .pairLocal

/-! ## Relays between the halves of a split segment (R178) -/

/-- Relays a block to the other end, or loses it. The relay latches no end: when the segment enters SPLIT again it is copied like a frame
to 255 (R177). -/
def relay (b : Bridge) (p : Port) (blk : Block) : Bridge :=
  let q := partner p
  let i := pairOf p
  if b.canTransmit q then
    let x := b.sendEach [q] blk (.relay i) none
    if x.1.isEmpty then x.2.countFeed i .relayed else x.2.countFeed i .relayLost
  else b.countFeed i .relayLost

/-- Whether an entry homed on a split segment is on the half of an end. -/
def onHalf (e : Entry) (p : Port) : Bool :=
  match e.endField, sideOf p with
  | some .a, .a => true
  | some .b, .b => true
  | _, _ => false

/-- What SPLIT adds for a block delivered by an end: a relay for a number homed on the segment but for this half, and for every
broadcast (R178). -/
def relayIfSplit (b : Bridge) (p : Port) (blk : Block) : Class → Bridge
  | .everyone => if b.inSplit p then b.relay p blk else b
  | .homed _ e => if b.inSplit p && !onHalf e p then b.relay p blk else b
  | _ => b

/-! ## Taking an arrival (R79) -/

/-- An arrival from a PRINTER entry is reported to the delivery unit, unless it is an answer handed to it (R83, R150). -/
def heardPrinter (b : Bridge) (src : Option DirNo) : Bridge :=
  match src with
  | some n => if (b.entry n).any (·.kind = .printer) then b.leaveSilence n .unknown else b
  | none => b

/-- Dispatch by class (R79, step 3). An arrival that R83 has reported to the delivery unit too is reported there before it is dispatched
(DESIGN CHOICE, log 64). -/
def dispatchArrival (b : Bridge) (src : Option DirNo) (c : Class) (a : Arrival) : Bridge :=
  let handed := a.isAnswer && (match c with | .everyone | .homed _ _ => false | _ => true)
  let b := if handed then b else b.heardPrinter src
  match c with
  | .everyone => b.broadcast src a
  | .homed _ _ => b
  | .target n e => b.dispatchTarget src n e a
  | .pairLocal => b.dispatchPairLocal src a
  | .unknown => b.dispatchUnknown src a

/-- Takes a coax block whole (R79). -/
def takeBlock (b : Bridge) (p : Port) (blk : Block) : Bridge :=
  let x := b.sourceLookup p blk.src
  let c := x.2.coaxClass (x.2.segmentOf p) blk.dst
  (x.2.relayIfSplit p blk c).dispatchArrival x.1 c (.coax p blk)

/-- The source entry of a carrier frame as it is taken (R79): the one R26 found, also where a commit has since deleted or moved it
(R110); none where that entry has been freed since, and its number is FREE or has been learned anew (log 27). -/
def sourceStands (b : Bridge) (f : Carrier) (source : DirNo) : Option DirNo :=
  if (b.entry source).any fun e => e.state ≠ .learned || e.home.mac? = some f.mac then some source else none

/-- Takes a carrier frame whole (R79). -/
def takeCarrier (b : Bridge) (f : Carrier) (source : DirNo) : Bridge :=
  let src := b.sourceStands f source
  b.dispatchArrival src (b.pairClass src f.dst) (.carrier f)

/-- Takes the oldest arrival of a source, if there is one. -/
def takeArrival (b : Bridge) : ArrivalSource → Bridge
  | .port p =>
    match (b.port p).arrivals with
    | a :: rest => (b.modPort p fun x => { x with arrivals := rest }).takeBlock p a.block
    | [] => b
  | .pair =>
    match b.pair.arrivals with
    | a :: rest => (b.modPair fun x => { x with arrivals := rest }).takeCarrier a.frame a.source
    | [] => b

end Bridge

end Sys2Proof.Machine
end

