-- ==== Sys2Proof/Machine/Resets.lean ====
section
/-! DEFINITION. The resets and start-up: soft reset, port reset, power-on, pin reset, the end of a reset and of the configuration
load (R188 to R192, and the reset tables of each chapter). -/

namespace Sys2Proof.Machine
open Sys2Proof

/-- A line monitor's records after a soft or port reset, and at the end of the load (R172): counts and history empty, the hold set
empty, the test owed and begun where the port is enabled, the sampler started. -/
def Monitor.restart (now : Time) (x : PortSettings) (latched : FaultSet) : Monitor :=
  { state := if x.enable then .testing else .off, latched, testOwed := x.enable,
    runFrom := if x.enable then some now else none, mode := x.sampling, lastSample := now }

/-- A feed controller that enters DOWN with its start-up wait (R180). -/
def Feed.restart (paired : Bool) (counters : Counters) : Feed := { paired, startWait := paired, counters }

/-- The outcome and reason with which a soft reset ends a job, or none where the job is kept (R136). -/
def resetOutcome (j : Job) : Option (JobOutcome × JobReason) :=
  match j.state, j.mode, j.input with
  | .filling, .stream, .opened => some (.cancelled, .reset)
  | .filling, .stream, _ => none
  | .filling, .spool, _ => some (.cancelled, .reset)
  | .queued, _, _ => none
  | .delivering, .spool, _ => none
  | .delivering, .stream, _ => some (.failed, .reset)
  | .cancelling, _, _ => some (.cancelled, .reset)

/-- Entry 1 of the plan of a bad image: the bridge number 254 on all four segments (R41, R63). -/
def bridgeEntry : Entry :=
  { state := .fixed, kind := .bridge, home := .internal, visible := some 254, shown := PortSet.all }

/-- Entries 2 to 9 of the plan of a bad image (R41, R63). -/
def spoolEntry : Entry := { state := .fixed, kind := .spool, home := .internal }

/-- The entries of the bad-image plan (R63). -/
def defaultEntries : Entries := (1, bridgeEntry) :: (List.range' 2 8).map fun n => (n, spoolEntry)

/-- An entry written at the end of the load (R63). -/
def loadedEntry (lowerPaired : Port → Bool) (x : PlanEntry) : Entry :=
  { state := .fixed, kind := x.kind, home := x.home, endField := writtenEnd lowerPaired none x.home, visible := x.visible,
    shown := x.shown, rights := x.rights }

namespace Bridge

/-! ## The soft reset (R191) -/

/-- A port's queues emptied without reports; a frame being driven is cut off (R20). -/
def emptyPort (b : Bridge) (p : Port) : Bridge := (b.takeFlush p).2

/-- The pair port at a soft reset (R37). -/
def emptyPair (b : Bridge) : Bridge :=
  b.modPair fun x => { x with queue := [], handing := none, waiting := [], repeats := [], question := 0 }

/-- Closes every exchange record silently (R117). -/
def closeAll (b : Bridge) : Bridge := (List.range 16).foldl closeExchange b

/-- Ends the deliveries: printers UNKNOWN with nothing in hand, delivery records empty, logical printers IDLE (R154). -/
def endDeliveries (b : Bridge) : Bridge :=
  let b := b.modDelivery fun u =>
    { u with records := Vector.replicate 8 none, pace := Vector.replicate 8 Config.paceLimit, waiting := [], ended := [],
             printers := u.printers.map fun x => (x.1, {}) }
  b.modSpool fun s => { s with lps := s.lps.map fun x => { x with state := .idle, current := none } }

/-- Acts on each job in use by its state (R136): requeued, kept, or out of use; in the order in which they were opened (DESIGN CHOICE,
log 49). -/
def resetJobs (b : Bridge) : Bridge :=
  b.spool.jobs.foldl
    (fun b j => if (resetOutcome j).isSome then b.retireJob j else if j.state = JobState.delivering then b.requeue j else b) b

/-- Recomputes the pins from the jobs that survive; a RETIRING entry without pins is freed (R64). -/
def recomputePins (b : Bridge) : Bridge :=
  let b := b.modEntries fun es =>
    es.map fun x => (x.1, { x.2 with pins := (b.spool.jobs.filter (·.owner = x.1)).length })
  (b.dir.entries.filter fun x => x.2.state = .retiring && x.2.pins = 0).foldl (fun b x => b.freeEntry x.1) b

/-- A port's monitor and allowance at a reset (R96, R172); foreign carrier that goes on is timed anew for jabber, and counts for the
first sample of the sampler so started (DESIGN CHOICE, log 78). -/
def restartPort (b : Bridge) (p : Port) (latched : FaultSet) : Bridge :=
  (b.modPort p fun x =>
    { x with mon := Monitor.restart b.now (b.portSettings p) latched,
             carrier := x.carrier.map fun c => { c with jabbered := false } }).fullAllowance p

/-- A feed controller at a reset; the ends of a paired segment become UNKNOWN (R180). -/
def restartFeed (b : Bridge) (i : PairNo) (paired : Bool) (counters : Counters) : Bridge :=
  let b := b.modFeed i fun _ => Feed.restart paired counters
  if paired then b.clearEnds (lowerOf i) else b

/-- Lets the start-up wait of a pair end at once where neither end is TESTING (R180). -/
def followBoth (b : Bridge) : List Flush × Bridge :=
  let x := b.follow 0
  let y := x.2.follow 1
  (x.1 ++ y.1, y.2)

/-- The job notices of a soft reset (R133, R191, stage 7), in the order of opening (DESIGN CHOICE, log 49). -/
def resetNotices (b : Bridge) (jobs : List Job) : Bridge :=
  jobs.foldl
    (fun b j => match resetOutcome j with
      | some (o, r) => b.jobNotice j o r
      | none => b) b

/-- The soft reset, in the stages of R191. -/
def softReset (b : Bridge) : Bridge :=
  let before := b
  let jobs := b.spool.jobs
  let b := ((List.finRange 4).foldl emptyPort b).emptyPair.setRepeats []
  let b := b.closeAll
  let b := b.endDeliveries.resetJobs
  let b := (b.modDir fun d => { d with staging := [] }).recomputePins
  let b := (List.finRange 4).foldl (fun b p => b.restartPort p (b.mon p).latched) b
  let b := [(0 : PairNo), 1].foldl (fun b i => b.restartFeed i (b.feed i).paired (b.feed i).counters) b
  let x := b.followBoth
  let b := x.2.concludeChange before x.1
  let b := b.setCtl { b.ctl with waiting := none, cause := .soft, secondsFrom := b.now }
  b.resetNotices jobs

/-! ## The port reset (R190) -/

/-- The ports that a port reset resets: both of a pair that is PAIRED in effect or by its setting (R173, R190). -/
def resetPorts (b : Bridge) (p : Port) : List Port :=
  if b.paired p || b.settings.pairing[pairOf p] then [lowerOf (pairOf p), upperOf (pairOf p)] else [p]

/-- Takes a LEARNED entry out of use at a pairing change: freed, or RETIRING while pinned; the withdrawals it stood in the way of
are lifted (R62). -/
def unlearn (b : Bridge) (n : DirNo) (e : Entry) : Bridge :=
  if e.pins = 0 then b.freeEntry n else (b.retireQuiet n).liftAll (b.presences e)

/-- The entries homed on a port that are LEARNED. -/
def learnedOn (b : Bridge) (p : Port) : List (Nat × Entry) :=
  b.dir.entries.filter fun x => x.2.state = .learned && x.2.home.port? = some p

/-- A pairing change takes effect in the directory (R62). -/
def changePairing (b : Bridge) (i : PairNo) (paired : Bool) : Bridge :=
  let gone := if paired then upperOf i else lowerOf i
  let b := (b.learnedOn gone).foldl (fun b x => b.unlearn x.1 x.2) b
  b.modEntries fun es => es.map fun x =>
    if x.2.home.port? = some (lowerOf i) then (x.1, { x.2 with endField := if paired then some .unknown else none }) else x

/-- The printers homed on reset ports: status UNKNOWN, no question in hand, poll timer stopped (R154). -/
def resetPrinters (b : Bridge) (ps : List Port) : Bridge :=
  b.modDelivery fun u =>
    { u with printers := u.printers.map fun x =>
        if ((b.entry x.1).bind fun e => e.home.port?).any ps.contains then
          (x.1, { x.2 with status := .unknown, question := .none, pollFrom := none })
        else x }

/-- The LINE group of a port, emptied (R20, R172, R185). -/
def emptyLineGroup (b : Bridge) (p : Port) : Bridge := b.modGroup (lineGroup p) fun x => { counters := cleared x.counters }

/-- The feed controller of a reset pair, with the pairing as it is set (R62, R173, R180). -/
def resetFeed (b : Bridge) (i : PairNo) : Bridge :=
  let paired := b.settings.pairing[i]
  let was := (b.feed i).paired
  let b := if paired = was then b else b.changePairing i paired
  if paired ∨ was then b.restartFeed i paired feedCounters else b

/-- The counters of a reset pair's feed controller at 0, the relays that the reset flushed counted before (R180). -/
def zeroFeedCounters (b : Bridge) (i : PairNo) (before : Bridge) : Bridge :=
  if (b.feed i).paired ∨ (before.feed i).paired then b.modFeed i fun f => { f with counters := feedCounters } else b

/-- The port reset of a port, with its partner where the pair is PAIRED (R190): what it flushes and stops is reported before its LINE
groups, its pair's counters and its printers take their reset values (R154, R172, R180). -/
def portReset (b : Bridge) (p : Port) : Bridge :=
  let before := b
  let ps := b.resetPorts p
  let x := ps.foldl (fun y q => let z := y.2.takeFlush q; (y.1 ++ [z.1], z.2)) (([] : List Flush), b)
  let b := x.2.setRepeats (x.2.repeats.filter fun r => !ps.contains r.segment)
  let b := (ps.foldl (fun b q => b.restartPort q {}) b).resetFeed (pairOf p)
  let b := b.setCtl { b.ctl with waiting := none }
  let y := b.follow (pairOf p)
  let b := (y.2.concludeChange before (x.1 ++ y.1)).zeroFeedCounters (pairOf p) before
  (ps.foldl emptyLineGroup b).resetPrinters ps

/-- Whether a waiting reset may be taken: its answer has been reported, or its 100 ms have passed (R190). -/
def resetDue (b : Bridge) (w : WaitingReset) : Bool := w.reported || w.deadline ≤ b.now

/-! ## Power-on and pin reset (R190, R192) -/

/-- A port at its power-on values; carrier and the quiet time are the wire's and go on (log 25). -/
def powerPort (b : Bridge) (p : Port) : PortState :=
  { quietFrom := if b.driving p then b.now else (b.port p).quietFrom,
    carrier := (b.port p).carrier.map fun c => { c with jabbered := false } }

/-- Every block at its power-on values while a reset is held (R192). The serial memory, the PHY's link indication, the wires' carrier
and the model's own clock and counters go on (log 25), and the load result stands until the next load (R188). -/
def powerValues (b : Bridge) (ph : Phase) (cause : ResetCause) : Bridge :=
  { ctl := { now := b.now, phase := ph, cause, secondsFrom := b.now },
    ports := Vector.ofFn b.powerPort,
    pair := { indication := b.pair.indication },
    agent := { configMem := b.agent.configMem, loadResult := b.agent.loadResult },
    refillDue := b.now + Time.ms 1,
    serial := b.serial, drawCount := b.drawCount }

/-- The power-on input: a power-on reset, in any phase (R190). -/
def powerOn (b : Bridge) : Bridge := b.powerValues .heldPower .power

/-- The RESET pin goes low: a pin reset, absorbed by a power-on reset (R190). -/
def pinReset (b : Bridge) : Bridge := if b.ctl.phase = .heldPower then b else b.powerValues .heldPin .pin

/-- The reset that holds the part ends: the seconds counter starts from 0 and the load begins (R192). -/
def resetEnd (b : Bridge) : Bridge :=
  if b.ctl.phase = .heldPower ∨ b.ctl.phase = .heldPin then
    b.setCtl { b.ctl with phase := .loading, secondsFrom := b.now }
  else b

/-! ## The end of the configuration load (R188, R192) -/

/-- The part with an image's settings, entries and bindings in place, before its ports start. -/
def withImage (b : Bridge) (s : Settings) (entries : Entries) (bindings : Vector Binding 8) : Bridge :=
  let b := b.setSettings s
  let b := [(0 : PairNo), 1].foldl (fun b i => b.modFeed i fun _ => Feed.restart s.pairing[i] feedCounters) b
  let b := b.modEntries fun _ => entries
  b.modSpool fun x => { x with lps := Vector.ofFn fun l => { binding := bindings[l] } }

/-- The plan of an image in place (R63). -/
def loadImage (b : Bridge) (m : Image) : Bridge :=
  let lower := fun p : Port => m.settings.pairing[pairOf p] && p = lowerOf (pairOf p)
  b.withImage m.settings (m.entries.foldl (fun es x => put x.1 (loadedEntry lower x.2) es) []) m.bindings

/-- Whether the memory's image is GOOD: marker, check, and the checks C1 to C7 of its plan (R188). -/
def imageGood (b : Bridge) : Bool :=
  let m := b.agent.configMem
  m.marker && m.check = checkOf (Config.imageBytes m.image)
    && let c := b.loadImage m.image
       (c.plan.check c.segments).isNone

/-- The result of a load (R188). -/
def loadResult (b : Bridge) (ack : Bool) : LoadResult := if !ack then .absent else if b.imageGood then .good else .bad

/-- What starts together at the end of the load (R192): ports, sampling, feeds, the link wait, the ageing period, the refills
(log 35), printer records and reach. -/
def startUp (b : Bridge) : Bridge :=
  let b := (List.finRange 4).foldl (fun b p => b.restartPort p {}) b
  let b := b.modPair fun x => { x with waitFrom := if x.indication then some b.now else none }
  let b := b.modDir fun d => { d with ageingDue := b.now + Time.sec b.settings.ageingPeriod }
  let b := b.setRefillDue (b.now + Time.ms 1)
  let b := b.modDelivery fun u =>
    { u with printers := (b.dir.entries.filter fun x => x.2.kind = .printer).map fun x => (x.1, {}) }
  let b := b.setCtl { b.ctl with phase := .running }
  let x := b.followBoth
  x.2.concludeChange b x.1

/-- The configuration load ends (R188, R192). -/
def endLoad (b : Bridge) (ack : Bool) : Bridge :=
  let r := b.loadResult ack
  let c := if r = .good then b.loadImage b.agent.configMem.image
    else b.withImage {} defaultEntries (Vector.replicate 8 {})
  (c.modAgent fun a => { a with loadResult := r, setup := r ≠ .good }).startUp

end Bridge

end Sys2Proof.Machine
end

