-- ==== Sys2Proof/Machine/Command.lean ====
section
/-! DEFINITION. What every command ends with: appended bytes go into the store, free printers are offered, frames are handed over,
the pair queue's head goes to the PHY, and the FAULT pin takes up its conditions. -/

namespace Sys2Proof.Machine
open Sys2Proof

/-- How many frames one command may hand over at its end: above any that the delivery unit can hold (R143; log 14). -/
def handOverLimit : Nat := 256

namespace Bridge

/-- A frame as it is handed to the PHY: source MAC and type are filled in at this moment (R21, R29). -/
def ethernet (b : Bridge) (f : Carrier) : EtherOut :=
  { dst := f.mac, src := b.settings.pairAddress, type := b.settings.carrierType, data := f.bytes }

/-- Hands the head of the pair queue to the PHY while the link is UP and no frame is being handed over (R32). -/
def handToPhy (b : Bridge) : Bridge :=
  match b.pair.handing, b.pair.queue with
  | none, f :: _ => if b.pair.link then b.modPair fun x => { x with handing := some (b.ethernet f.frame) } else b
  | _, _ => b

/-- Nothing is left to write: the append's bytes are in the store. -/
def written (b : Bridge) : Bridge := b.modSpool fun x => { x with toWrite := [] }

/-- What follows a command's own effect (R125, R142 to R144, R32, R186), with the store as it then stands. -/
def settle (b : Bridge) (m : Store) : Bridge := ((handOvers m handOverLimit b.dispatch).handToPhy.written).driveFault

end Bridge

/-- The store after a command: the changed stored bits its operands name, then the bytes its append writes (R120, R128; log 6). -/
def storeAfter (m : Store) (upset : List Nat) (b : Bridge) : Store := (m.upset upset).writeAll b.spool.toWrite

/-- The state after a command whose own effect leaves the bridge as `b`: the queue stays as it is, the store takes the append's
bytes, and the bridge settles. -/
def State.after (s : State) (upset : List Nat) (b : Bridge) : State :=
  { s with store := storeAfter s.store upset b, bridge := b.settle (storeAfter s.store upset b) }

/-- A command with its effect on the bridge: it always gives a next state. -/
def State.command (s : State) (upset : List Nat) (f : Bridge → Bridge) : Host.Outcome State Fault Refusal :=
  .next (s.after upset (f s.bridge))

end Sys2Proof.Machine
end

