-- ==== Sys2Proof/Machine/CoaxEvents.lean ====
section
/-! DEFINITION. The meanings of the coax commands: RECEIVE_BLOCK, FOREIGN_CARRIER_START, ATTEMPT_START, COLLISION, BACKOFF_END,
SEND_COMPLETE, REPEAT_MEMORY_EXPIRE, ALLOWANCE_REFILL (chapter 1, R96 to R98). -/

namespace Sys2Proof.Machine
open Sys2Proof

namespace Bridge

/-! ## Receiving (R5 to R7, R14) -/

/-- A burst of foreign carrier ends: the quiet time begins, and with it the jabber quiet time while JABBER is held (R8, R163). -/
def carrierEnds (b : Bridge) (p : Port) : Bridge :=
  b.modPort p fun x =>
    { x with carrier := none, quietFrom := max x.quietFrom b.now,
             mon := { x.mon with jabberFrom := if x.mon.hold.jabber then some b.now else x.mon.jabberFrom } }

/-- Whether an exchange's answer window is open for a coax answer (R14). -/
def exchangeWindowOpen (b : Bridge) (p : Port) (blk : Block) : Bool :=
  match (b.matchCoax p blk).bind b.exchange with
  | some x =>
    match x.state with
    | .opened (.window closes) => b.now ≤ closes
    | _ => false
  | none => false

/-- Whether a printer's answer window is open for an answer with a sequence (R14, R144, R149). -/
def printerWindowOpen (b : Bridge) (n : DirNo) (seq : OutSeq) : Bool :=
  match b.question n with
  | .frame q =>
    q = seq && ((b.lpDelivering n).bind b.record).any fun d => match d.phase with
      | .window closes => b.now ≤ closes
      | _ => false
  | .query q _ (some closes) => q = seq && b.now ≤ closes
  | _ => false

/-- The late mark of a received block: an answer with no open window of its own (R14; log 33). -/
def lateBlock (b : Bridge) (p : Port) (blk : Block) : Bool :=
  (blk.kind.isAnswer || blk.statusCode.isSome) && !b.exchangeWindowOpen p blk
    && !(findHome b.dir.entries (b.segmentOf p) blk.src).any fun x => b.printerWindowOpen x.1 (.bit blk.seq)

/-- Hands a received block on, or discards it where the port may not deliver blocks (R7). -/
def handOn (b : Bridge) (p : Port) (blk : Block) : Bridge :=
  if b.canTransmit p then
    let late := b.lateBlock p blk
    b.modPort p fun x => { x with arrivals := x.arrivals ++ [{ block := blk, late }] }
  else b

/-- The amplitude of a burst with a complete preamble is kept for the sampler, unless a sample has taken it while the burst was still
on the wire (R167). -/
def keepAmplitude (b : Bridge) (p : Port) (burst : Burst) : Bridge :=
  if burst.preamble && !(b.port p).carrier.any (·.sampled) then b.modMon p fun m => { m with lastAmp := some burst.amplitude } else b

/-- A reception ends: the receive checks decide, unless the port is driving the wire itself and so has assembled nothing (R5, R6). -/
def receiveBurst (b : Bridge) (p : Port) (burst : Burst) : Bridge :=
  if b.driving p then b
  else
    match receive burst with
    | .dropped c => b.countLine p c
    | .block blk => b.handOn p blk

/-- A burst of foreign carrier begins: deferral and the jabber quiet time start again (R8, R163). -/
def carrierStarts (b : Bridge) (p : Port) : Bridge :=
  b.modPort p fun x =>
    { x with carrier := if x.carrier.isSome then x.carrier else some { start := b.now },
             mon := { x.mon with jabberFrom := none } }

/-! ## Attempts (R8 to R10) -/

/-- Whether a quiet window or a probe keeps an end from beginning an attempt (R175, R176, R179). -/
def heldByFeed (b : Bridge) (p : Port) : Bool :=
  let f := b.feed (pairOf p)
  f.paired && (f.probing || (f.window ≠ .none && b.feedingEnd (pairOf p) = p))

/-- Whether a port may begin an attempt: able to transmit, not sending or in backoff, and the wire quiet for 4 word times (R8). -/
def mayAttempt (b : Bridge) (p : Port) : Bool :=
  let x := b.port p
  b.canTransmit p && !b.heldByFeed p && x.attempt.isNone && x.backoff.isNone && x.carrier.isNone
    && x.quietFrom + Config.quietTime ≤ b.now

/-- Whether a class-1 frame is eligible: charged, or covered by the allowance (R8, R98). -/
def passesTest (x : PortState) (f : CoaxFrame) : Bool := f.charged || f.block.cost ≤ x.allowance

/-- The attempt on a class-0 frame. -/
def startClass0 (now : Time) (f : CoaxFrame) (x : PortState) : PortState :=
  { x with attempt := some { class0 := true, start := now, words := f.block.wire } }

/-- The attempt on a class-1 frame, which is charged when its first attempt begins (R98). -/
def startClass1 (now : Time) (f : CoaxFrame) (rest : List CoaxFrame) (x : PortState) : PortState :=
  { x with
    attempt := some { class0 := false, start := now, words := f.block.wire },
    class1 := { f with charged := true } :: rest,
    allowance := if f.charged then x.allowance else x.allowance - f.block.cost }

/-- Selects an eligible frame and begins to drive it (R8). -/
def startAttempt (b : Bridge) (p : Port) : Bridge :=
  if b.mayAttempt p then
    match (b.port p).class0, (b.port p).class1 with
    | f :: _, _ => b.modPort p (startClass0 b.now f)
    | [], f :: rest => if passesTest (b.port p) f then b.modPort p (startClass1 b.now f rest) else b
    | [], [] => b
  else b

/-- The frame of the attempt in hand: the head of its class. -/
def attemptFrame (b : Bridge) (p : Port) (a : Attempt) : Option CoaxFrame :=
  if a.class0 then (b.port p).class0.head? else (b.port p).class1.head?

/-- Removes the head of a class; a class-1 place goes to the waiting list (R17, R18), before the originator takes the report of the
frame that has left (DESIGN CHOICE, log 42). -/
def removeHead (b : Bridge) (p : Port) (class0 : Bool) : Bridge :=
  if class0 then b.modPort p fun x => { x with class0 := x.class0.tail }
  else
    let b := b.modPort p fun x => { x with class1 := x.class1.tail }
    b.offerPlace p (b.port p).waiting

/-- Writes the head of a class. -/
def writeHead (b : Bridge) (p : Port) (class0 : Bool) (f : CoaxFrame) : Bridge :=
  b.modPort p fun x =>
    if class0 then { x with class0 := f :: x.class0.tail } else { x with class1 := f :: x.class1.tail }

/-- The backoff after failed attempt `k`: slots drawn from 0 to 2^min(k,6) - 1, after the jam words (R9; log 7, log 22). -/
def backoffEnds (b : Bridge) (k : Nat) : Time :=
  b.now + Config.jam + Config.slot * (Config.backoffDraw b.drawCount % 2 ^ min k 6)

/-- A collision in the attempt in hand (R9). -/
def collide (b : Bridge) (p : Port) : Bridge :=
  match (b.port p).attempt with
  | some a =>
    let b := b.modPort p fun x => { x with attempt := none, quietFrom := b.now + Config.jam }
    match b.attemptFrame p a with
    | some f =>
      if f.attempts < 8 then
        let ends := b.backoffEnds f.attempts
        ((b.writeHead p a.class0 { f with attempts := f.attempts + 1 }).modPort p fun x =>
          { x with backoff := some ends }).setDrawCount (b.drawCount + 1)
      else ((b.countLine p .excessCollision).removeHead p a.class0).frameLost .collisions f
    | none => b
  | none => b

/-- The backoff ends (R9). -/
def endBackoff (b : Bridge) (p : Port) : Bridge :=
  if (b.port p).backoff.any (· ≤ b.now) then b.modPort p fun x => { x with backoff := none } else b

/-- The check word has been driven: the frame leaves its queue and is reported sent; its echo is to be measured (R10, R164). -/
def completeSend (b : Bridge) (p : Port) : Bridge :=
  match (b.port p).attempt with
  | some a =>
    if a.start + a.words.length ≤ b.now then
      let frame := b.attemptFrame p a
      let b := b.modPort p fun x =>
        { x with attempt := none, quietFrom := b.now, mon := { x.mon with echoDue := true } }
      match frame with
      | some f => (b.removeHead p a.class0).frameSent f
      | none => b
    else b
  | none => b

/-! ## Timers -/

/-- Frees an expired repeat memory record (R16). -/
def expireRepeat (b : Bridge) (segment : Port) (asker dst : Nat) : Bridge :=
  b.setRepeats (b.repeats.filter fun r =>
    !(r.segment = segment && r.asker = asker && r.dst = dst && r.updated + Time.sec 1 ≤ b.now))

/-- One refill of a port's allowance (R97). -/
def refill (share cap : Nat) (x : PortState) : PortState :=
  let r := x.remainder + 125 * share
  { x with remainder := r % 100, allowance := min cap (x.allowance + r / 100) }

/-- The 1 ms refill of every port (R97). -/
def refillAll (b : Bridge) : Bridge :=
  if b.refillDue ≤ b.now then
    ((List.finRange 4).foldl (fun b p => b.modPort p (refill (b.portSettings p).share (b.portSettings p).cap)) b).setRefillDue
      (b.refillDue + Time.ms 1)
  else b

end Bridge

/-- RECEIVE_BLOCK (R6): the carrier ends on the wire in any phase; the sampler and the receiver take the burst unless a reset holds the
part. -/
def execReceiveBlock (p : Port) (burst : Burst) (s : State) : Host.Outcome State Fault Refusal :=
  s.command [] fun b => ((b.whenPowered (·.keepAmplitude p burst)).carrierEnds p).whenPowered (·.receiveBurst p burst)

/-- FOREIGN_CARRIER_START (R163). -/
def execForeignCarrierStart (p : Port) (s : State) : Host.Outcome State Fault Refusal := s.command [] (·.carrierStarts p)

/-- ATTEMPT_START (R8). -/
def execAttemptStart (p : Port) (s : State) : Host.Outcome State Fault Refusal :=
  s.command [] (·.whenRunning (·.startAttempt p))

/-- COLLISION (R9). -/
def execCollision (p : Port) (s : State) : Host.Outcome State Fault Refusal := s.command [] (·.whenRunning (·.collide p))

/-- BACKOFF_END (R9). -/
def execBackoffEnd (p : Port) (s : State) : Host.Outcome State Fault Refusal := s.command [] (·.whenRunning (·.endBackoff p))

/-- SEND_COMPLETE (R10). -/
def execSendComplete (p : Port) (s : State) : Host.Outcome State Fault Refusal :=
  s.command [] (·.whenRunning (·.completeSend p))

/-- REPEAT_MEMORY_EXPIRE (R16). -/
def execRepeatMemoryExpire (segment : Port) (asker dst : Nat) (s : State) : Host.Outcome State Fault Refusal :=
  s.command [] (·.whenRunning (·.expireRepeat segment asker dst))

/-- ALLOWANCE_REFILL (R97): in every port state, the load's OFF included. -/
def execAllowanceRefill (s : State) : Host.Outcome State Fault Refusal := s.command [] (·.whenPowered (·.refillAll))

end Sys2Proof.Machine
end

