-- ==== Sys2Proof/Machine/PairEvents.lean ====
section
/-! DEFINITION. The meanings of the pair commands: LINK_INDICATION_ON, LINK_INDICATION_BREAK, LINK_UP, LINK_DOWN,
PAIR_FRAME_RECEIVE, PAIR_SEND_COMPLETE, PAIR_REPEAT_EXPIRE (chapter 2). -/

namespace Sys2Proof.Machine
open Sys2Proof

namespace Bridge

/-! ## The link (R22, R23) -/

/-- The link indication appears: with the link DOWN the 500 ms wait starts from now, once the load has ended (R22; log 25). Where it
was present already, the command stands for a break and a new beginning, and the wait restarts (DESIGN CHOICE, log 43). -/
def indicationOn (b : Bridge) : Bridge :=
  b.modPair fun x =>
    { x with indication := true, waitFrom := if b.ctl.phase = .running ∧ !x.link then some b.now else x.waitFrom }

/-- The link indication breaks while the link is DOWN: the wait must start again (R22). -/
def indicationBreak (b : Bridge) : Bridge :=
  if b.pair.link then b else b.modPair fun x => { x with indication := false, waitFrom := none }

/-- The indication has been present for 500 ms: the link goes UP and the directory takes the report (R22). -/
def linkComesUp (b : Bridge) : Bridge :=
  if !b.pair.link ∧ b.pair.waitFrom.any (fun t => t + Config.halfSecond ≤ b.now) then
    (b.modPair fun x => { x with link := true, waitFrom := none }).refreshReach
  else b

/-- The link indication becomes absent: from UP the link goes DOWN (R22, R23). -/
def linkGoesDown (b : Bridge) : Bridge := if b.pair.link then b.linkLost else b.indicationBreak

/-! ## Receiving (R24 to R28) -/

/-- One count in the PAIR group. -/
def countPair (b : Bridge) (c : Ctr) : Bridge := b.count pairGroup c

/-- Answers a HELLO: a HELLO with the entry's number, or a FAIL, from source field 1 with the tag and sequence of the HELLO; a full
queue drops it and counts ANSWER_DROPPED (R28, R29, R32). -/
def answerHello (b : Bridge) (f : Carrier) (kind : Kind) (reason dst : Nat) : Bridge :=
  match b.sendPair { mac := f.mac, kind, reason, seq := f.seq, tag := f.tag, dst, src := 1 } .answer with
  | (.refused, b) => b.countPair .answerDropped
  | (_, b) => b

/-- The entry that registration writes (R28). -/
def registeredEntry (b : Bridge) (m : Mac) : Entry :=
  { state := .learned, kind := .station, home := .pair m b.settings.pairOrder, reachable := true }

/-- Registration (R28). With no FREE entry, MAP_FULL is counted, captured and noticed before the FAIL FULL is offered (DESIGN CHOICE, log
52). -/
def hello (b : Bridge) (f : Carrier) : Bridge :=
  match findMac b.dir.entries f.mac with
  | some (n, _) => (b.heardFrom n).answerHello f .hello 0 n
  | none =>
    if retiringMac b.dir.entries f.mac ∨ !b.settings.pairLearning then b.answerHello f .fail FailReason.refused.code 0
    else
      match lowestFree b.dir.entries with
      | some n => (b.modEntries (put n (b.registeredEntry f.mac))).answerHello f .hello 0 n
      | none =>
        (b.countCapture mapGroup .mapFull (.learnPair f.mac)).answerHello f .fail FailReason.full.code 0

/-- The late mark of a carrier frame: an answer with no open window (R14; log 33). -/
def lateFrame (b : Bridge) (f : Carrier) (source : DirNo) : Bool :=
  (f.kind.isAnswer || f.statusCode.isSome) && (b.matchPair f).isNone && !b.printerWindowOpen source (.byte f.seq)

/-- A frame from a known MAC: its age, the source field's check, and the hand-over to the forwarding engine (R26, R27). -/
def fromKnown (b : Bridge) (f : Carrier) (n : DirNo) : Bridge :=
  let b := b.heardFrom n
  let b := if f.src = 0 ∨ f.src = n then b else b.countPair .sourceMismatch
  let late := b.lateFrame f n
  b.modPair fun x => { x with arrivals := x.arrivals ++ [{ frame := f, source := n, late }] }

/-- A carrier frame that has passed R25: its sender is found by MAC (R26). -/
def knowSender (b : Bridge) (f : Carrier) : Bridge :=
  if f.kind = .hello then b.hello f
  else
    match findMac b.dir.entries f.mac with
    | some (n, _) => b.fromKnown f n
    | none =>
      if b.agent.setup && f.kind = .manage && f.dst = 1 then b.manageRecord (.pair f.mac f.dst f.tag f.seq none) f.data
      else b.countPair .unknownSource

/-- The most bytes after the type field of a frame of 1518 bytes: less 14 of addresses and type and 4 of frame check (R24). -/
def longestData : Nat := 1500

/-- A frame the PHY delivers while the link is UP (R24). -/
def receiveFrame (b : Bridge) (f : EtherIn) : Bridge :=
  if !b.pair.link then b
  else if !f.fcsOk then b.countPair .badFcs
  else if longestData < f.data.length then b.countPair .malformed
  else if f.dst ≠ b.settings.pairAddress ∧ f.dst ≠ broadcastMac then b
  else if f.type ≠ b.settings.carrierType then b
  else if isGroup f.src ∨ f.src = b.settings.pairAddress then b.countPair .badAddress
  else
    match readCarrier f with
    | .dropped c => b.countPair c
    | .frame c => b.knowSender c

/-! ## Sending (R32, R33) -/

/-- The last byte of the frame in hand has been handed over: the place it frees is offered, and then its send time is reported (R32,
R33; the order is DESIGN CHOICE, log 42). -/
def completeHandover (b : Bridge) : Bridge :=
  match b.pair.handing, b.pair.queue with
  | some _, f :: rest =>
    let b := b.modPair fun x => { x with handing := none, queue := rest }
    (b.offerPairPlace b.pair.waiting).sendReport f.origin f.serial true
  | _, _ => b

/-- Frees an expired pair repeat memory record (R31). -/
def expirePairRepeat (b : Bridge) (asker : DirNo) (dst tag : Nat) : Bridge :=
  b.modPair fun x =>
    { x with repeats := x.repeats.filter fun r =>
        !(r.asker = asker && r.dst = dst && r.tag = tag && r.updated + Time.sec 1 ≤ b.now) }

end Bridge

/-- LINK_INDICATION_ON (R22): the indication is an input, seen in every phase. -/
def execLinkIndicationOn (s : State) : Host.Outcome State Fault Refusal := s.command [] (·.indicationOn)

/-- LINK_INDICATION_BREAK (R22). -/
def execLinkIndicationBreak (s : State) : Host.Outcome State Fault Refusal := s.command [] (·.indicationBreak)

/-- LINK_UP (R22). -/
def execLinkUp (s : State) : Host.Outcome State Fault Refusal := s.command [] (·.whenRunning (·.linkComesUp))

/-- LINK_DOWN (R23). -/
def execLinkDown (s : State) : Host.Outcome State Fault Refusal := s.command [] (·.linkGoesDown)

/-- PAIR_FRAME_RECEIVE (R24). -/
def execPairFrameReceive (f : EtherIn) (s : State) : Host.Outcome State Fault Refusal :=
  s.command [] (·.whenRunning (·.receiveFrame f))

/-- PAIR_SEND_COMPLETE (R32). -/
def execPairSendComplete (s : State) : Host.Outcome State Fault Refusal := s.command [] (·.whenRunning (·.completeHandover))

/-- PAIR_REPEAT_EXPIRE (R31). -/
def execPairRepeatExpire (asker : DirNo) (dst tag : Nat) (s : State) : Host.Outcome State Fault Refusal :=
  s.command [] (·.whenRunning (·.expirePairRepeat asker dst tag))

end Sys2Proof.Machine
end

