-- ==== Sys2Proof/Machine/ForwardEvents.lean ====
section
/-! DEFINITION. The meanings of TAKE_ARRIVAL, the exchange timers, JOB_STALL and AGEING_PERIOD_END (R79, R108, R111, R114, R130,
R54). -/

namespace Sys2Proof.Machine
open Sys2Proof

namespace Bridge

/-- A job's stall timeout has passed: it stalls, if it accepts data (R130). -/
def jobStalls (b : Bridge) (n : Nat) : Bridge :=
  match b.job n with
  | some j =>
    if acceptsData j ∧ j.lastActivity + Time.sec b.settings.stallTimeout ≤ b.now then b.stallJob j else b
  | none => b

/-- An entry's age after a period: LEARNED entries only, up to 255 (R54). -/
def aged (e : Entry) : Entry := if e.state = .learned then { e with age := min 255 (e.age + 1) } else e

/-- An ageing period ends: LEARNED ages rise, and unpinned entries at the limit are freed (R54). -/
def endAgeingPeriod (b : Bridge) : Bridge :=
  if b.dir.ageingDue ≤ b.now then
    let b := b.modDir fun d =>
      { d with entries := d.entries.map fun x => (x.1, aged x.2), ageingDue := d.ageingDue + Time.sec b.settings.ageingPeriod }
    (b.dir.entries.filter fun x => x.2.state = .learned && b.settings.ageLimit ≤ x.2.age && x.2.pins = 0).foldl
      (fun b x => b.freeEntry x.1) b
  else b

end Bridge

/-- TAKE_ARRIVAL (R79). -/
def execTakeArrival (src : ArrivalSource) (upset : List Nat) (s : State) : Host.Outcome State Fault Refusal :=
  s.command upset (·.whenRunning (·.takeArrival src))

/-- EXCHANGE_WINDOW_CLOSE (R108). -/
def execExchangeWindowClose (tag : Nat) (s : State) : Host.Outcome State Fault Refusal :=
  s.command [] (·.whenRunning (·.closeAnswerWindow tag))

/-- BUSY_DELAY_END (R111). -/
def execBusyDelayEnd (tag : Nat) (s : State) : Host.Outcome State Fault Refusal :=
  s.command [] (·.whenRunning (·.endBusyDelay tag))

/-- EXCHANGE_TIMEOUT (R114). -/
def execExchangeTimeout (tag : Nat) (s : State) : Host.Outcome State Fault Refusal :=
  s.command [] (·.whenRunning (·.timeOutExchange tag))

/-- JOB_STALL (R130). -/
def execJobStall (job : Nat) (s : State) : Host.Outcome State Fault Refusal := s.command [] (·.whenRunning (·.jobStalls job))

/-- AGEING_PERIOD_END (R54). -/
def execAgeingPeriodEnd (s : State) : Host.Outcome State Fault Refusal := s.command [] (·.whenRunning (·.endAgeingPeriod))

end Sys2Proof.Machine
end

