-- ==== Sys2Proof/Machine/DeliveryEvents.lean ====
section
/-! DEFINITION. The meanings of the delivery commands: PACE_REFILL, DELIVERY_WINDOW_CLOSE, HOLD_WAIT_END, STATUS_QUERY_DUE,
QUERY_WINDOW_CLOSE, PAUSE_LIMIT (chapter 8). -/

namespace Sys2Proof.Machine
open Sys2Proof

namespace Bridge

/-- The 1 ms refill of a pace allowance while its logical printer has a current job (R143). -/
def paceRefills (b : Bridge) (l : Lp) : Bridge :=
  match b.record l with
  | some d =>
    if d.refillDue ≤ b.now then
      (b.setRecord l (some { d with refillDue := d.refillDue + Time.ms 1 })).modDelivery fun u =>
        { u with pace := u.pace.set l (min Config.paceLimit (u.pace[l] + 2 * d.pace)) }
    else b
  | none => b

/-- The answer window of a delivery frame closes unanswered (R148). -/
def deliveryWindowCloses (b : Bridge) (l : Lp) : Bridge :=
  match (b.record l).map Delivery.phase with
  | some (.window closes) => if closes ≤ b.now then b.tryEnds l else b
  | _ => b

/-- A hold wait ends: the frame goes to PACING as a resend with tries made 1 (R146). -/
def holdWaitEnds (b : Bridge) (l : Lp) : Bridge :=
  match (b.record l).map Delivery.phase with
  | some (.holdWait ends) => if ends ≤ b.now then b.resend l 1 else b
  | _ => b

/-! ## Status queries (R149, R150) -/

/-- A coax status query (R149). -/
def queryBlock (dst src : Nat) (seq : OutSeq) : Block := Block.build dst src .status (seq = .bit true) []

/-- Offers a status query to class 0 of each of several ports (R13, R149). -/
def offerQuery (b : Bridge) (ps : List Port) (f : CoaxFrame) : Bridge := ps.foldl (fun b p => b.offer0 p f) b

/-- Sends a printer a status query on a route, as its question in hand, from a source number on coax (R149). -/
def sendQuery (b : Bridge) (n : DirNo) (r : Route) (src : Nat) : Bridge :=
  let q := b.newQuestion n r
  let serial := q.2.serial
  let b := q.2.modPrinter n fun x => { x with question := .query q.1 serial none }
  match r with
  | .pair mac =>
    let seq := match q.1 with
      | .byte x => x
      | .bit _ => 0
    match b.sendPair { mac, kind := .status, seq, tag := 1, dst := n, src := 1 } (.query n) with
    | (.accepted, b) => b
    | (_, b) => b.queryNotSent n serial
  | _ =>
    b.nextSerial.offerQuery (b.routePorts r)
      { block := queryBlock (b.homeNumber n) src q.1, origin := .query n, serial, named := r.named }

/-- The source number of a query outside a delivery: the bridge number where entry 1 is present on the printer's segment (R150). -/
def querySource (b : Bridge) (e : Entry) : Option Nat :=
  match e.home with
  | .seg p _ => b.bridgeNumberOn (b.segmentOf p)
  | _ => some 1

/-- A query falls due (R149, R150): on the delivery's latched route and source while one is in hand, otherwise on the printer's own
route; not sent while the printer is UNREACHABLE or entry 1 is not present on its segment. -/
def queryDue (b : Bridge) (n : DirNo) : Bridge :=
  match (b.lpDelivering n).bind b.record with
  | some d => b.sendQuery n d.route d.source
  | none =>
    match b.entry n with
    | some e =>
      match b.routeOf e, b.querySource e with
      | some r, some src => if e.reachable then b.sendQuery n r src else b
      | _, _ => b
    | none => b

/-- A printer's poll timer reaches 2 s: it starts again from 0 and a query falls due (R149, R150). -/
def pollDue (b : Bridge) (n : DirNo) : Bridge :=
  match b.printer n with
  | some r =>
    if r.pollFrom.any fun t => t + Config.pollTime ≤ b.now then
      (b.modPrinter n fun r => { r with pollFrom := some b.now }).queryDue n
    else b
  | none => b

/-- A query's answer window closes: it is no longer the question in hand (R149). -/
def queryWindowCloses (b : Bridge) (n : DirNo) : Bridge :=
  match b.question n with
  | .query _ _ (some closes) => if closes ≤ b.now then b.modPrinter n fun r => { r with question := .none } else b
  | _ => b

/-- A pause has lasted longer than the pause limit (R149). -/
def pauseTooLong (b : Bridge) (n : DirNo) : Bool :=
  b.settings.pauseLimit ≠ 0 && (b.printer n).any fun r =>
    r.pauseStart.any fun t => t + Time.sec (60 * b.settings.pauseLimit) < b.now

/-- The pause limit is exceeded: the printer becomes NOT_RESPONDING and the delivery is stopped (R149). -/
def pauseEnds (b : Bridge) (n : DirNo) : Bridge :=
  if b.pauseTooLong n then
    let b := (b.setNotResponding n).countDelivery .pauseLimit
    match b.lpDelivering n with
    | some l => b.stop l
    | none => b
  else b

end Bridge

/-- PACE_REFILL (R143). -/
def execPaceRefill (lp : Lp) (upset : List Nat) (s : State) : Host.Outcome State Fault Refusal :=
  s.command upset (·.whenRunning (·.paceRefills lp))

/-- DELIVERY_WINDOW_CLOSE (R148). -/
def execDeliveryWindowClose (lp : Lp) (upset : List Nat) (s : State) : Host.Outcome State Fault Refusal :=
  s.command upset (·.whenRunning (·.deliveryWindowCloses lp))

/-- HOLD_WAIT_END (R146). -/
def execHoldWaitEnd (lp : Lp) (upset : List Nat) (s : State) : Host.Outcome State Fault Refusal :=
  s.command upset (·.whenRunning (·.holdWaitEnds lp))

/-- STATUS_QUERY_DUE (R149). -/
def execStatusQueryDue (printer : DirNo) (s : State) : Host.Outcome State Fault Refusal :=
  s.command [] (·.whenRunning (·.pollDue printer))

/-- QUERY_WINDOW_CLOSE (R149). -/
def execQueryWindowClose (printer : DirNo) (s : State) : Host.Outcome State Fault Refusal :=
  s.command [] (·.whenRunning (·.queryWindowCloses printer))

/-- PAUSE_LIMIT (R149). -/
def execPauseLimit (printer : DirNo) (s : State) : Host.Outcome State Fault Refusal :=
  s.command [] (·.whenRunning (·.pauseEnds printer))

end Sys2Proof.Machine
end

