-- ==== Sys2Proof/Machine/ManageEvents.lean ====
section
/-! DEFINITION. The meanings of the twenty management commands and SAVE_COMPLETE: each is the agent's operation on its request
(R181 to R190). -/

namespace Sys2Proof.Machine
open Sys2Proof

/-- A management command: the request taken from its asker while the U416 takes traffic (R181, R192; log 9). -/
def State.manage (s : State) (a : Asker) (r : ManageReq) : Host.Outcome State Fault Refusal :=
  s.command [] (·.whenRunning (·.request a r))

/-- READ_STATUS (R183). -/
def execReadStatus (a : Asker) (s : State) : Host.Outcome State Fault Refusal :=
  s.manage a .readStatus

/-- SET_SETTING (R184). -/
def execSetSetting (a : Asker) (selector id : Nat) (value : SettingValue) (s : State) : Host.Outcome State Fault Refusal :=
  s.manage a (.setSetting selector id value)

/-- READ_SETTING (R183). -/
def execReadSetting (a : Asker) (selector id : Nat) (s : State) : Host.Outcome State Fault Refusal :=
  s.manage a (.readSetting selector id)

/-- READ_ENTRY (R183). -/
def execReadEntry (a : Asker) (selector : Nat) (s : State) : Host.Outcome State Fault Refusal :=
  s.manage a (.readEntry selector)

/-- EDIT_ENTRY (R67). -/
def execEditEntry (a : Asker) (selector : Nat) (edit : EntryEdit) (s : State) : Host.Outcome State Fault Refusal :=
  s.manage a (.editEntry selector edit)

/-- EDIT_PRINTER (R68). -/
def execEditPrinter (a : Asker) (selector : Nat) (x : Binding) (s : State) : Host.Outcome State Fault Refusal :=
  s.manage a (.editPrinter selector x)

/-- DISCARD_EDITS (R69). -/
def execDiscardEdits (a : Asker) (s : State) : Host.Outcome State Fault Refusal :=
  s.manage a .discardEdits

/-- COMMIT (R70). -/
def execCommit (a : Asker) (s : State) : Host.Outcome State Fault Refusal :=
  s.manage a .commit

/-- READ_PORT (R171). -/
def execReadPort (a : Asker) (selector : Nat) (s : State) : Host.Outcome State Fault Refusal :=
  s.manage a (.readPort selector)

/-- CLEAR_FAULTS (R166). -/
def execClearFaults (a : Asker) (selector : Nat) (kinds : FaultSet) (foreign : Bool) (s : State) :
    Host.Outcome State Fault Refusal :=
  s.manage a (.clearFaults selector kinds foreign)

/-- READ_SPOOL (R183). -/
def execReadSpool (a : Asker) (selector : Nat) (s : State) : Host.Outcome State Fault Refusal :=
  s.manage a (.readSpool selector)

/-- READ_JOB (R183). -/
def execReadJob (a : Asker) (selector : Nat) (s : State) : Host.Outcome State Fault Refusal :=
  s.manage a (.readJob selector)

/-- CANCEL_JOB (R131). -/
def execCancelJob (a : Asker) (selector : Nat) (s : State) : Host.Outcome State Fault Refusal :=
  s.manage a (.cancelJob selector)

/-- READ_PRINTER (R183). -/
def execReadPrinter (a : Asker) (selector : Nat) (clear : Bool) (s : State) : Host.Outcome State Fault Refusal :=
  s.manage a (.readPrinter selector clear)

/-- READ_ERRORS (R185). -/
def execReadErrors (a : Asker) (selector : Nat) (s : State) : Host.Outcome State Fault Refusal :=
  s.manage a (.readErrors selector)

/-- CLEAR_ERRORS (R185). -/
def execClearErrors (a : Asker) (selector : Nat) (clear : Bool) (s : State) : Host.Outcome State Fault Refusal :=
  s.manage a (.clearErrors selector clear)

/-- READ_FORWARDING (R95). -/
def execReadForwarding (a : Asker) (clear : Bool) (s : State) : Host.Outcome State Fault Refusal :=
  s.manage a (.readForwarding clear)

/-- SAVE (R189). -/
def execSave (a : Asker) (s : State) : Host.Outcome State Fault Refusal :=
  s.manage a .save

/-- RESET_BRIDGE (R190). -/
def execResetBridge (a : Asker) (s : State) : Host.Outcome State Fault Refusal :=
  s.manage a .resetBridge

/-- RESET_PORT (R190). -/
def execResetPort (a : Asker) (selector : Nat) (s : State) : Host.Outcome State Fault Refusal :=
  s.manage a (.resetPort selector)

/-- SAVE_COMPLETE (R189). -/
def execSaveComplete (ack : Bool) (s : State) : Host.Outcome State Fault Refusal :=
  s.command [] (·.whenRunning (·.completeSave ack))

end Sys2Proof.Machine
end

