-- ==== Sys2Proof/Machine/ResetEvents.lean ====
section
/-! DEFINITION. The meanings of the reset commands: SOFT_RESET, PORT_RESET, POWER_ON, PIN_RESET, RESET_END, CONFIG_LOAD_END
(R188 to R192). -/

namespace Sys2Proof.Machine
open Sys2Proof

namespace Bridge

/-- A waiting soft reset is taken when it is due (R190, R191). -/
def takeSoftReset (b : Bridge) : Bridge :=
  match b.ctl.waiting with
  | some w => if w.kind = .soft ∧ b.resetDue w then b.softReset else b
  | none => b

/-- A waiting port reset is taken when it is due (R190). -/
def takePortReset (b : Bridge) : Bridge :=
  match b.ctl.waiting with
  | some w =>
    match w.kind with
    | .port p => if b.resetDue w then b.portReset p else b
    | .soft => b
  | none => b

/-- The end of a configuration load that is running (R188). -/
def takeLoadEnd (b : Bridge) (ack : Bool) : Bridge := if b.ctl.phase = .loading then b.endLoad ack else b

end Bridge

/-- SOFT_RESET (R191). -/
def execSoftReset (s : State) : Host.Outcome State Fault Refusal := s.command [] (·.whenRunning (·.takeSoftReset))

/-- PORT_RESET (R190). -/
def execPortReset (s : State) : Host.Outcome State Fault Refusal := s.command [] (·.whenRunning (·.takePortReset))

/-- POWER_ON (R190). -/
def execPowerOn (s : State) : Host.Outcome State Fault Refusal := s.command [] (·.powerOn)

/-- PIN_RESET (R190). -/
def execPinReset (s : State) : Host.Outcome State Fault Refusal := s.command [] (·.pinReset)

/-- RESET_END (R192). -/
def execResetEnd (s : State) : Host.Outcome State Fault Refusal := s.command [] (·.resetEnd)

/-- CONFIG_LOAD_END (R188). -/
def execConfigLoadEnd (ack : Bool) (s : State) : Host.Outcome State Fault Refusal := s.command [] (·.takeLoadEnd ack)

end Sys2Proof.Machine
end

