-- ==== Sys2Proof/Machine/LineEvents.lean ====
section
/-! DEFINITION. The meanings of the line monitor commands: TEST_RUN_END, TEST_INTERRUPT, TEST_RUN_RESUME, SHORT_DETECTION,
JABBER_DETECTION, JABBER_RECOVERY, ECHO_MEASUREMENT, LEVEL_SAMPLE (chapter 9). Each acts only where its event can happen (log 2). -/

namespace Sys2Proof.Machine
open Sys2Proof

namespace Bridge

/-- A run of 20 ms that no carrier has interrupted ends (R160). -/
def testRunEnds (b : Bridge) (p : Port) (r : TestResult) : Bridge :=
  if (b.mon p).state = .testing ∧ (b.mon p).runFrom.any (fun t => t + Config.testRun ≤ b.now) ∧ (b.port p).carrier.isNone then
    b.testResult p r
  else b

/-- Foreign carrier interrupts a run in hand (R161). -/
def testInterrupted (b : Bridge) (p : Port) : Bridge :=
  if (b.mon p).state = .testing ∧ (b.mon p).runFrom.isSome then b.interruptTest p else b

/-- The interrupting carrier has ended: a new run begins (R161). -/
def testResumes (b : Bridge) (p : Port) : Bridge :=
  if (b.mon p).state = .testing ∧ (b.mon p).runFrom.isNone ∧ (b.port p).carrier.isNone then
    b.modMon p fun m => { m with runFrom := some b.now }
  else b

/-- Whether a drive current that has been above the short limit for a time, in microseconds, is a SHORT: the time reaches the short
deglitch time, and the port has been driving for it (R162). A word time is 8 µs. -/
def shortLasts (b : Bridge) (p : Port) (duration : Nat) : Bool :=
  (b.portSettings p).deglitch ≤ duration && (b.port p).attempt.all fun a => duration ≤ 8 * (b.now - a.start)

/-- SHORT is detected while the port drives the wire (R162). -/
def shortDetected (b : Bridge) (p : Port) (duration : Nat) : Bridge :=
  if (b.mon p).state = .active ∧ b.driving p ∧ b.shortLasts p duration then b.detect p .short (·.isolate p .short) else b

/-- Whether the burst on a wire has lasted longer than 640 word times and has not been found to jabber (R163). -/
def jabbers (b : Bridge) (p : Port) : Bool :=
  (b.port p).carrier.any fun c => !c.jabbered && c.start + Config.jabberLimit < b.now

/-- JABBER is detected, once in a burst, in every state but OFF (R163). -/
def jabberDetected (b : Bridge) (p : Port) : Bridge :=
  if (b.mon p).state ≠ .off ∧ b.jabbers p then
    (b.modPort p fun x => { x with carrier := x.carrier.map fun c => { c with jabbered := true } }).detect p .jabber
      (·.isolate p .jabber)
  else b

/-- The jabber quiet time has reached 500 ms (R163). -/
def jabberRecovers (b : Bridge) (p : Port) : Bridge :=
  if (b.mon p).hold.jabber ∧ (b.port p).carrier.isNone ∧ (b.mon p).jabberFrom.any (fun t => t + Config.halfSecond ≤ b.now) then
    b.leaveHold p [.jabber]
  else b

/-- The echo of a successful attempt is measured while the port is ACTIVE (R164). -/
def echoMeasured (b : Bridge) (p : Port) (a : Nat) : Bridge :=
  if (b.mon p).echoDue ∧ (b.mon p).state = .active then b.measureEcho p a else b

/-- A sample is due (R167). -/
def sampleDue (b : Bridge) (p : Port) (onWire : Option Nat) : Bridge :=
  if (b.mon p).state ≠ .off ∧ (b.mon p).lastSample + samplingInterval (b.mon p).mode ≤ b.now then b.takeSample p onWire else b

end Bridge

/-- TEST_RUN_END (R160). -/
def execTestRunEnd (p : Port) (result : TestResult) (s : State) : Host.Outcome State Fault Refusal :=
  s.command [] (·.whenRunning (·.testRunEnds p result))

/-- TEST_INTERRUPT (R161). -/
def execTestInterrupt (p : Port) (s : State) : Host.Outcome State Fault Refusal :=
  s.command [] (·.whenRunning (·.testInterrupted p))

/-- TEST_RUN_RESUME (R161). -/
def execTestRunResume (p : Port) (s : State) : Host.Outcome State Fault Refusal :=
  s.command [] (·.whenRunning (·.testResumes p))

/-- SHORT_DETECTION (R162). -/
def execShortDetection (x : ShortCurrent) (s : State) : Host.Outcome State Fault Refusal :=
  s.command [] (·.whenRunning (·.shortDetected x.port x.duration))

/-- JABBER_DETECTION (R163). -/
def execJabberDetection (p : Port) (s : State) : Host.Outcome State Fault Refusal :=
  s.command [] (·.whenRunning (·.jabberDetected p))

/-- JABBER_RECOVERY (R163). -/
def execJabberRecovery (p : Port) (s : State) : Host.Outcome State Fault Refusal :=
  s.command [] (·.whenRunning (·.jabberRecovers p))

/-- ECHO_MEASUREMENT (R164). -/
def execEchoMeasurement (p : Port) (amplitude : Nat) (s : State) : Host.Outcome State Fault Refusal :=
  s.command [] (·.whenRunning (·.echoMeasured p amplitude))

/-- LEVEL_SAMPLE (R167). -/
def execLevelSample (x : LevelMeasure) (s : State) : Host.Outcome State Fault Refusal :=
  s.command [] (·.whenRunning (·.sampleDue x.port x.onWire))

end Sys2Proof.Machine
end

