-- ==== Sys2Proof/Machine/FeedEvents.lean ====
section
/-! DEFINITION. The meanings of the feed controller's commands: SWITCH_WINDOW_CLOSE, SPLIT_WINDOW_CLOSE, PROBE_DUE, PROBE_PULSE
(chapter 10). -/

namespace Sys2Proof.Machine
open Sys2Proof

namespace Bridge

/-- The switch window closes once end B is not driving: FEED_A, with B's queues flushed (R175). -/
def switchWindowCloses (b : Bridge) (i : PairNo) : Bridge :=
  if (b.feed i).paired ∧ (b.feed i).window = .switch ∧ !b.driving (b.feedingEnd i) then
    b.feedEvent i (Feed.enter b.now .feedA)
  else b

/-- The split window closes once the feeding end is not driving: SPLIT (R176). -/
def splitWindowCloses (b : Bridge) (i : PairNo) : Bridge :=
  if (b.feed i).paired ∧ (b.feed i).window = .split ∧ !b.driving (b.feedingEnd i) then b.splitNow i else b

/-- Whether both ends of a pair are available (R173). -/
def bothAvailable (b : Bridge) (i : PairNo) : Bool :=
  (b.mon (lowerOf i)).state = .active && (b.mon (upperOf i)).state = .active

/-- Whether a probe falls due: SPLIT, no probe in hand, and the probe timer at 10 s (R179). -/
def probeIsDue (b : Bridge) (i : PairNo) : Bool :=
  let f := b.feed i
  f.paired && f.state = .split && !f.probing && f.probeFrom.any fun t => t + Config.probeTime ≤ b.now

/-- A probe falls due: its quiet window opens, or it is skipped and the timer restarts (R179). -/
def probeFallsDue (b : Bridge) (i : PairNo) : Bridge :=
  if b.probeIsDue i then
    if b.bothAvailable i && (b.feed i).window = .none then b.modFeed i fun f => { f with probing := true }
    else b.modFeed i fun f => { f with probeFrom := some b.now }
  else b

/-- Whether an end's wire had been quiet for 4 word times when a pulse that ends now began, 2 word times ago (R179). -/
def quietBeforePulse (b : Bridge) (p : Port) : Bool :=
  (b.port p).quietFrom + Config.quietTime + Config.pulseTime ≤ b.now

/-- Whether an end is silent, its wire quiet for 4 word times before the pulse and during it (R179). -/
def endQuiet (b : Bridge) (p : Port) : Bool := !b.driving p && (b.port p).carrier.isNone && b.quietBeforePulse p

/-- Whether an end lets a pulse end now (R179): it is not driving, and its wire was quiet for 4 word times until the pulse began.
Foreign carrier may have begun during the pulse, and a burst of it may have come and gone (log 34). -/
def endLetsPulse (b : Bridge) (p : Port) (foreign : Bool) : Bool :=
  !b.driving p && (b.port p).carrier.all (fun c => b.now ≤ c.start + Config.pulseTime)
    && (b.quietBeforePulse p || (foreign && b.now ≤ (b.port p).quietFrom + Config.pulseTime))

/-- Whether the probe's pulse may have been sent (R179). -/
def mayPulse (b : Bridge) (i : PairNo) (foreign : Bool) : Bool :=
  (b.feed i).paired && (b.feed i).probing && b.endLetsPulse (lowerOf i) foreign && b.endLetsPulse (upperOf i) foreign

/-- Whether foreign carrier was present on either end during the pulse: as measured, or still on a wire (R179). -/
def pulseDisturbed (b : Bridge) (i : PairNo) (foreign : Bool) : Bool :=
  foreign || (b.port (lowerOf i)).carrier.isSome || (b.port (upperOf i)).carrier.isSome

/-- The pulse is sent by end B and measured at end A: at level 8 or more, without foreign carrier, the segment rejoins (R179).
The quiet time of both ends starts anew at the pulse, so that both defer before their next attempt (DESIGN CHOICE, log 73). -/
def pulse (b : Bridge) (i : PairNo) (a : Nat) (foreign : Bool) : Bridge :=
  if b.mayPulse i foreign then
    let level := levelOf a (b.portSettings (lowerOf i)).nominal
    let disturbed := b.pulseDisturbed i foreign
    let b := [lowerOf i, upperOf i].foldl (fun b p => b.modPort p fun x => { x with quietFrom := b.now }) b
    if 8 ≤ level ∧ !disturbed then (b.feedEvent i (Feed.enter b.now .feedA)).countFeed i .rejoins
    else b.modFeed i (Feed.abandon b.now)
  else b

end Bridge

/-- SWITCH_WINDOW_CLOSE (R175). -/
def execSwitchWindowClose (i : PairNo) (s : State) : Host.Outcome State Fault Refusal :=
  s.command [] (·.whenRunning (·.switchWindowCloses i))

/-- SPLIT_WINDOW_CLOSE (R176). -/
def execSplitWindowClose (i : PairNo) (s : State) : Host.Outcome State Fault Refusal :=
  s.command [] (·.whenRunning (·.splitWindowCloses i))

/-- PROBE_DUE (R179). -/
def execProbeDue (i : PairNo) (s : State) : Host.Outcome State Fault Refusal := s.command [] (·.whenRunning (·.probeFallsDue i))

/-- PROBE_PULSE (R179). -/
def execProbePulse (i : PairNo) (amplitude : Nat) (foreign : Bool) (s : State) : Host.Outcome State Fault Refusal :=
  s.command [] (·.whenRunning (·.pulse i amplitude foreign))

end Sys2Proof.Machine
end

