-- ==== Sys2Proof/Machine/Dispatch.lean ====
section
/-! DEFINITION. The meaning of every command: one arm per constructor of Instr. -/

namespace Sys2Proof.Machine
open Sys2Proof

def exec (i : Instr) (s : State) : Host.Outcome State Fault Refusal :=
  match i with
  | .receiveBlock p burst => Sys2Proof.Machine.execReceiveBlock p burst s
  | .attemptStart p => Sys2Proof.Machine.execAttemptStart p s
  | .collision p => Sys2Proof.Machine.execCollision p s
  | .backoffEnd p => Sys2Proof.Machine.execBackoffEnd p s
  | .sendComplete p => Sys2Proof.Machine.execSendComplete p s
  | .repeatMemoryExpire segment asker dst => Sys2Proof.Machine.execRepeatMemoryExpire segment asker dst s
  | .allowanceRefill => Sys2Proof.Machine.execAllowanceRefill s
  | .linkIndicationOn => Sys2Proof.Machine.execLinkIndicationOn s
  | .linkUp => Sys2Proof.Machine.execLinkUp s
  | .linkDown => Sys2Proof.Machine.execLinkDown s
  | .pairFrameReceive f => Sys2Proof.Machine.execPairFrameReceive f s
  | .pairSendComplete => Sys2Proof.Machine.execPairSendComplete s
  | .pairRepeatExpire asker dst tag => Sys2Proof.Machine.execPairRepeatExpire asker dst tag s
  | .takeArrival src upset => Sys2Proof.Machine.execTakeArrival src upset s
  | .exchangeWindowClose tag => Sys2Proof.Machine.execExchangeWindowClose tag s
  | .busyDelayEnd tag => Sys2Proof.Machine.execBusyDelayEnd tag s
  | .exchangeTimeout tag => Sys2Proof.Machine.execExchangeTimeout tag s
  | .jobStall job => Sys2Proof.Machine.execJobStall job s
  | .ageingPeriodEnd => Sys2Proof.Machine.execAgeingPeriodEnd s
  | .paceRefill lp upset => Sys2Proof.Machine.execPaceRefill lp upset s
  | .deliveryWindowClose lp upset => Sys2Proof.Machine.execDeliveryWindowClose lp upset s
  | .holdWaitEnd lp upset => Sys2Proof.Machine.execHoldWaitEnd lp upset s
  | .statusQueryDue printer => Sys2Proof.Machine.execStatusQueryDue printer s
  | .queryWindowClose printer => Sys2Proof.Machine.execQueryWindowClose printer s
  | .pauseLimit printer => Sys2Proof.Machine.execPauseLimit printer s
  | .readStatus a => Sys2Proof.Machine.execReadStatus a s
  | .setSetting a selector id value => Sys2Proof.Machine.execSetSetting a selector id value s
  | .readSetting a selector id => Sys2Proof.Machine.execReadSetting a selector id s
  | .readEntry a selector => Sys2Proof.Machine.execReadEntry a selector s
  | .editEntry a selector edit => Sys2Proof.Machine.execEditEntry a selector edit s
  | .editPrinter a selector b => Sys2Proof.Machine.execEditPrinter a selector b s
  | .discardEdits a => Sys2Proof.Machine.execDiscardEdits a s
  | .commit a => Sys2Proof.Machine.execCommit a s
  | .readPort a selector => Sys2Proof.Machine.execReadPort a selector s
  | .clearFaults a selector kinds foreign => Sys2Proof.Machine.execClearFaults a selector kinds foreign s
  | .readSpool a selector => Sys2Proof.Machine.execReadSpool a selector s
  | .readJob a selector => Sys2Proof.Machine.execReadJob a selector s
  | .cancelJob a selector => Sys2Proof.Machine.execCancelJob a selector s
  | .readPrinter a selector clear => Sys2Proof.Machine.execReadPrinter a selector clear s
  | .readErrors a selector => Sys2Proof.Machine.execReadErrors a selector s
  | .clearErrors a selector clear => Sys2Proof.Machine.execClearErrors a selector clear s
  | .readForwarding a clear => Sys2Proof.Machine.execReadForwarding a clear s
  | .save a => Sys2Proof.Machine.execSave a s
  | .saveComplete ack => Sys2Proof.Machine.execSaveComplete ack s
  | .resetBridge a => Sys2Proof.Machine.execResetBridge a s
  | .resetPort a selector => Sys2Proof.Machine.execResetPort a selector s
  | .softReset => Sys2Proof.Machine.execSoftReset s
  | .portReset => Sys2Proof.Machine.execPortReset s
  | .powerOn => Sys2Proof.Machine.execPowerOn s
  | .pinReset => Sys2Proof.Machine.execPinReset s
  | .resetEnd => Sys2Proof.Machine.execResetEnd s
  | .configLoadEnd ack => Sys2Proof.Machine.execConfigLoadEnd ack s
  | .testRunEnd p result => Sys2Proof.Machine.execTestRunEnd p result s
  | .testInterrupt p => Sys2Proof.Machine.execTestInterrupt p s
  | .testRunResume p => Sys2Proof.Machine.execTestRunResume p s
  | .shortDetection p => Sys2Proof.Machine.execShortDetection p s
  | .jabberDetection p => Sys2Proof.Machine.execJabberDetection p s
  | .jabberRecovery p => Sys2Proof.Machine.execJabberRecovery p s
  | .echoMeasurement p amplitude => Sys2Proof.Machine.execEchoMeasurement p amplitude s
  | .levelSample p => Sys2Proof.Machine.execLevelSample p s
  | .switchWindowClose k => Sys2Proof.Machine.execSwitchWindowClose k s
  | .splitWindowClose k => Sys2Proof.Machine.execSplitWindowClose k s
  | .probeDue k => Sys2Proof.Machine.execProbeDue k s
  | .probePulse k amplitude foreign => Sys2Proof.Machine.execProbePulse k amplitude foreign s
  | .linkIndicationBreak => Sys2Proof.Machine.execLinkIndicationBreak s
  | .foreignCarrierStart p => Sys2Proof.Machine.execForeignCarrierStart p s

end Sys2Proof.Machine
end

