-- ==== Sys2Proof/Machine/Step.lean ====
section
/-! DEFINITION. One step of the block: the command at the front of the queue, or one word time on an empty queue. -/

namespace Sys2Proof.Machine
open Sys2Proof

/-- One word time passes (section 0.4; log 1). -/
def State.tick (s : State) : State := { s with bridge := s.bridge.setCtl { s.bridge.ctl with now := s.bridge.now + 1 } }

/-- One step: the first waiting command takes its effect with the rest of the queue waiting; on an empty queue one word time
passes. -/
def step (s : State) : Host.Outcome State Fault Refusal :=
  match s.pending with
  | [] => .next s.tick
  | c :: rest => exec c { s with pending := rest }

/-- The state with the command that a word spells put at the front of its queue; unchanged where the word spells none. -/
def State.withFetchWord (s : State) (nbits w : Nat) : State :=
  match decodeTableWord nbits w with
  | some c => { s with pending := c :: s.pending }
  | none => s

end Sys2Proof.Machine
end

