-- ==== Sys2Proof/Safety.lean ====
section
/-! DEFINITION. What counts as a sound state, what the end of a command leaves as it is, and the words the statements are put in. -/

namespace Sys2Proof

/-! ## Commands -/

/-- The stored bits that a command's operands name as changed (R120; log 6). -/
def Instr.upset : Instr → List Nat
  | .takeArrival _ l | .paceRefill _ l | .deliveryWindowClose _ l | .holdWaitEnd _ l => l
  | _ => []

/-- Whether a command waits for the end of the load (R192; log 2, log 25). The commands that do not: what the wires and the PHY show of
themselves, the refill, and the resets and the load. -/
def Instr.awaitsTraffic : Instr → Bool
  | .receiveBlock _ _ | .foreignCarrierStart _ | .allowanceRefill | .linkIndicationOn | .linkIndicationBreak | .linkDown
  | .powerOn | .pinReset | .resetEnd | .configLoadEnd _ => false
  | _ => true

end Sys2Proof

namespace Sys2Proof.Machine
open Sys2Proof

/-! ## Sound states -/

/-- The U416 takes traffic: the configuration load has ended and no reset holds it (R192). -/
abbrev State.takesTraffic (s : State) : Prop := s.bridge.ctl.phase = .running

/-- The spool store is in its canonical form (log 5). -/
def State.storeSound (s : State) : Prop := Memory.wf s.store.cells = true

/-- Nothing waits to be written into the spool store (log 5). -/
def State.written (s : State) : Prop := s.bridge.spool.toWrite = []

/-- The FAULT pin shows its conditions (R186). -/
def State.faultSound (s : State) : Prop := s.bridge.reporting.fault = s.bridge.faultCondition

/-- A sound state: the three together. -/
def State.sound (s : State) : Prop := s.storeSound ∧ s.written ∧ s.faultSound

/-- Every port's allowance is within its cap and its remainder within hundredths (R96). -/
def State.allowanceSound (s : State) : Prop :=
  ∀ p, (s.bridge.port p).allowance ≤ (s.bridge.portSettings p).cap ∧ (s.bridge.port p).remainder < 100

/-- The records stand once each and within their numbers (R38, R66, R100, R123, R126), and a latched route with end UNKNOWN names the
lower port of its segment (R105). -/
structure State.recordsSound (s : State) : Prop where
  entries : rising s.bridge.dir.entries = true
  staging : s.bridge.dir.staging.Pairwise fun x y => x.sameItem y = false
  stagingSize : s.bridge.dir.staging.length ≤ 32
  exchanges : rising s.bridge.exchanges = true
  tags : ∀ x ∈ s.bridge.exchanges, x.1 < 16
  jobs : s.bridge.spool.jobs.Pairwise fun x y => x.number ≠ y.number
  jobCount : s.bridge.spool.jobs.length ≤ 32
  targetEnd : ∀ x ∈ s.bridge.exchanges, ∀ p, x.2.targetRoute = .unknownEnd p → p.val % 2 = 0
  deliveryEnd : ∀ l, ∀ d ∈ s.bridge.record l, ∀ p, d.route = .unknownEnd p → p.val % 2 = 0

/-- A run of commands from a state, all of them waiting in the queue, never stops: each step gives a next state. -/
def State.runs : Nat → State → Prop
  | 0, _ => True
  | k + 1, s => ∃ t, step s = .next t ∧ State.runs k t

/-! ## What the end of a command leaves as it is -/

/-- A port of which only the waiting list has changed and class 1 has grown at its tail. -/
structure PortKept (x y : PortState) : Prop where
  class0 : y.class0 = x.class0
  class1 : ∃ l, y.class1 = x.class1 ++ l
  attempt : y.attempt = x.attempt
  backoff : y.backoff = x.backoff
  carrier : y.carrier = x.carrier
  quietFrom : y.quietFrom = x.quietFrom
  allowance : y.allowance = x.allowance
  remainder : y.remainder = x.remainder
  arrivals : y.arrivals = x.arrivals
  mon : y.mon = x.mon

/-- A pair port whose queue, waiting list and frame in hand are as they were, and whose repeat memory holds nothing if it held
nothing. -/
structure PairQuiet (x y : PairPort) : Prop where
  queue : y.queue = x.queue
  waiting : y.waiting = x.waiting
  handing : y.handing = x.handing
  repeats : x.repeats = [] → y.repeats = []

/-- A bridge in which only what deliveries and their notices may change has changed: frames joined the tails of class 1 and of the pair
queue; jobs, delivery records, printers, entries' pins, bits and withdrawals, and the SPOOL and STORE groups followed the deliveries. -/
structure BridgeKept (b c : Bridge) : Prop where
  ctl : c.ctl = b.ctl
  settings : c.settings = b.settings
  feeds : c.feeds = b.feeds
  repeats : c.repeats = b.repeats
  refillDue : c.refillDue = b.refillDue
  forwarding : c.forwarding = b.forwarding
  exchanges : c.exchanges = b.exchanges
  agent : c.agent = b.agent
  drawCount : c.drawCount = b.drawCount
  port : ∀ p, PortKept (b.port p) (c.port p)
  link : c.pair.link = b.pair.link
  indication : c.pair.indication = b.pair.indication
  waitFrom : c.pair.waitFrom = b.pair.waitFrom
  pairArrivals : c.pair.arrivals = b.pair.arrivals
  pairQueue : ∃ l, c.pair.queue = b.pair.queue ++ l
  pairDown : b.pair.link = false → PairQuiet b.pair c.pair
  group : ∀ g : Fin 9, g.val < 7 → c.group g = b.group g
  ageingDue : c.dir.ageingDue = b.dir.ageingDue
  staging : c.dir.staging = b.dir.staging
  jobCounter : c.spool.jobCounter = b.spool.jobCounter
  toWrite : b.spool.toWrite = [] → c.spool.toWrite = []
  binding : ∀ l, (c.lp l).binding = (b.lp l).binding

/-- What a command of the line monitors or the feed controllers of some ports leaves as it is, and no more: the queue of commands, the
clock, the phase and the cause of the last reset, the settings, the repeat memory, the staging area, the link, the agent but for its lost
answers, the monitors and the carrier of the other ports, and the feed controllers of the other pairs but for their counters. -/
structure LineKept (ps : List Port) (s t : State) : Prop where
  pending : t.pending = s.pending
  now : t.bridge.ctl.now = s.bridge.ctl.now
  phase : t.bridge.ctl.phase = s.bridge.ctl.phase
  cause : t.bridge.ctl.cause = s.bridge.ctl.cause
  settings : t.bridge.settings = s.bridge.settings
  repeats : t.bridge.repeats = s.bridge.repeats
  staging : t.bridge.dir.staging = s.bridge.dir.staging
  link : t.bridge.pair.link = s.bridge.pair.link
  agent : { t.bridge.agent with answerLost := 0 } = { s.bridge.agent with answerLost := 0 }
  mon : ∀ q, q ∉ ps → t.bridge.mon q = s.bridge.mon q
  carrier : ∀ q, q ∉ ps → (t.bridge.port q).carrier = (s.bridge.port q).carrier
  feed : ∀ j, (∀ q ∈ ps, pairOf q ≠ j) →
    { t.bridge.feed j with counters := feedCounters } = { s.bridge.feed j with counters := feedCounters }

/-! ## A burst on the wire -/

/-- A bridge that has heard a burst end on a port: the quiet times begin, and the amplitude of a complete preamble is kept for the
sampler, unless a sample has taken it while the burst was on the wire (R5, R8, R163, R167). -/
def Bridge.heard (b : Bridge) (p : Port) (burst : Burst) : Bridge :=
  b.modPort p fun x =>
    { x with carrier := none, quietFrom := max x.quietFrom b.now,
             mon := { x.mon with jabberFrom := if x.mon.hold.jabber then some b.now else x.mon.jabberFrom,
                                 lastAmp := if burst.preamble ∧ ∀ c, x.carrier = some c → c.sampled = false then some burst.amplitude
                                   else x.mon.lastAmp } }

/-! ## The power-on values -/

/-- Every counter of a set at 0. -/
abbrev allZero (l : Counters) : Prop := ∀ x ∈ l, x.2 = 0

/-- The power-on values that the reset tables of the chapters give (R20, R37, R63, R96, R117, R136, R154, R172, R180, R185, R186,
R189, R190): queues, repeat memories, directory, exchanges, spool, deliveries and error groups empty, ports OFF, feeds and link DOWN. -/
structure PowerOnValues (b : Bridge) : Prop where
  queues : ∀ p, (b.port p).class0 = [] ∧ (b.port p).class1 = [] ∧ (b.port p).waiting = [] ∧ (b.port p).arrivals = []
  contention : ∀ p, (b.port p).attempt = none ∧ (b.port p).backoff = none
  allowance : ∀ p, (b.port p).allowance = 2084 ∧ (b.port p).remainder = 0
  monitor : ∀ p, (b.mon p).state = .off ∧ (b.mon p).hold = {} ∧ (b.mon p).latched = {} ∧ (b.mon p).restarts = 0
    ∧ (b.mon p).echo = 0 ∧ (b.mon p).lowRun = 0 ∧ (b.mon p).jabberFrom = none ∧ (b.mon p).history = [] ∧ (b.mon p).degraded = false
  feed : ∀ i, (b.feed i).state = .down ∧ (b.feed i).window = .none ∧ (b.feed i).probing = false ∧ allZero (b.feed i).counters
  repeats : b.repeats = []
  pair : b.pair.link = false ∧ b.pair.queue = [] ∧ b.pair.handing = none ∧ b.pair.waiting = [] ∧ b.pair.repeats = []
    ∧ b.pair.question = 0 ∧ b.pair.arrivals = []
  directory : b.dir.entries = [] ∧ b.dir.staging = []
  forwarding : allZero b.forwarding
  exchanges : b.exchanges = []
  jobs : b.spool.jobs = [] ∧ b.spool.jobCounter = 1 ∧ b.spool.freeList = List.finRange 512
  printers : ∀ l, b.lp l = {}
  delivery : b.delivery.printers = [] ∧ b.delivery.waiting = [] ∧ allZero b.delivery.counters
    ∧ ∀ l : Lp, b.record l = none ∧ b.delivery.pace[l] = 600
  groups : ∀ g, allZero (b.group g).counters ∧ (b.group g).first = none ∧ (b.group g).multiple = false
  reporting : b.reporting.fault = false ∧ b.reporting.noticeDropped = 0
  agent : b.agent.saveState = .idle ∧ b.agent.lastSave = .none ∧ b.agent.answerLost = 0
  waiting : b.ctl.waiting = none

/-! ## The checks of a plan (R71) -/

/-- Whether a number names a FIXED PRINTER of a plan (C5). -/
def PrinterAt (t : Plan) (n : DirNo) : Prop := ∃ e, look n t.entries = some e ∧ e.state = .fixed ∧ e.kind = .printer

/-- What C1 refuses of two entries: both present on a segment under one number, RETIRING ones nowhere (R42). -/
def ClashC1 (g : Port) (n : Nat) (x y : Nat × Entry) : Prop :=
  ∀ z ∈ [x, y], z.2.state ≠ .retiring ∧
    (z.2.home = .seg g n ∨ (z.2.shown[g] = true ∧ z.2.withdrawn[g] = false ∧ z.2.visible = some n))

/-- What C2 refuses of an entry: a visible number without a shown set, or a shown set without a visible number. -/
def BadC2 (e : Entry) : Prop := e.state ≠ .retiring ∧ ¬ (e.visible.isSome = true ↔ e.shown ≠ PortSet.none)

/-- What C3 refuses of an entry: its home port in its shown set. -/
def BadC3 (e : Entry) : Prop := e.state ≠ .retiring ∧ ∃ p n, e.home = .seg p n ∧ e.shown[p] = true

/-- What C4 refuses of two entries: one home port and home number; or, RETIRING ones counted, one MAC. -/
def ClashC4 (x y : Nat × Entry) : Prop :=
  (∃ p m, x.2.home = .seg p m ∧ y.2.home = .seg p m ∧ x.2.state ≠ .retiring ∧ y.2.state ≠ .retiring) ∨
  ∃ m o o', x.2.home = .pair m o ∧ y.2.home = .pair m o'

/-- What C5 refuses of the entry under a number: a PRINTER that is LEARNED or has a visible number. -/
def BadC5 (t : Plan) (n : DirNo) : Prop :=
  ∃ e, look n t.entries = some e ∧ e.state ≠ .retiring ∧ e.kind = .printer ∧ (e.state = .learned ∨ e.visible ≠ none)

/-- The number for which C5 refuses a binding: a primary that is not a FIXED PRINTER; failing that (log 63), an alternate without a
primary, equal to it, or not a FIXED PRINTER. -/
def BadNumber (t : Plan) (b : Binding) (m : DirNo) : Prop :=
  (b.primary = some m ∧ ¬ PrinterAt t m) ∨
  (b.alternate = some m ∧ (b.primary = none ∨ ∃ p, b.primary = some p ∧ PrinterAt t p ∧ (¬ PrinterAt t m ∨ m = p)))

/-- What C5 asks of a directory number: its entry, and the binding of the logical printer with that number. -/
def GoodC5 (t : Plan) (n : DirNo) : Prop := ¬ BadC5 t n ∧ ∀ l : Lp, n = l.val + 2 → ∀ m, ¬ BadNumber t t.bindings[l] m

/-- What C6 asks of a directory number from 1 to 384. -/
def GoodC6 (t : Plan) (n : DirNo) : Prop :=
  (n = 1 → ∃ e, look n t.entries = some e ∧ e.state = .fixed ∧ e.kind = .bridge ∧ e.home = .internal ∧ e.visible ≠ none
    ∧ e.shown = PortSet.all ∧ e.rights = {}) ∧
  (2 ≤ n → n ≤ 9 → ∃ e, look n t.entries = some e ∧ e.state = .fixed ∧ e.kind = .spool ∧ e.home = .internal ∧ e.rights = {}) ∧
  (10 ≤ n → ∀ e, look n t.entries = some e → e.state ≠ .retiring → e.kind ≠ .bridge ∧ e.kind ≠ .spool ∧ e.home ≠ .internal)

/-- What C7 refuses of an entry: rights where it is not FIXED. -/
def BadC7 (e : Entry) : Prop := e.state ≠ .retiring ∧ e.state ≠ .fixed ∧ e.rights ≠ {}

/-- A plan passes the check with a number, on the segments given (R71). -/
def PassesCheck (segments : List Port) (t : Plan) : Nat → Prop
  | 1 => ∀ g ∈ segments, ∀ n, 1 ≤ n → n ≤ 254 → t.entries.Pairwise fun x y => ¬ ClashC1 g n x y
  | 2 => ∀ x ∈ t.entries, ¬ BadC2 x.2
  | 3 => ∀ x ∈ t.entries, ¬ BadC3 x.2
  | 4 => t.entries.Pairwise fun x y => ¬ ClashC4 x y
  | 5 => ∀ n, 1 ≤ n → n ≤ 384 → GoodC5 t n
  | 6 => ∀ n, 1 ≤ n → n ≤ 384 → GoodC6 t n
  | 7 => ∀ x ∈ t.entries, ¬ BadC7 x.2
  | _ => True

/-- The first entry of a plan that a check refuses, and the failure that names it. -/
def FirstRefused (bad : Entry → Prop) (check : Nat) (t : Plan) (f : CheckFailure) : Prop :=
  ∃ front x back, t.entries = front ++ x :: back ∧ (∀ z ∈ front, ¬ bad z.2) ∧ bad x.2 ∧ f = { check, first := x.1 }

/-- The first failure of a plan in the check with a number: segments from the first, numbers from the lowest, entries as they are listed,
which is by directory number, and entries and logical printers in one order of directory number (R71; log 39). -/
def FailsFirst (segments : List Port) (t : Plan) (f : CheckFailure) : Nat → Prop
  | 1 => ∃ before g after n front x mid y back, segments = before ++ g :: after ∧ 1 ≤ n ∧ n ≤ 254 ∧
      (∀ h ∈ before, ∀ m, 1 ≤ m → m ≤ 254 → t.entries.Pairwise fun x y => ¬ ClashC1 h m x y) ∧
      (∀ m, 1 ≤ m → m < n → t.entries.Pairwise fun x y => ¬ ClashC1 g m x y) ∧
      t.entries = front ++ x :: (mid ++ y :: back) ∧ ClashC1 g n x y ∧ (∀ z ∈ front ++ mid, ¬ ClashC1 g n z z) ∧
      f = { check := 1, segment := g.val, number := n, first := x.1, second := y.1 }
  | 2 => FirstRefused BadC2 2 t f
  | 3 => FirstRefused BadC3 3 t f
  | 4 => ∃ front x mid y back, t.entries = front ++ x :: (mid ++ y :: back) ∧ ClashC4 x y ∧ (∀ z ∈ mid, ¬ ClashC4 x z) ∧
      (∀ a z c, front = a ++ z :: c → ∀ w ∈ c ++ x :: (mid ++ y :: back), ¬ ClashC4 z w) ∧
      f = { check := 4, first := x.1, second := y.1 }
  | 5 => ∃ n, 1 ≤ n ∧ n ≤ 384 ∧ (∀ m, 1 ≤ m → m < n → GoodC5 t m) ∧
      ((BadC5 t n ∧ f = { check := 5, first := n }) ∨
       (¬ BadC5 t n ∧ ∃ (l : Lp) (m : DirNo), n = l.val + 2 ∧ BadNumber t t.bindings[l] m ∧ f = { check := 5, first := n, second := m }))
  | 6 => ∃ n, 1 ≤ n ∧ n ≤ 384 ∧ (∀ m, 1 ≤ m → m < n → GoodC6 t m) ∧ ¬ GoodC6 t n ∧ f = { check := 6, first := n }
  | 7 => FirstRefused BadC7 7 t f
  | _ => False

/-! ## A carrier frame past its filters -/

/-- A frame from the PHY that R24 and R25 let through, as the carrier frame it carries. -/
def Bridge.carries (b : Bridge) (f : EtherIn) (c : Carrier) : Prop :=
  b.pair.link = true ∧ f.fcsOk = true ∧ f.data.length ≤ 1500 ∧ (f.dst = b.settings.pairAddress ∨ f.dst = BitVec.allOnes 48)
    ∧ f.type = b.settings.carrierType ∧ f.src.getLsbD 40 = false ∧ f.src ≠ b.settings.pairAddress ∧ readCarrier f = .frame c

/-- A bridge with one more frame at the tail of the pair transmit queue (R32). -/
def Bridge.queuedPair (b : Bridge) (c : Carrier) (o : Origin) : Bridge :=
  { b with pair := { b.pair with queue := b.pair.queue ++ [{ frame := c, origin := o, serial := b.serial }] },
           serial := b.serial + 1 }

/-- A bridge in which each of several ports whose class-1 queue has room holds one more frame at its tail (R17). -/
def Bridge.queuedOn (b : Bridge) (ps : List Port) (f : CoaxFrame) : Bridge :=
  b.setPorts (Vector.ofFn fun q =>
    let x := b.port q
    if q ∈ ps ∧ x.class1.length < 24 then { x with class1 := x.class1 ++ [f] } else x)

/-- A bridge after a frame has been offered to the pair queue (R32): at its tail while the link is UP and fewer than 48 frames wait;
otherwise only the frame's number has been used. -/
def Bridge.offeredPair (b : Bridge) (c : Carrier) (o : Origin) : Bridge :=
  if b.pair.link = true ∧ b.pair.queue.length < 48 then b.queuedPair c o else b.setSerial (b.serial + 1)

/-- A bridge after a block has been offered to class 1 of each of several ports (R17). -/
def Bridge.offeredOn (b : Bridge) (ps : List Port) (blk : Block) (o : Origin) (named : Option Port) : Bridge :=
  (b.queuedOn ps { block := blk, origin := o, serial := b.serial, named }).setSerial (b.serial + 1)

/-- Class 1 of a port holds 24 frames: it refuses one more (R17). -/
def Bridge.full1 (b : Bridge) (p : Port) : Prop := 24 ≤ (b.port p).class1.length

/-! ## Records -/

/-- A memory of a given size after a record has been written into it (R16, R31): in the place of the record of the same parties, after
the others where there is room, and otherwise in the room of the record with the oldest stamp, of several the first listed (log 51). -/
def MemoryWritten {α : Type} (size : Nat) (same : α → Bool) (stamp : α → Time) (x : α) (old new : List α) : Prop :=
  ((∃ y ∈ old, same y = true) → new = old.map fun y => if same y then x else y) ∧
  ((∀ y ∈ old, same y = false) → old.length < size → new = old ++ [x]) ∧
  ((∀ y ∈ old, same y = false) → size ≤ old.length →
    ∃ front y back, old = front ++ y :: back ∧ (∀ z ∈ front, stamp y < stamp z) ∧ (∀ z ∈ back, stamp y ≤ stamp z)
      ∧ new = front ++ back ++ [x])

/-- A bridge with an exchange record opened under a tag, both its parties pinned (R106). -/
def Bridge.opened (b : Bridge) (tag : Nat) (x : Exchange) : Bridge :=
  ((b.setExchanges (put tag x b.exchanges)).modEntry x.requester fun e => { e with pins := e.pins + 1 }).modEntry x.target
    fun e => { e with pins := e.pins + 1 }

/-! ## Management answers -/

/-- The state in which a management request has been answered, its own effect having left the bridge as `b` (R181). -/
def State.answered (s : State) (a : Asker) (code selector : Nat) (r : Result) (body : AnswerBody) (b : Bridge) : State :=
  s.after [] (b.manageAnswer a (answerRecord code selector r body)).2

end Sys2Proof.Machine
end

