-- ==== Sys2Proof/Certificates/Slice0/Obligations.lean ====
section
/-! DEFINITION. The statements for the provers, one for each thing the rules of the manual say the block does. A statement about a
command gives the state it leaves as `s.after upset b`: `b` is the bridge with the command's own effect, written out, and what `after`
adds is said once, by EndOfCommandKeeps. -/

section
open Sys2Proof Sys2Proof.Machine

/-! ## Steps, runs and sound states -/

/-- A step takes the command at the front of the queue and runs it with the rest of the queue waiting; on an empty queue one word time
passes and nothing else changes (log 1). -/
def Obligations.StepRunsFrontCommand : Prop :=
  (∀ (c : Instr) (s : State), step { s with pending := c :: s.pending } = exec c s) ∧
  (∀ s : State, s.pending = [] →
    step s = .next { s with bridge := { s.bridge with ctl := { s.bridge.ctl with now := s.bridge.ctl.now + 1 } } })

/-- No run of any length stops: every command of the table gives a next state in every state. -/
def Obligations.NoRunStops : Prop := ∀ (k : Nat) (s : State), s.runs k

/-- Every step keeps a sound state sound: the store in its canonical form, nothing left to write, and the FAULT pin at its conditions
(R186; log 5). -/
def Obligations.SoundStatesStaySound : Prop := ∀ s t : State, s.sound → step s = .next t → t.sound

/-- The state after reset holds the power-on values of the manual's reset tables, with the configuration load running, no command waiting
and an empty store (log 3); it is sound, its records are sound, and its allowances are within their caps. -/
def Obligations.ResetStateIsSound : Prop :=
  PowerOnValues State.reset.bridge ∧ State.reset.bridge.ctl.phase = .loading ∧ State.reset.bridge.ctl.cause = .power
    ∧ State.reset.pending = [] ∧ State.reset.store.cells = [] ∧ State.reset.sound ∧ State.reset.allowanceSound
    ∧ State.reset.recordsSound

/-- Every step keeps every allowance between 0 and its cap, and every remainder between 0 and 99 (R96). -/
def Obligations.AllowanceStaysWithinCap : Prop :=
  ∀ s t : State, s.allowanceSound → step s = .next t → t.allowanceSound

/-- Every step keeps the records sound: the directory's entries and the exchanges stand once each by number and tag, tags lie below 16, at
most 32 edits are staged, one for an item, at most 32 jobs are in use and no two share a number (R38, R66, R100, R123, R126), and a
latched route with end UNKNOWN names the lower port of its segment (R105). The other statements' premises on entries, tags, edits, jobs
and routes hold in every such state. -/
def Obligations.RecordsStaySound : Prop := ∀ s t : State, s.recordsSound → step s = .next t → t.recordsSound

/-- What the end of a command leaves as it is, whatever the command's own effect left as the bridge `b`: the queue of commands, the clock,
settings, monitors, allowances, feeds, exchanges, staging area, link and the LINE, PAIR, EXCHANGE and MAP groups; frames only join the
tails of class 1 and of the pair queue. That what deliveries do next is done at the end of a command (log 14), and that the pair queue
keeps its head while that is handed to the PHY (log 21), are the model's choices. -/
def Obligations.EndOfCommandKeeps : Prop :=
  ∀ (s : State) (upset : List Nat) (b : Bridge), BridgeKept b (s.after upset b).bridge ∧ (s.after upset b).pending = s.pending

/-- Of the spool store's bytes, a TAKE_ARRIVAL changes those at the addresses its append names, and no other command changes any. That
POWER_ON and PIN_RESET keep the bytes (log 5) and that a changed stored bit shows in the parity alone (log 6) are the model's choices. -/
def Obligations.StoreBytesAreKept : Prop :=
  (∀ (c : Instr) (s t : State), s.written → (∀ src u, c ≠ .takeArrival src u) → exec c s = .next t →
    ∀ a, Memory.read t.store.cells a = Memory.read s.store.cells a) ∧
  (∀ (src : ArrivalSource) (u : List Nat) (s t : State), exec (.takeArrival src u) s = .next t →
    ∀ a, a ∉ (s.bridge.whenRunning (·.takeArrival src)).spool.toWrite.map (·.1) →
      Memory.read t.store.cells a = Memory.read s.store.cells a)

/-- While a power-on or pin reset holds the part, or the load runs, every command but those of the wires' carrier, the refill, the link
indication, the resets and the load changes nothing of its own: the state only settles (R192; log 2). -/
def Obligations.NothingIsTakenBeforeTheLoadEnds : Prop :=
  ∀ (c : Instr) (s : State), ¬ s.takesTraffic → c.awaitsTraffic = true → exec c s = .next (s.after c.upset s.bridge)

/-! ## Coax: receiving and sending (chapter 1) -/

/-- The receive checks in their order, with the fields of section 0.6 (R5, R6). The padding byte's reading is log 36. -/
def Obligations.ReceiveChecksInOrder : Prop :=
  (∀ burst : Burst, burst.preamble = false ∨ burst.words.length < 3 → receive burst = .dropped .fragment) ∧
  ∀ (w0 w1 last : Word) (rest : List Word) (amplitude : Nat),
    receive { preamble := true, words := w0 :: w1 :: (rest ++ [last]), amplitude } =
      if checkOf (bytesOf (w0 :: w1 :: rest)) ≠ last then .dropped .badCheck
      else if 512 < w1.toNat % 1024 ∨ rest.length ≠ w1.toNat % 1024 then .dropped .badLength
      else
        match kindOf (w1.toNat / 4096) with
        | none => .dropped .badKind
        | some kind =>
          if kind = .hello then .dropped .badKind
          else if w0.toNat % 256 = 0 ∨ w0.toNat % 256 = 255 ∨ w0.toNat / 256 = 0 then .dropped .badAddress
          else
            let blk : Block :=
              { dst := w0.toNat / 256, src := w0.toNat % 256, kind, seq := w1.toNat / 2048 % 2 = 1, pad := w1.toNat / 1024 % 2 = 1,
                payload := bytesOf rest }
            if !payloadOk blk then .dropped .badPayload
            else if blk.pad ∧ rest = [] then .dropped .badPayload else .block blk

/-- Foreign carrier begins and ends on the wire in every phase (log 25). At its end a dropped burst is counted in the port's LINE group
and nothing else; a received block joins the port's arrivals, or is discarded without a count where the port may not deliver blocks; a
port that drives the wire itself assembles nothing (R5 to R8, R163, R167). The late mark is the model's reading of R14 (log 33), and that
a port held in reset keeps no amplitude is the model's choice (log 25). -/
def Obligations.BurstsAreReceived : Prop :=
  (∀ (s : State) (p : Port), exec (.foreignCarrierStart p) s = .next (s.after [] (s.bridge.modPort p fun x =>
    { x with carrier := some (x.carrier.getD { start := s.bridge.ctl.now }), mon := { x.mon with jabberFrom := none } }))) ∧
  (∀ (s : State) (p : Port) (burst : Burst), s.bridge.ctl.phase = .running ∨ s.bridge.ctl.phase = .loading →
    (∀ c, receive burst = .dropped c → s.bridge.driving p = false →
      exec (.receiveBlock p burst) s = .next (s.after [] ((s.bridge.heard p burst).count (lineGroup p) c))) ∧
    (∀ blk, receive burst = .block blk → s.bridge.driving p = false → s.bridge.canTransmit p = true →
      ∃ late, exec (.receiveBlock p burst) s = .next (s.after [] ((s.bridge.heard p burst).modPort p fun x =>
        { x with arrivals := x.arrivals ++ [{ block := blk, late }] }))) ∧
    (∀ blk, receive burst = .block blk → s.bridge.canTransmit p = false →
      exec (.receiveBlock p burst) s = .next (s.after [] (s.bridge.heard p burst))) ∧
    (s.bridge.driving p = true → exec (.receiveBlock p burst) s = .next (s.after [] (s.bridge.heard p burst)))) ∧
  (∀ (s : State) (p : Port) (burst : Burst), s.bridge.ctl.phase = .heldPower ∨ s.bridge.ctl.phase = .heldPin →
    exec (.receiveBlock p burst) s = .next (s.after [] (s.bridge.heard p { burst with preamble := false })))

/-- A block read back from the words it is driven as is the block, and a block of p payload words is driven as p + 5 words (R1, R2,
section 0.6). A carrier frame read back from the bytes it is sent as is the frame, and no frame is sent short (R29, section 0.6). -/
def Obligations.WhatIsSentReadsBack : Prop :=
  (∀ (blk : Block) (amplitude : Nat),
    1 ≤ blk.dst → blk.dst ≤ 255 → 1 ≤ blk.src → blk.src ≤ 254 → blk.kind ≠ .hello → blk.payload.length % 2 = 0 →
    blk.payload.length ≤ 1024 → payloadOk blk = true → ¬ (blk.pad = true ∧ blk.payload = []) →
    blk.wire.length = blk.payload.length / 2 + 5 ∧
    receive { preamble := true, words := blk.wire.drop 2, amplitude } = .block blk) ∧
  (∀ (c : Carrier) (dst : Mac) (type : Nat),
    c.reason ≤ 255 → c.tag ≤ 65535 → c.dst ≤ 65535 → c.src ≤ 65535 → c.data.length ≤ 1024 → carrierOk c = true →
    46 ≤ c.bytes.length ∧ readCarrier { fcsOk := true, dst, src := c.mac, type, data := c.bytes } = .frame c)

/-- An attempt begins exactly when R8 lets it: the port able to transmit, no attempt and no backoff, no carrier, four quiet word times,
and no quiet window or probe holding the end back (R175, R176, R179). Class 0 goes first; the head of class 1 goes when it is charged or
its cost is covered, and is charged once, at its first attempt (R8, R98). -/
def Obligations.AttemptStartDrivesTheChosenFrame : Prop :=
  ∀ (s : State) (p : Port), s.takesTraffic →
    (s.bridge.mayAttempt p = true ↔
      s.bridge.canTransmit p = true ∧ s.bridge.heldByFeed p = false ∧ (s.bridge.port p).attempt = none
      ∧ (s.bridge.port p).backoff = none ∧ (s.bridge.port p).carrier = none
      ∧ (s.bridge.port p).quietFrom + 4 ≤ s.bridge.ctl.now) ∧
    (∀ f rest, s.bridge.mayAttempt p = true → (s.bridge.port p).class0 = f :: rest →
      exec (.attemptStart p) s = .next (s.after [] (s.bridge.modPort p fun x =>
        { x with attempt := some { class0 := true, start := s.bridge.ctl.now, words := f.block.wire } }))) ∧
    (∀ f rest, s.bridge.mayAttempt p = true → (s.bridge.port p).class0 = [] → (s.bridge.port p).class1 = f :: rest →
      f.charged = true ∨ f.block.payload.length / 2 + 9 ≤ (s.bridge.port p).allowance →
      exec (.attemptStart p) s = .next (s.after [] (s.bridge.modPort p fun x =>
        { x with attempt := some { class0 := false, start := s.bridge.ctl.now, words := f.block.wire },
                 class1 := { f with charged := true } :: rest,
                 allowance := if f.charged then x.allowance else x.allowance - (f.block.payload.length / 2 + 9) }))) ∧
    (s.bridge.mayAttempt p = false ∨ ((s.bridge.port p).class0 = [] ∧ ∀ f rest, (s.bridge.port p).class1 = f :: rest →
        f.charged = false ∧ (s.bridge.port p).allowance < f.block.payload.length / 2 + 9) →
      exec (.attemptStart p) s = .next (s.after [] s.bridge))

/-- A collision before the eighth failed attempt raises the frame's attempt count and starts a backoff of some whole number of slots below
2 to the smaller of the attempt and 6; at the eighth the frame leaves its queue, EXCESS_COLLISION is counted, and the loss is reported. A
backoff that has ended lets the port select again (R9). The loss of a copy counts for nothing while another copy waits or has been sent;
otherwise the frame's originator acts: the forwarding engine counts FLUSHED after a flush, a feed controller RELAY_LOST, the exchange
table and the delivery unit take the try as made without an answer, a status query is given up, and the agent, the notices and the job
notices count theirs (R11, R108, R133, R148, R149, R177, R178, R181, R187). A flush empties the queues and abandons the attempt; its
class-1 frames are reported oldest first, of copies flushed together the last one, and then the tries of the LISTED frames end (R19). The
draw is a free value (log 7); the backoff is counted from the end of the jam (log 22), a freed place is offered before the loss is
reported (log 42), the last of copies flushed together reports (log 29), the loss of an older handover of a frame or question is ignored
(log 69), and of two ports flushed together the lower one's reports come first (log 76): the model's choices. -/
def Obligations.CollisionBacksOffOrDiscards : Prop :=
  (∀ (s : State) (p : Port), s.takesTraffic →
    (∀ a f rest, (s.bridge.port p).attempt = some a → a.class0 = true → (s.bridge.port p).class0 = f :: rest → f.attempts < 8 →
      ∃ draw < 2 ^ min f.attempts 6,
        exec (.collision p) s = .next (s.after [] ((s.bridge.modPort p fun x =>
          { x with attempt := none, quietFrom := s.bridge.ctl.now + 2, backoff := some (s.bridge.ctl.now + 2 + 32 * draw),
                   class0 := { f with attempts := f.attempts + 1 } :: rest }).setDrawCount (s.bridge.drawCount + 1)))) ∧
    (∀ a f rest, (s.bridge.port p).attempt = some a → a.class0 = false → (s.bridge.port p).class1 = f :: rest → f.attempts < 8 →
      ∃ draw < 2 ^ min f.attempts 6,
        exec (.collision p) s = .next (s.after [] ((s.bridge.modPort p fun x =>
          { x with attempt := none, quietFrom := s.bridge.ctl.now + 2, backoff := some (s.bridge.ctl.now + 2 + 32 * draw),
                   class1 := { f with attempts := f.attempts + 1 } :: rest }).setDrawCount (s.bridge.drawCount + 1)))) ∧
    (∀ a f rest, (s.bridge.port p).attempt = some a → a.class0 = true → (s.bridge.port p).class0 = f :: rest → 8 ≤ f.attempts →
      exec (.collision p) s = .next (s.after [] (((s.bridge.modPort p fun x =>
        { x with attempt := none, quietFrom := s.bridge.ctl.now + 2, class0 := rest }).count (lineGroup p)
          .excessCollision).frameLost .collisions f))) ∧
    (∀ a f rest, (s.bridge.port p).attempt = some a → a.class0 = false → (s.bridge.port p).class1 = f :: rest → 8 ≤ f.attempts →
      exec (.collision p) s = .next (s.after [] ((((s.bridge.modPort p fun x =>
        { x with attempt := none, quietFrom := s.bridge.ctl.now + 2, class1 := rest }).count (lineGroup p)
          .excessCollision).offerPlace p (s.bridge.port p).waiting).frameLost .collisions f))) ∧
    ((s.bridge.port p).attempt = none → exec (.collision p) s = .next (s.after [] s.bridge)) ∧
    (∀ t, (s.bridge.port p).backoff = some t → t ≤ s.bridge.ctl.now →
      exec (.backoffEnd p) s = .next (s.after [] (s.bridge.modPort p fun x => { x with backoff := none }))) ∧
    (∀ t, (s.bridge.port p).backoff = some t → s.bridge.ctl.now < t → exec (.backoffEnd p) s = .next (s.after [] s.bridge))) ∧
  (∀ (b : Bridge) (cause : LossCause) (f : CoaxFrame),
    let waits := ∃ p, ∃ g ∈ (b.port p).class0 ++ (b.port p).class1, g.serial = f.serial
    (f.siblingSent = true ∨ waits → b.frameLost cause f = b) ∧
    (f.siblingSent = false → ¬ waits → b.frameLost cause f = b.lossReport cause f.origin f.serial)) ∧
  (∀ (b : Bridge) (cause : LossCause) (k : Nat),
    let report := fun o => b.lossReport cause o k
    (cause = .flushed → report .forward = b.countForward .flushed) ∧ (cause = .collisions → report .forward = b) ∧
    (∀ i, report (.relay i) = b.countFeed i .relayLost) ∧
    (∀ tag, (∀ x, b.exchange tag = some x → x.state ≠ .opened .queued ∨ x.sending ≠ k) → report (.request tag) = b) ∧
    (∀ tag x, b.exchange tag = some x → x.state = .opened .queued → x.sending = k →
      (x.tries < 3 → report (.request tag) = (b.modExchange tag fun y => { y with tries := y.tries + 1 }).resendQuestion tag) ∧
      (3 ≤ x.tries → report (.request tag) =
        ((b.answer (Exchange.asker x) (.fail .noAnswer 0) true).closeExchange tag).count 5 .noAnswer)) ∧
    (∀ l, (∀ d f, b.record l = some d → d.frame = some f → d.phase ≠ .queued ∨ f.serial ≠ k) → report (.delivery l) = b) ∧
    (∀ l d f, b.record l = some d → d.phase = .queued → d.frame = some f → f.serial = k → report (.delivery l) = b.tryEnds l) ∧
    (∀ n, (∀ r q w, b.printer n = some r → r.question ≠ .query q k w) → report (.query n) = b) ∧
    (∀ n r q w, b.printer n = some r → r.question = .query q k w →
      report (.query n) = b.modPrinter n fun y => { y with question := .none }) ∧
    report .agent = (let c := b.modAgent fun x => { x with answerLost := min 65535 (x.answerLost + 1) }
      c.setCtl { c.ctl with waiting := c.ctl.waiting.map fun w => if w.answer = k then { w with reported := true } else w }) ∧
    (report .notice = b.modReporting fun x => { x with noticeDropped := min 65535 (x.noticeDropped + 1) }) ∧
    report .jobNotice = b.count 7 .noticeLost ∧ report .answer = b) ∧
  (∀ (b : Bridge) (l : Lp) (d : Delivery), b.record l = some d →
    (d.tries < 3 → b.tryEnds l = b.setRecord l
      (some { d with phase := .pacing, tries := d.tries + 1, frame := d.frame.map fun f => { f with built := none } })) ∧
    (3 ≤ d.tries → b.tryEnds l = ((b.modPrinter d.target fun r =>
      { r with status := .notResponding,
               pollFrom := if (b.entry d.target).any (·.reachable) then some b.ctl.now else none }).countDelivery .noResponse).stop l)) ∧
  (∀ (b : Bridge) (p : Port), b.takeFlush p =
    ({ port := p, frames := (b.port p).class1, waiting := (b.port p).waiting },
     b.modPort p fun x => { x with class0 := [], class1 := [], attempt := none, backoff := none, waiting := [],
                                   quietFrom := if x.attempt ≠ none ∨ b.ctl.now < x.quietFrom then b.ctl.now else x.quietFrom })) ∧
  (∀ (b : Bridge) (l : List Flush), b.reportFlush l =
    l.foldl (fun c x => x.waiting.foldl (fun c w => c.listedFlushed x.port w) c) (b.framesFlushed (l.flatMap (·.frames)))) ∧
  (∀ (b : Bridge) (f : CoaxFrame) (rest : List CoaxFrame), b.framesFlushed [] = b ∧
    ((∃ g ∈ rest, g.serial = f.serial) → b.framesFlushed (f :: rest) = b.framesFlushed rest) ∧
    ((∀ g ∈ rest, g.serial ≠ f.serial) → b.framesFlushed (f :: rest) = (b.frameLost .flushed f).framesFlushed rest)) ∧
  (∀ (b : Bridge) (p : Port) (l : Lp),
    let listed := ∃ d f y, b.record l = some d ∧ d.phase = .listed ∧ d.frame = some f ∧ f.built = some y ∧
      (d.route = .port p ∨ ∃ q, d.route = .unknownEnd q ∧ pairOf q = pairOf p)
    (listed → b.listedFlushed p l = b.tryEnds l) ∧ (¬ listed → b.listedFlushed p l = b))

/-- When the check word has been driven, the frame leaves its queue, its echo is to be measured, and it is reported sent: the first report
of an exchange's question that waits for it opens the 4 ms answer window (R10, R14, R107, R164). A report marks the copies that still
wait, and only a frame's first one is passed on (R177): a question waits in WINDOW, or AWAITING on the pair side; a delivery's frame and a
status query have their windows of 4 ms, or 50 ms on the pair side; the answer of a waiting reset is reported; for any other originator
nothing follows (R10, R32, R107, R109, R144, R149, R190). That a freed place is offered to the waiting list before the report (log 42),
that the first sent of a frame's copies reports by a number of the model's own (log 29), and that the report of an older handover of a
frame or question is ignored (log 69), are the model's choices. -/
def Obligations.SendCompleteReportsTheFrame : Prop :=
  (∀ (s : State) (p : Port) (a : Attempt), s.takesTraffic → (s.bridge.port p).attempt = some a →
    (∀ f rest, a.start + a.words.length ≤ s.bridge.ctl.now → a.class0 = true → (s.bridge.port p).class0 = f :: rest →
      exec (.sendComplete p) s = .next (s.after [] ((s.bridge.modPort p fun x =>
        { x with attempt := none, quietFrom := s.bridge.ctl.now, mon := { x.mon with echoDue := true },
                 class0 := rest }).frameSent f))) ∧
    (∀ f rest, a.start + a.words.length ≤ s.bridge.ctl.now → a.class0 = false → (s.bridge.port p).class1 = f :: rest →
      exec (.sendComplete p) s = .next (s.after [] (((s.bridge.modPort p fun x =>
        { x with attempt := none, quietFrom := s.bridge.ctl.now, mon := { x.mon with echoDue := true },
                 class1 := rest }).offerPlace p (s.bridge.port p).waiting).frameSent f))) ∧
    (∀ f rest tag x, a.start + a.words.length ≤ s.bridge.ctl.now → a.class0 = false → (s.bridge.port p).class1 = f :: rest →
      f.origin = .request tag → f.siblingSent = false → s.bridge.exchange tag = some x → x.state = .opened .queued →
      x.sending = f.serial →
      ∃ t, exec (.sendComplete p) s = .next t ∧
        t.bridge.exchange tag = some { x with state := .opened (.window (s.bridge.ctl.now + 500)) }) ∧
    (s.bridge.ctl.now < a.start + a.words.length → exec (.sendComplete p) s = .next (s.after [] s.bridge))) ∧
  (∀ (b : Bridge) (f : CoaxFrame),
    let mark := fun l : List CoaxFrame => l.map fun g => if g.serial = f.serial then { g with siblingSent := true } else g
    let c := b.setPorts (b.ports.map fun x => { x with class0 := mark x.class0, class1 := mark x.class1 })
    b.frameSent f = if f.siblingSent then c else c.sendReport f.origin f.serial false) ∧
  (∀ (b : Bridge) (k : Nat) (onPair : Bool),
    let report := fun o => b.sendReport o k onPair
    let closes := b.ctl.now + if onPair then 6250 else 500
    (∀ tag, (∀ x, b.exchange tag = some x → x.state ≠ .opened .queued ∨ x.sending ≠ k) → report (.request tag) = b) ∧
    (∀ tag x, b.exchange tag = some x → x.state = .opened .queued → x.sending = k →
      report (.request tag) = b.modExchange tag fun y =>
        { y with state := .opened (if onPair then .awaiting else .window closes) }) ∧
    (∀ l, (∀ d f, b.record l = some d → d.frame = some f → d.phase ≠ .queued ∨ f.serial ≠ k) → report (.delivery l) = b) ∧
    (∀ l d f, b.record l = some d → d.phase = .queued → d.frame = some f → f.serial = k →
      report (.delivery l) = b.setRecord l (some { d with phase := .window closes })) ∧
    (∀ n, (∀ r q, b.printer n = some r → r.question ≠ .query q k none) → report (.query n) = b) ∧
    (∀ n r q, b.printer n = some r → r.question = .query q k none →
      report (.query n) = b.modPrinter n fun y => { y with question := .query q k (some closes) }) ∧
    ((∀ w, b.ctl.waiting = some w → w.answer ≠ k) → report .agent = b) ∧
    (∀ w, b.ctl.waiting = some w → w.answer = k →
      report .agent = b.setCtl { b.ctl with waiting := some { w with reported := true } }) ∧
    report .forward = b ∧ (∀ i, report (.relay i) = b) ∧ report .notice = b ∧ report .jobNotice = b ∧ report .answer = b)

/-- The repeat memories. A print request whose record holds a REPLY or FAIL under its kind and sequence is answered from it and has no
other effect; any other is answered by the spool, the answer is written into the memory, and the request then takes its effect (R15, R16,
R30, R31). An answer goes to class 0 of the arrival port, a REPLY of more than 4 bytes to class 1, an answer to a pair asker on the pair
queue (R12, R13, R17, R32). A record is freed when its update is 1 s old, and only the record named (R16, R31). That of records of one
oldest time the first listed is replaced (log 51), and that the answer is placed before the effect of a request other than a close (R129;
log 75), are the model's choices. -/
def Obligations.RepeatMemoriesAnswerAndExpire : Prop :=
  (∀ (s : State) (segment : Port) (asker dst : Nat), s.takesTraffic →
    exec (.repeatMemoryExpire segment asker dst) s = .next (s.after [] (s.bridge.setRepeats (s.bridge.repeats.filter fun r =>
      ¬ (r.segment = segment ∧ r.asker = asker ∧ r.dst = dst ∧ r.updated + 125000 ≤ s.bridge.ctl.now))))) ∧
  (∀ (s : State) (asker : DirNo) (dst tag : Nat), s.takesTraffic →
    exec (.pairRepeatExpire asker dst tag) s = .next (s.after [] (s.bridge.modPair fun x =>
      { x with repeats := x.repeats.filter fun r =>
          ¬ (r.asker = asker ∧ r.dst = dst ∧ r.tag = tag ∧ r.updated + 125000 ≤ s.bridge.ctl.now) }))) ∧
  (∀ (b : Bridge) (p : Port) (src dst : Nat) (seq : Bool) (owner : DirNo) (l : Lp) (k : Kind) (order : Order) (data : List Byte),
    let a := Asker.coax p src dst seq (some owner)
    let same := fun r : Repeat => r.segment = b.segmentOf p && r.asker = src && r.dst = dst
    let y := b.judgePrint owner l k order data
    (∀ front r back, b.repeats = front ++ r :: back → (∀ z ∈ front, same z = false) → same r = true → r.kind = k → r.seq = seq →
      (∃ d, r.answer = .reply d) ∨ (∃ f d, r.answer = .fail f d) →
      b.printRequest a owner l k order data = b.answer a r.answer) ∧
    ((∀ r ∈ b.repeats, same r = true → r.kind = k → r.seq = seq → r.answer = .busy ∨ ∃ t, r.answer = .hold t) →
      ∃ m, MemoryWritten 16 same (·.updated)
          { segment := b.segmentOf p, asker := src, dst, kind := k, seq, answer := y.1, updated := b.ctl.now } b.repeats m ∧
        b.printRequest a owner l k order data = y.2 ((b.answer a y.1).setRepeats m))) ∧
  (∀ (b : Bridge) (mac : Mac) (dst tag : Nat) (seq : Byte) (owner : DirNo) (l : Lp) (k : Kind) (order : Order) (data : List Byte),
    let a := Asker.pair mac dst tag seq (some owner)
    let same := fun r : PairRepeat => r.asker = owner && r.dst = dst && r.tag = tag
    let y := b.judgePrint owner l k order data
    (∀ front r back, b.pair.repeats = front ++ r :: back → (∀ z ∈ front, same z = false) → same r = true → r.kind = k →
      r.seq = seq → (∃ d, r.answer = .reply d) ∨ (∃ f d, r.answer = .fail f d) →
      b.printRequest a owner l k order data = b.answer a r.answer) ∧
    ((∀ r ∈ b.pair.repeats, same r = true → r.kind = k → r.seq = seq → r.answer = .busy ∨ ∃ t, r.answer = .hold t) →
      ∃ m, MemoryWritten 8 same (·.updated)
          { asker := owner, dst, tag, kind := k, seq, answer := y.1, updated := b.ctl.now } b.pair.repeats m ∧
        b.printRequest a owner l k order data = y.2 ((b.answer a y.1).modPair fun x => { x with repeats := m }))) ∧
  (∀ (b : Bridge) (p : Port) (src dst : Nat) (seq : Bool) (e : Option DirNo) (x : Answer) (route : Bool),
    let a := Asker.coax p src dst seq e
    let c := b.setSerial (b.serial + 1)
    let f : CoaxFrame :=
      { block := Block.build src dst x.kind seq x.content, origin := .answer, serial := b.serial,
        named := if route then some p else none }
    ((∀ d, x = .reply d → d.length ≤ 4) → b.answer a x route =
      if (b.port p).class0.length < 8 then c.modPort p fun y => { y with class0 := y.class0 ++ [f] }
      else c.count (lineGroup p) .answerDropped) ∧
    (∀ d, x = .reply d → 4 < d.length → b.answer a x route =
      if (b.port p).class1.length < 24 then c.modPort p fun y => { y with class1 := y.class1 ++ [f] } else c)) ∧
  (∀ (b : Bridge) (mac : Mac) (dst tag : Nat) (seq : Byte) (e : Option DirNo) (x : Answer) (route : Bool),
    let c := b.offeredPair { mac, kind := x.kind, reason := x.reason, seq, tag, dst := e.getD 0, src := dst, data := x.data } .answer
    b.answer (.pair mac dst tag seq e) x route =
      if b.pair.link = true ∧ 48 ≤ b.pair.queue.length then c.count 4 .answerDropped else c) ∧
  (∀ (d : List Byte) (t k : Nat) (r : FailReason),
    ((Answer.reply d).kind = .reply ∧ (Answer.reply d).content = d ∧ (Answer.reply d).data = d ∧ (Answer.reply d).reason = 0) ∧
    ((Answer.hold t).kind = .hold ∧ (Answer.hold t).content = bytes16 t ∧ (Answer.hold t).data = bytes16 t
      ∧ (Answer.hold t).reason = 0) ∧
    (Answer.busy.kind = .busy ∧ Answer.busy.content = [] ∧ Answer.busy.data = [] ∧ Answer.busy.reason = 0) ∧
    ((Answer.fail r k).kind = .fail ∧ (Answer.fail r k).content = [BitVec.ofNat 8 r.code, BitVec.ofNat 8 k]
      ∧ (Answer.fail r k).data = (if k = 0 then [] else [BitVec.ofNat 8 k]) ∧ (Answer.fail r k).reason = r.code))

/-- Every 1 ms the allowance of every port is refilled by its share, whatever the port's state and whether or not frames wait: R rises by
125 times S, F is the whole part of R over 100, R falls by 100 times F, and A becomes the smaller of A + F and the cap. -/
def Obligations.AllowanceIsRefilledEachMillisecond : Prop :=
  ∀ s : State, s.bridge.ctl.phase = .running ∨ s.bridge.ctl.phase = .loading →
    (s.bridge.refillDue ≤ s.bridge.ctl.now →
      exec .allowanceRefill s = .next (s.after []
        { s.bridge with
          refillDue := s.bridge.refillDue + 125,
          ports := Vector.ofFn fun p =>
            let x := s.bridge.port p
            let r := x.remainder + 125 * (s.bridge.portSettings p).share
            { x with remainder := r - 100 * (r / 100),
                     allowance := min (x.allowance + r / 100) (s.bridge.portSettings p).cap } })) ∧
    (s.bridge.ctl.now < s.bridge.refillDue → exec .allowanceRefill s = .next (s.after [] s.bridge))

/-! ## The pair port (chapter 2) -/

/-- The link indication: it starts the 500 ms wait while the link is DOWN, a break ends the wait, and 500 ms without a break bring the
link UP, with the reach of the entries recomputed. From UP, LINK_DOWN takes the link DOWN with its queue, frame in hand, waiting list and
repeat memory empty: reach follows, and the poll timers of silent printers with it (log 70), the exchanges and deliveries with a PAIR
route are closed and stopped (R115, R153), LINK_LOST is counted and captured, the queued frames are reported not sent, oldest first, and
the tries of LISTED frames end (R22, R23, R33, R59). Before the load has ended the indication is only kept (log 25), an indication that
comes where one is present begins the wait anew (log 43), and R23 gives its effects no order: that exchanges, deliveries and LINK_LOST
come before the reports of the frames (log 50), and that lost deliveries stop by rising logical printer, each with its offers before the
next (log 71), are, like the others, the model's choices. -/
def Obligations.LinkFollowsItsIndication : Prop :=
  (∀ s : State, exec .linkIndicationOn s = .next (s.after [] (s.bridge.modPair fun x =>
    { x with indication := true,
             waitFrom := if s.bridge.ctl.phase = .running ∧ x.link = false then some s.bridge.ctl.now else x.waitFrom }))) ∧
  (∀ s : State, s.bridge.pair.link = false →
    exec .linkIndicationBreak s = .next (s.after [] (s.bridge.modPair fun x => { x with indication := false, waitFrom := none }))) ∧
  (∀ s : State, s.bridge.pair.link = true → exec .linkIndicationBreak s = .next (s.after [] s.bridge)) ∧
  (∀ (s : State) (t : Time), s.takesTraffic → s.bridge.pair.link = false → s.bridge.pair.waitFrom = some t →
    t + 62500 ≤ s.bridge.ctl.now →
    exec .linkUp s = .next (s.after [] (s.bridge.modPair fun x => { x with link := true, waitFrom := none }).refreshReach)) ∧
  (∀ (s : State), s.takesTraffic → s.bridge.pair.link = true ∨ s.bridge.pair.waitFrom = none →
    exec .linkUp s = .next (s.after [] s.bridge)) ∧
  (∀ (s : State) (t : Time), s.takesTraffic → s.bridge.pair.waitFrom = some t → s.bridge.ctl.now < t + 62500 →
    exec .linkUp s = .next (s.after [] s.bridge)) ∧
  (∀ s : State, s.bridge.pair.link = true →
    ∃ t, exec .linkDown s = .next t ∧ t.bridge.pair.link = false ∧ t.bridge.pair.queue = [] ∧ t.bridge.pair.handing = none
      ∧ t.bridge.pair.waiting = [] ∧ t.bridge.pair.repeats = [] ∧ t.pending = s.pending
      ∧ t.bridge.ctl.now = s.bridge.ctl.now ∧ t.bridge.ctl.phase = s.bridge.ctl.phase ∧ t.bridge.ctl.cause = s.bridge.ctl.cause
      ∧ t.bridge.ctl.secondsFrom = s.bridge.ctl.secondsFrom
      ∧ t.bridge.settings = s.bridge.settings ∧ ∀ q, t.bridge.mon q = s.bridge.mon q) ∧
  (∀ s : State, s.bridge.pair.link = false →
    exec .linkDown s = .next (s.after [] (s.bridge.modPair fun x => { x with indication := false, waitFrom := none }))) ∧
  (∀ s : State, s.bridge.pair.link = true →
    let empty := (s.bridge.modPair fun x => { x with link := false, indication := false, waitFrom := none, queue := [],
                                                     handing := none, waiting := [], repeats := [] }).refreshReach
    let lost := (empty.exchangeLosses onPair).deliveryLosses onPair
    let counted := (lost.count 4 .linkLost).capture 4 .linkLost .none
    exec .linkDown s = .next (s.after []
      (s.bridge.pair.waiting.foldl Bridge.listedPairFlushed (s.bridge.pair.queue.foldl Bridge.pairFrameLost counted)))) ∧
  (∀ s : State, s.bridge.pair.link = true → ∃ t, exec .linkDown s = .next t ∧ t.bridge.group 4 =
    { counters := (s.bridge.group 4).counters.map fun y => if y.1 = .linkLost then (y.1, min 65535 (y.2 + 1)) else y,
      first := some ((s.bridge.group 4).first.getD
        { kind := .linkLost, time := min ((s.bridge.ctl.now - s.bridge.ctl.secondsFrom) / 125000) 4294967295, detail := .none }),
      multiple := (s.bridge.group 4).multiple || (s.bridge.group 4).first.isSome }) ∧
  (∀ r : Route, onPair r = true ↔ ∃ mac, r = .pair mac) ∧
  (∀ (b : Bridge) (concerns : Route → Bool), b.deliveryLosses concerns = (List.finRange 8).foldl (fun c l =>
    match c.record l with
    | some d => if concerns d.route = true ∧ c.routeCan d.route = false then c.stop l else c
    | none => c) b) ∧
  (∀ (b : Bridge) (l : Lp),
    let listed := ∃ d f y mac, b.record l = some d ∧ d.phase = .listed ∧ d.frame = some f ∧ f.built = some y ∧ d.route = .pair mac
    (listed → b.listedPairFlushed l = b.tryEnds l) ∧ (¬ listed → b.listedPairFlushed l = b))

/-- The reach of an entry follows its home: INTERNAL always; PAIR with the link; a port on its own while ACTIVE; on the lower port of a
paired segment by its end, UNKNOWN meaning either; the upper port of one never (R58). At a report every entry's reach is computed anew,
and nothing else changes but the poll timers of silent printers: from 0 where the printer becomes REACHABLE (R59, R150), and stopped where
it becomes UNREACHABLE, the model's choice (log 70). -/
def Obligations.ReachFollowsTheHome : Prop :=
  ∀ (b : Bridge) (e : Entry),
    (e.home = .internal → b.reachOf e = true) ∧
    (∀ mac order, e.home = .pair mac order → b.reachOf e = b.pair.link) ∧
    (∀ p n, e.home = .seg p n → b.paired p = false → (b.reachOf e = true ↔ (b.mon p).state = .active)) ∧
    (∀ i n, e.home = .seg (lowerOf i) n → b.paired (lowerOf i) = true →
      b.reachOf e = match e.endField with
        | some .a => b.canTransmit (lowerOf i)
        | some .b => b.canTransmit (upperOf i)
        | _ => b.canTransmit (lowerOf i) || b.canTransmit (upperOf i)) ∧
    (∀ i n, e.home = .seg (upperOf i) n → b.paired (upperOf i) = true → b.reachOf e = false) ∧
    (∀ n, (b.refreshReach.entry n) = (b.entry n).map fun e => { e with reachable := b.reachOf e }) ∧
    (∀ n, (b.refreshReach.printer n) = (b.printer n).map fun r =>
      match b.entry n with
      | some x =>
        if r.status = .notResponding ∧ x.reachable = false ∧ b.reachOf x = true then { r with pollFrom := some b.ctl.now }
        else if r.status = .notResponding ∧ x.reachable = true ∧ b.reachOf x = false then { r with pollFrom := none } else r
      | none => r) ∧
    { b.refreshReach with dir := { b.refreshReach.dir with entries := b.dir.entries },
                          delivery := { b.refreshReach.delivery with printers := b.delivery.printers } } = b

/-- A frame that the PHY delivers meets its filters in their order (R24), and then the header checks of a carrier frame in theirs (R25).
With them stands what the checks are made of: the kinds, FAIL reasons and STATUS codes by their codes, the value checks of a block (R3,
R4) and of a carrier frame (R25), and the check word, bit by bit (R2). A kind byte of 16 or more is read as BAD_KIND, and a padding byte
as 0: the model's choices (log 36). -/
def Obligations.PairFramesAreCheckedInOrder : Prop :=
  (∀ (s : State) (f : EtherIn), s.takesTraffic →
    exec (.pairFrameReceive f) s = .next (s.after []
      (let b := s.bridge
       if b.pair.link = false then b
       else if f.fcsOk = false then b.count 4 .badFcs
       else if 1500 < f.data.length then b.count 4 .malformed
       else if f.dst ≠ b.settings.pairAddress ∧ f.dst ≠ BitVec.allOnes 48 then b
       else if f.type ≠ b.settings.carrierType then b
       else if f.src.getLsbD 40 = true ∨ f.src = b.settings.pairAddress then b.count 4 .badAddress
       else
         match readCarrier f with
         | .dropped c => b.count 4 c
         | .frame c => b.knowSender c))) ∧
  (∀ f : EtherIn,
    let byte := fun i => (f.data.getD i 0).toNat
    let len := byte 10 * 256 + byte 11
    (f.data.length < 12 ∨ byte 0 ≠ 1 ∨ 1024 < len ∨ f.data.length - 12 < len → readCarrier f = .dropped .malformed) ∧
    (12 ≤ f.data.length → byte 0 = 1 → len ≤ 1024 → len ≤ f.data.length - 12 →
      (kindOf (byte 1) = none → readCarrier f = .dropped .badKind) ∧
      ∀ kind, kindOf (byte 1) = some kind →
        let c : Carrier :=
          { mac := f.src, kind, reason := byte 2, seq := f.data.getD 3 0, tag := byte 4 * 256 + byte 5,
            dst := byte 6 * 256 + byte 7, src := byte 8 * 256 + byte 9, data := (f.data.drop 12).take len }
        readCarrier f = if carrierOk c then .frame c else .dropped .badPayload)) ∧
  (∀ n, kindOf n = [Kind.data, .request, .reply, .hold, .busy, .fail, .printOpen, .printData, .printClose, .status, .manage, .notice,
    .hello][n]?) ∧
  (∀ n k, kindOf n = some k → k.code = n) ∧
  ([FailReason.timeout, .unreachable, .noAnswer, .refused, .sequence, .tooLarge, .reset, .notOwner, .unknownJob, .full,
    .targetFailed].map FailReason.code = [1, 2, 3, 4, 5, 6, 7, 8, 9, 10, 11]) ∧
  (∀ n, statusOf n = if n = 0 then none else [StatusCode.ready, .busy, .paperOut, .offline][n - 1]?) ∧
  (∀ blk : Block,
    let words := blk.payload.length / 2
    let byte := fun i => (blk.content.getD i 0).toNat
    payloadOk blk = true ↔
      match blk.kind with
      | .hold => 1 ≤ words
      | .fail => 1 ≤ words ∧ 1 ≤ byte 0 ∧ byte 0 ≤ 11
      | .printOpen => 1 ≤ words ∧ byte 1 ≤ 1
      | .printData | .printClose => 2 ≤ words
      | .manage => 3 ≤ words
      | .status => words = 0 ∨ 1 ≤ byte 0 * 256 + byte 1 ∧ byte 0 * 256 + byte 1 ≤ 4
      | _ => True) ∧
  (∀ c : Carrier, carrierOk c = true ↔
    match c.kind with
    | .hold => 2 ≤ c.data.length
    | .fail => 1 ≤ c.reason ∧ c.reason ≤ 11
    | .printOpen => 2 ≤ c.data.length ∧ (c.data.getD 1 0).toNat ≤ 1
    | .printData | .printClose => 4 ≤ c.data.length
    | .manage => 6 ≤ c.data.length
    | .status => c.reason ≤ 4
    | _ => True) ∧
  (∀ l : List Byte, checkOf l =
    (l.flatMap fun x => (List.range 8).map fun i => x.getLsbD (7 - i)).foldl
      (fun (c : Word) bit => if c.msb ≠ bit then (c <<< 1) ^^^ 0x1021#16 else c <<< 1) 0xFFFF#16)

/-- A frame from a known MAC sets its entry's age to 0, counts SOURCE_MISMATCH where its source field is neither 0 nor that entry, and
joins the arrivals with that entry as its source; a frame other than HELLO from an unknown MAC is counted UNKNOWN_SOURCE, but for the
setup state's MANAGE to entry 1 (R26, R27). The late mark is the model's reading of R14 (log 33). -/
def Obligations.KnownHostFrameIsHandedOn : Prop :=
  ∀ (s : State) (f : EtherIn) (c : Carrier), s.takesTraffic → s.bridge.carries f c → c.kind ≠ .hello →
    (∀ n e, findMac s.bridge.dir.entries c.mac = some (n, e) →
      ∃ late, exec (.pairFrameReceive f) s = .next (s.after []
        ((if c.src = 0 ∨ c.src = n then s.bridge.modEntry n fun x => { x with age := 0 }
          else (s.bridge.modEntry n fun x => { x with age := 0 }).count 4 .sourceMismatch).modPair fun x =>
            { x with arrivals := x.arrivals ++ [{ frame := c, source := n, late }] }))) ∧
    (findMac s.bridge.dir.entries c.mac = none → ¬ (s.bridge.agent.setup = true ∧ c.kind = .manage ∧ c.dst = 1) →
      exec (.pairFrameReceive f) s = .next (s.after [] (s.bridge.count 4 .unknownSource))) ∧
    (findMac s.bridge.dir.entries c.mac = none → s.bridge.agent.setup = true → c.kind = .manage → c.dst = 1 →
      exec (.pairFrameReceive f) s =
        .next (s.after [] (s.bridge.manageRecord (.pair c.mac c.dst c.tag c.seq none) c.data)))

/-- A HELLO from an unknown MAC, with pair learning ON and no RETIRING entry holding the MAC, takes the lowest FREE entry from 10 up as a
LEARNED STATION and is answered with its number; a known host is answered with the number it has; learning OFF or a RETIRING entry's MAC
is refused FAIL REFUSED (R28, R29, R50). The answers are written out for a pair queue with room; destination field 0 in a FAIL is the
model's choice (log 40). A directory without a FREE entry is in ErrorsAreCapturedAndNoticed. -/
def Obligations.HelloTakesTheLowestFreeEntry : Prop :=
  ∀ (s : State) (f : EtherIn) (c : Carrier), s.takesTraffic → s.bridge.carries f c → c.kind = .hello →
    s.bridge.pair.queue.length < 48 →
    (∀ n e, findMac s.bridge.dir.entries c.mac = some (n, e) →
      exec (.pairFrameReceive f) s = .next (s.after [] ((s.bridge.modEntry n fun x => { x with age := 0 }).queuedPair
        { mac := c.mac, kind := .hello, seq := c.seq, tag := c.tag, dst := n, src := 1 } .answer))) ∧
    (∀ n, findMac s.bridge.dir.entries c.mac = none → retiringMac s.bridge.dir.entries c.mac = false →
      s.bridge.settings.pairLearning = true → 10 ≤ n → n ≤ 384 → s.bridge.entry n = none →
      (∀ m, 10 ≤ m → m < n → s.bridge.entry m ≠ none) →
      exec (.pairFrameReceive f) s = .next (s.after [] ((s.bridge.modEntries (put n
        { state := .learned, kind := .station, home := .pair c.mac s.bridge.settings.pairOrder, reachable := true })).queuedPair
          { mac := c.mac, kind := .hello, seq := c.seq, tag := c.tag, dst := n, src := 1 } .answer))) ∧
    (findMac s.bridge.dir.entries c.mac = none →
      retiringMac s.bridge.dir.entries c.mac = true ∨ s.bridge.settings.pairLearning = false →
      exec (.pairFrameReceive f) s = .next (s.after [] (s.bridge.queuedPair
        { mac := c.mac, kind := .fail, reason := 4, seq := c.seq, tag := c.tag, dst := 0, src := 1 } .answer)))

/-- When the PHY has been handed a frame whole, the frame leaves the pair queue, its place is offered to the waiting list, and its send
time is reported; with no frame in hand nothing happens (R32, R33). That the frame stays at the head of the queue until it has been handed
over whole (log 21), that the place is offered before the report (log 42), and that the report of an older handover is ignored (log 69),
are the model's choices. The report of a delivery's frame or of a status query opens its window of 50 ms (R144, R149). A frame lost from
the pair queue is reported to its originator as a flushed one, but for a forwarded REQUEST, whose loss has no effect of its own (R11, R23,
R109). -/
def Obligations.PairSendCompleteReportsTheFrame : Prop :=
  (∀ s : State, s.takesTraffic →
    (∀ e f rest, s.bridge.pair.handing = some e → s.bridge.pair.queue = f :: rest →
      exec .pairSendComplete s = .next (s.after [] (((s.bridge.modPair fun x =>
        { x with handing := none, queue := rest }).offerPairPlace s.bridge.pair.waiting).sendReport f.origin f.serial true))) ∧
    (s.bridge.pair.handing = none ∨ s.bridge.pair.queue = [] → exec .pairSendComplete s = .next (s.after [] s.bridge)) ∧
    (∀ e f tag x, s.bridge.pair.handing = some e → s.bridge.pair.queue = [f] → s.bridge.pair.waiting = [] →
      f.origin = .request tag → s.bridge.exchange tag = some x → x.state = .opened .queued → x.sending = f.serial →
      ∃ t, exec .pairSendComplete s = .next t ∧ t.bridge.exchange tag = some { x with state := .opened .awaiting })) ∧
  (∀ (b : Bridge) (k : Nat),
    (∀ l d f, b.record l = some d → d.phase = .queued → d.frame = some f → f.serial = k →
      b.sendReport (.delivery l) k true = b.setRecord l (some { d with phase := .window (b.ctl.now + 6250) })) ∧
    (∀ n r q, b.printer n = some r → r.question = .query q k none →
      b.sendReport (.query n) k true = b.modPrinter n fun y => { y with question := .query q k (some (b.ctl.now + 6250)) })) ∧
  (∀ (b : Bridge) (f : PairFrame), (∀ tag, f.origin = .request tag → b.pairFrameLost f = b) ∧
    ((∀ tag, f.origin ≠ .request tag) → b.pairFrameLost f = b.lossReport .flushed f.origin f.serial))

/-- Free data from coax to pair: the padding byte is dropped; AS_SENT keeps the wire order, SWAPPED exchanges the bytes of each complete
pair and leaves a trailing odd byte; the data length is the number of bytes that remain, 0 to 1024. -/
def Obligations.CoaxToPairConversion : Prop :=
  ∀ blk : Block, blk.payload.length % 2 = 0 → blk.payload.length ≤ 1024 → (blk.pad = true → blk.payload ≠ []) →
    let bytes := if blk.pad then blk.payload.take (2 * blk.length - 1) else blk.payload
    blk.content = bytes ∧ inOrder .asSent blk.content = bytes ∧
    bytes.length = (if blk.pad then 2 * blk.length - 1 else 2 * blk.length) ∧ bytes.length ≤ 1024 ∧
    (inOrder .swapped blk.content).length = bytes.length ∧
    (∀ i, 2 * i + 1 < bytes.length →
      (inOrder .swapped blk.content)[2 * i]? = bytes[2 * i + 1]? ∧ (inOrder .swapped blk.content)[2 * i + 1]? = bytes[2 * i]?) ∧
    (bytes.length % 2 = 1 → (inOrder .swapped blk.content)[bytes.length - 1]? = bytes[bytes.length - 1]?)

/-- Free data from pair to coax: SWAPPED exchanges the bytes of each complete pair first; the bytes are packed high byte first, and an odd
last byte becomes a high byte with a low byte of 0 and PAD set; the coax length is the count over 2, rounded up. Print data submitted to
the spool is held as the bytes in that order, without a PAD flag (R36, R127). -/
def Obligations.PairToCoaxConversion : Prop :=
  (∀ (o : Order) (l : List Byte) (dst src : Nat) (k : Kind) (seq : Bool), l.length ≤ 1024 →
    let data := inOrder o l
    let blk := Block.build dst src k seq data
    data.length = l.length ∧ (o = .asSent → data = l) ∧
    (o = .swapped → (∀ i, 2 * i + 1 < l.length → data[2 * i]? = l[2 * i + 1]? ∧ data[2 * i + 1]? = l[2 * i]?)
      ∧ (l.length % 2 = 1 → data[l.length - 1]? = l[l.length - 1]?)) ∧
    blk.length = (l.length + 1) / 2 ∧ (blk.pad = true ↔ l.length % 2 = 1) ∧
    blk.payload = data ++ (if l.length % 2 = 1 then [0] else []) ∧
    (∀ i, i < blk.length → (wordsOf blk.payload)[i]? = some (blk.payload.getD (2 * i) 0 ++ blk.payload.getD (2 * i + 1) 0))) ∧
  (∀ (b : Bridge) (owner : DirNo) (l : Lp) (o : Order) (data : List Byte),
    b.judgePrint owner l .printData o data =
      b.judgeData owner l (read16 data 0) (data.getD 2 0).toNat (inOrder o (data.drop 4)))

/-! ## The directory and forwarding (chapters 3 and 5) -/

/-- The source of a coax block. A source homed on the segment under its number has its age set to 0, and on an end of a segment in SPLIT
has that end written into its entry. An unknown one: an entry shown under the source number is withdrawn from the segment, CONFLICT is
counted and captured, and then, with learning ON, the lowest FREE entry from 10 up becomes a LEARNED STATION homed there, with end UNKNOWN
on a paired segment (in SPLIT, the end it was heard on); with auto-show ON it is shown under its number on every other segment of the
auto-show set on which that number is free. A directory without a FREE entry counts and captures MAP_FULL (R43, R44, R45, R48, R49, R51,
R52, R60). Where a pairing change has left two entries present on a segment under one number, that a lookup finds a home number first and
then the lowest-numbered entry shown is the model's choice (log 62). -/
def Obligations.ConflictAndLearning : Prop :=
  (∀ (b : Bridge) (p : Port) (n : Nat),
    let t := b.segmentOf p
    let heard := fun (c : Bridge) (k : DirNo) =>
      if b.paired p = true ∧ (b.feed (pairOf p)).state = .split then
        (c.modEntry k fun x => { x with endField := some (if p.val % 2 = 0 then .a else .b) }).refreshReach
      else c
    (∀ k e, findHome b.dir.entries t n = some (k, e) →
      b.sourceLookup p n = (some k, heard (b.modEntry k fun x => { x with age := 0 }) k)) ∧
    (findHome b.dir.entries t n = none →
      let c := match findOn b.dir.entries t n with
        | some (m, _) =>
          ((b.modEntry m fun x => { x with withdrawn := x.withdrawn.set t true }).count 6 .conflict).capture 6 .conflict
            (.conflict t n m)
        | none => b
      ((b.portSettings t).learning = false → b.sourceLookup p n = (none, c)) ∧
      ((b.portSettings t).learning = true →
        (∀ k shown, 10 ≤ k → k ≤ 384 → c.entry k = none → (∀ m, 10 ≤ m → m < k → c.entry m ≠ none) →
          (∀ q : Port, shown[q] = true ↔ (b.portSettings t).autoShow = true ∧ b.segmentOf q = q ∧ q ≠ t ∧
            b.settings.autoShowSet[q] = true ∧ findOn c.dir.entries q n = none) →
          b.sourceLookup p n = (some k, heard (c.modEntries (put k
            { state := .learned, kind := .station, home := .seg t n, endField := if b.paired p then some .unknown else none,
              visible := if shown = PortSet.none then none else some n, shown })).refreshReach k)) ∧
        ((∀ m, 10 ≤ m → m ≤ 384 → c.entry m ≠ none) →
          b.sourceLookup p n = (none, (c.count 6 .mapFull).capture 6 .mapFull (.learnCoax t n)))))) ∧
  (∀ (es front back : Entries) (t : Port) (n k : Nat) (e : Entry), es = front ++ (k, e) :: back →
    (e.state ≠ .retiring → e.home = .seg t n → (∀ x ∈ front, x.2.state = .retiring ∨ x.2.home ≠ .seg t n) →
      findHome es t n = some (k, e)) ∧
    (numberOn e t = some n → (∀ x ∈ front, numberOn x.2 t ≠ some n) → findOn es t n = some (k, e))) ∧
  (∀ (es : Entries) (t : Port) (n : Nat),
    ((∀ x ∈ es, x.2.state = .retiring ∨ x.2.home ≠ .seg t n) → findHome es t n = none) ∧
    ((∀ x ∈ es, numberOn x.2 t ≠ some n) → findOn es t n = none))

/-- A DATA block to a STATION goes out as the rules say, the source having been looked up first: on its home's wire under the station's
home number and the sender's number there, or the bridge number where the sender has none; to a pair host as a DATA frame of the converted
payload, under the sender's entry or 1; dropped and counted where the station is UNREACHABLE, where no source number exists, or where a
queue refuses it, once for all copies (R79, R86 to R91). That a silent PRINTER that sends it is heard before it is dispatched is the
model's choice (log 64). -/
def Obligations.UnicastDataIsForwarded : Prop :=
  ∀ (s : State) (p : Port) (u : List Nat) (a : CoaxArrival) (rest : List CoaxArrival) (src : Option DirNo) (b : Bridge) (n : DirNo)
    (e : Entry), s.takesTraffic → (s.bridge.port p).arrivals = a :: rest →
    (s.bridge.modPort p fun x => { x with arrivals := rest }).sourceLookup p a.block.src = (src, b) →
    a.block.dst ≠ 255 → findHome b.dir.entries (b.segmentOf p) a.block.dst = none →
    findOn b.dir.entries (b.segmentOf p) a.block.dst = some (n, e) → a.block.kind = .data → e.kind = .station →
    let c := b.heardPrinter src
    (e.reachable = false → exec (.takeArrival (.port p) u) s = .next (s.after u (c.countForward .destUnreachable))) ∧
    (∀ t num k, e.reachable = true → e.home = .seg t num →
      ((src.bind fun m => b.numberOf m t) = some k ∨
        (src.bind fun m => b.numberOf m t) = none ∧ b.bridgeNumberOn t = some k) →
      let ps := b.endsFor t e.endField
      let d := (c.queuedOn ps
        { block := { a.block with dst := num, src := k }, origin := .forward, serial := c.serial }).setSerial (c.serial + 1)
      exec (.takeArrival (.port p) u) s = .next (s.after u
        (if ∃ q ∈ ps, 24 ≤ (b.port q).class1.length then d.countForward .queueFull else d))) ∧
    (∀ t num, e.reachable = true → e.home = .seg t num → (src.bind fun m => b.numberOf m t) = none →
      b.bridgeNumberOn t = none →
      exec (.takeArrival (.port p) u) s = .next (s.after u (c.countForward .noNumber))) ∧
    (∀ mac order, e.reachable = true → e.home = .pair mac order → b.pair.link = true →
      exec (.takeArrival (.port p) u) s = .next (s.after u
        (if b.pair.queue.length < 48 then c.queuedPair
          { mac, kind := .data, dst := n, src := src.getD 1, data := inOrder order a.block.content } .forward
         else (c.setSerial (c.serial + 1)).countForward .queueFull)))

/-- Broadcasts. A DATA broadcast from coax is copied to each segment of its segment's broadcast set but its own, in order of segment, and
then to the pair side where the set names PAIR; one from the pair side to each segment of the pair broadcast set; any other kind makes no
copy. A copy for a segment goes out on its ends that can transmit, under the sender's number there or else the bridge number, and is
dropped and counted where no end can transmit, where there is no number, or once where a queue refuses it; the copy for the pair side goes
to the broadcast MAC (R92, R93, R94). That an upper port of a paired segment names the segment is the model's reading (log 24), and so is
that a frame whose source entry has been freed since crosses AS_SENT (log 77). -/
def Obligations.BroadcastsAreCopied : Prop :=
  (∀ (b : Bridge) (src : Option DirNo) (a : Arrival), a.kind ≠ .data → b.broadcast src a = b) ∧
  (∀ (b : Bridge) (src : Option DirNo) (p : Port) (blk : Block), blk.kind = .data →
    let set := (b.portSettings (b.segmentOf p)).broadcast
    let named := (List.finRange 4).filter fun t => b.segmentOf t = t ∧ t ≠ b.segmentOf p ∧
      ∃ q : Port, set.segments[q] = true ∧ b.segmentOf q = t
    let c := named.foldl (Bridge.copyToSegment src (.coax p blk)) b
    b.broadcast src (.coax p blk) = if set.pair then c.copyToPair src (.coax p blk) else c) ∧
  (∀ (b : Bridge) (src : Option DirNo) (f : Carrier), f.kind = .data →
    let named := (List.finRange 4).filter fun t => b.segmentOf t = t ∧
      ∃ q : Port, b.settings.pairBroadcast[q] = true ∧ b.segmentOf q = t
    b.broadcast src (.carrier f) = named.foldl (Bridge.copyToSegment src (.carrier f)) b) ∧
  (∀ (b : Bridge) (src : Option DirNo) (a : Arrival) (t : Port), b.segmentOf t = t →
    let ps := (if b.paired t then [lowerOf (pairOf t), upperOf (pairOf t)] else [t]).filter b.canTransmit
    let number := (src.bind fun m => b.numberOf m t).or (b.bridgeNumberOn t)
    (ps = [] → Bridge.copyToSegment src a b t = b.countForward .destUnreachable) ∧
    (ps ≠ [] → number = none → Bridge.copyToSegment src a b t = b.countForward .noNumber) ∧
    (∀ k blk, ps ≠ [] → number = some k →
      (∀ p x, a = .coax p x → blk = { x with dst := 255, src := k }) →
      (∀ f, a = .carrier f →
        blk = Block.build 255 k .data false (inOrder ((src.map (orderOf b.dir.entries)).getD .asSent) f.data)) →
      let d := b.offeredOn ps blk .forward none
      ((∀ q ∈ ps, ¬ b.full1 q) → Bridge.copyToSegment src a b t = d) ∧
      ((∃ q ∈ ps, b.full1 q) → Bridge.copyToSegment src a b t = d.countForward .queueFull))) ∧
  (∀ (b : Bridge) (src : Option DirNo) (p : Port) (blk : Block),
    let c : Carrier := { mac := BitVec.allOnes 48, kind := .data, dst := 0, src := src.getD 1, data := blk.content }
    (b.pair.link = false → b.copyToPair src (.coax p blk) = b.countForward .destUnreachable) ∧
    (b.pair.link = true → b.pair.queue.length < 48 → b.copyToPair src (.coax p blk) = b.queuedPair c .forward) ∧
    (b.pair.link = true → 48 ≤ b.pair.queue.length →
      b.copyToPair src (.coax p blk) = (b.setSerial (b.serial + 1)).countForward .queueFull))

/-- An arrival is taken with its source and dispatched by the class of its destination. From the pair side: a broadcast, Pair-local,
Target or Unknown; its source entry is the one found when it was received, unless that entry has been freed since (log 27). From coax,
outside SPLIT: a broadcast, Local, Target or Unknown. A PRINTER that has been silent is heard by any arrival but an answer handed on. A
Target is dispatched by the arrival's kind and the target's: requests and print requests with their bytes and order, and refused FAIL
REFUSED where the target is of the wrong kind or there is no source entry; an answer goes by its source to the delivery unit or the
exchange table (R79 to R85, R89, R150). The order of a sender that a commit has moved from PAIR is the model's choice (log 44), and so are
that a frame whose source entry has been freed since crosses AS_SENT (log 77), that a sender's own entry, so moved, is Pair-local (log
27), that a home number is found before an entry shown under it (log 62), and that a silent PRINTER is heard before its arrival is
dispatched (log 64). -/
def Obligations.ArrivalsAreDispatchedByClass : Prop :=
  (∀ (s : State) (u : List Nat) (x : PairArrival) (rest : List PairArrival) (src : Option DirNo), s.takesTraffic →
    s.bridge.pair.arrivals = x :: rest →
    let f := x.frame
    let a := Arrival.carrier f
    let b := s.bridge.modPair fun y => { y with arrivals := rest }
    let c := b.heardPrinter src
    (∀ e, s.bridge.entry x.source = some e →
      src = if e.state ≠ .learned ∨ e.home = .pair f.mac .asSent ∨ e.home = .pair f.mac .swapped then some x.source else none) →
    (s.bridge.entry x.source = none → src = none) →
    (f.dst = 0 → exec (.takeArrival .pair u) s = .next (s.after u (c.broadcast src a))) ∧
    (∀ e, f.dst ≠ 0 → s.bridge.entry f.dst = some e → e.state ≠ .retiring →
      ((∃ m o, e.home = .pair m o) ∨ src = some f.dst →
        (a.isAnswer = true → exec (.takeArrival .pair u) s = .next (s.after u (b.answerArrival src a))) ∧
        (f.kind = .request ∨ f.kind = .printOpen ∨ f.kind = .printData ∨ f.kind = .printClose ∨ f.kind = .manage →
          exec (.takeArrival .pair u) s =
            .next (s.after u ((c.answer (a.asker src) (.fail .refused 0)).countForward .refused))) ∧
        (f.kind = .data ∨ f.kind = .notice ∨ (f.kind = .status ∧ a.isAnswer = false) →
          exec (.takeArrival .pair u) s = .next (s.after u (c.countForward .pairLocal)))) ∧
      ((∀ m o, e.home ≠ .pair m o) → src ≠ some f.dst →
        exec (.takeArrival .pair u) s =
          .next (s.after u ((if a.isAnswer then b else c).dispatchTarget src f.dst e a)))) ∧
    (f.dst ≠ 0 → s.bridge.entry f.dst = none ∨ (∃ e, s.bridge.entry f.dst = some e ∧ e.state = .retiring) →
      (a.isAnswer = true → exec (.takeArrival .pair u) s = .next (s.after u (b.answerArrival src a))) ∧
      (f.kind = .data → exec (.takeArrival .pair u) s = .next (s.after u (c.countForward .unknownDest))) ∧
      (f.kind ≠ .data → a.isAnswer = false → exec (.takeArrival .pair u) s = .next (s.after u c)))) ∧
  (∀ (s : State) (p : Port) (u : List Nat) (x : CoaxArrival) (rest : List CoaxArrival) (src : Option DirNo) (b : Bridge),
    s.takesTraffic → s.bridge.inSplit p = false → (s.bridge.port p).arrivals = x :: rest →
    (s.bridge.modPort p fun y => { y with arrivals := rest }).sourceLookup p x.block.src = (src, b) →
    let a := Arrival.coax p x.block
    let c := b.heardPrinter src
    let home := findHome b.dir.entries (b.segmentOf p) x.block.dst
    let shown := findOn b.dir.entries (b.segmentOf p) x.block.dst
    (x.block.dst = 255 → exec (.takeArrival (.port p) u) s = .next (s.after u (c.broadcast src a))) ∧
    (x.block.dst ≠ 255 → home ≠ none → exec (.takeArrival (.port p) u) s = .next (s.after u c)) ∧
    (∀ n e, x.block.dst ≠ 255 → home = none → shown = some (n, e) →
      exec (.takeArrival (.port p) u) s = .next (s.after u ((if a.isAnswer then b else c).dispatchTarget src n e a))) ∧
    (x.block.dst ≠ 255 → home = none → shown = none →
      (a.isAnswer = true → exec (.takeArrival (.port p) u) s = .next (s.after u (b.answerArrival src a))) ∧
      (x.block.kind = .data → exec (.takeArrival (.port p) u) s = .next (s.after u (c.countForward .unknownDest))) ∧
      (x.block.kind ≠ .data → a.isAnswer = false → exec (.takeArrival (.port p) u) s = .next (s.after u c)))) ∧
  (∀ (b : Bridge) (n : DirNo), b.heardPrinter none = b ∧
    (∀ e, b.entry n = some e → e.kind = .printer → b.heardPrinter (some n) = b.modPrinter n fun r =>
      if r.status = .notResponding then { r with status := .unknown, pollFrom := none } else r) ∧
    (∀ e, b.entry n = some e → e.kind ≠ .printer → b.heardPrinter (some n) = b)) ∧
  (∀ (b : Bridge) (src : Option DirNo) (n : DirNo) (e : Entry) (a : Arrival),
    (a.isAnswer = true → b.dispatchTarget src n e a = b.answerArrival src a) ∧
    (a.isAnswer = false →
      (a.kind = .data → e.kind = .station → b.dispatchTarget src n e a = b.forwardData src n e a) ∧
      (a.kind = .data → e.kind ≠ .station → b.dispatchTarget src n e a = b.countForward .noOwner) ∧
      (∀ k p blk, a = .coax p blk → blk.kind = .request → src = some k →
        b.dispatchTarget src n e a = b.takeRequest (a.asker src) k n e blk.payload blk.pad) ∧
      (∀ k f, a = .carrier f → f.kind = .request → src = some k →
        b.dispatchTarget src n e a = b.takeRequest (a.asker src) k n e f.data false) ∧
      (a.kind = .request → src = none →
        b.dispatchTarget src n e a = (b.answer (a.asker src) (.fail .refused 0)).countForward .refused) ∧
      (a.kind = .printOpen ∨ a.kind = .printData ∨ a.kind = .printClose →
        (∀ k l p blk, a = .coax p blk → src = some k → n = l.val + 2 → l.val < 8 →
          b.dispatchTarget src n e a = b.printRequest (a.asker src) k l blk.kind .asSent blk.content) ∧
        (∀ k l f, a = .carrier f → src = some k → n = l.val + 2 → l.val < 8 →
          b.dispatchTarget src n e a = b.printRequest (a.asker src) k l f.kind (orderOf b.dir.entries k) f.data) ∧
        (n < 2 ∨ 9 < n ∨ src = none →
          b.dispatchTarget src n e a = (b.answer (a.asker src) (.fail .refused 0)).countForward .refused)) ∧
      (a.kind = .manage → n = 1 → b.dispatchTarget src n e a = b.manageRecord (a.asker src) a.content) ∧
      (a.kind = .manage → n ≠ 1 →
        b.dispatchTarget src n e a = (b.answer (a.asker src) (.fail .refused 0)).countForward .refused) ∧
      (a.kind = .status ∨ a.kind = .notice → b.dispatchTarget src n e a = b.countForward .noOwner))) ∧
  (∀ (b : Bridge) (src : Option DirNo) (a : Arrival), a.isAnswer = true →
    (∀ n e x, src = some n → b.entry n = some e → e.kind = .printer → a.printerAnswer = some x →
      b.answerArrival src a = b.printerAnswer n a.sequence.1 a.sequence.2 x) ∧
    (src = none ∨ (∃ n, src = some n ∧ ∀ e, b.entry n = some e → e.kind ≠ .printer) →
      (a.kind = .status → b.answerArrival src a = b.countForward .noOwner) ∧
      (∀ p blk, a = .coax p blk → blk.kind ≠ .status → b.answerArrival src a = b.exchangeCoaxAnswer p blk) ∧
      (∀ f, a = .carrier f → f.kind ≠ .status → b.answerArrival src a = b.exchangePairAnswer f))) ∧
  (∀ a : Arrival, (a.isAnswer = true ↔ a.kind = .reply ∨ a.kind = .hold ∨ a.kind = .busy ∨ a.kind = .fail ∨
      (a.kind = .status ∧ a.statusCode ≠ none)) ∧
    (a.kind = .reply → a.printerAnswer = some .reply) ∧
    (a.kind = .hold → a.printerAnswer = some (.hold (read16 a.content 0))) ∧
    (a.kind = .busy → a.printerAnswer = some .busy) ∧ (a.kind = .fail → a.printerAnswer = some .fail) ∧
    (∀ x, a.kind = .status → a.statusCode = some x → a.printerAnswer = some (.status x))) ∧
  (∀ (es : Entries) (k : DirNo) (e : Entry), look k es = some e →
    (∀ m o, e.home = .pair m o → orderOf es k = o) ∧ ((∀ m o, e.home ≠ .pair m o) → orderOf es k = .asSent)) ∧
  (∀ (b : Bridge) (src : Option DirNo) (n : DirNo) (e : Entry) (f : Carrier) (t : Port) (num : Nat), e.home = .seg t num →
    let a := Arrival.carrier f
    let ps := b.endsFor t e.endField
    let number := (src.bind fun m => b.numberOf m t).or (b.bridgeNumberOn t)
    let order := (src.map (orderOf b.dir.entries)).getD .asSent
    (e.reachable = false → b.forwardData src n e a = b.countForward .destUnreachable) ∧
    (e.reachable = true → number = none → b.forwardData src n e a = b.countForward .noNumber) ∧
    (∀ k, e.reachable = true → number = some k →
      let d := b.offeredOn ps (Block.build num k .data false (inOrder order f.data)) .forward none
      ((∀ q ∈ ps, ¬ b.full1 q) → b.forwardData src n e a = d) ∧
      ((∃ q ∈ ps, b.full1 q) → b.forwardData src n e a = d.countForward .queueFull)))

/-- A paired segment in SPLIT. A block delivered by one end is relayed to the other when its number is homed on the segment but not on
this half, or it is a broadcast; a relay, which latches no end, that the other end cannot take counts RELAY_LOST; one for a number unknown
there is handled as on any segment (R80, R177, R178). A source heard on an end has that end written into its entry (R60). When a split
window closes, each frame on the feeding end's queues is placed on the other end as well, or moved there where it was built for that end,
uncharged and with its attempts still to make; a copy that finds no room is not made, and a moved frame that finds none is reported not
sent (R177). The feed state follows the availability of the ends, end A before end B, and SPLIT lasts while either is available; with both
available again in FEED_B a switch window opens (R174, R175). A port of a paired segment transmits and delivers while it is ACTIVE and the
feed state lets its end, and not during the start-up wait, which lasts while an end is TESTING and then ends in FEED_A, FEED_B or DOWN,
with a split window where both ends are ACTIVE and a test found OPEN in the wait (R173, R176, R180). That a home number is found before an
entry shown under it (log 62), and that a silent PRINTER is heard before its arrival is dispatched (log 64), are the model's choices. -/
def Obligations.SplitSegmentsRelayAndRedistribute : Prop :=
  (∀ (s : State) (p : Port) (u : List Nat) (x : CoaxArrival) (rest : List CoaxArrival) (src : Option DirNo) (b : Bridge),
    s.takesTraffic → s.bridge.paired p = true → (s.bridge.feed (pairOf p)).state = .split →
    (s.bridge.port p).arrivals = x :: rest →
    (s.bridge.modPort p fun y => { y with arrivals := rest }).sourceLookup p x.block.src = (src, b) →
    let a := Arrival.coax p x.block
    let home := findHome b.dir.entries (b.segmentOf p) x.block.dst
    let shown := findOn b.dir.entries (b.segmentOf p) x.block.dst
    let here : EndField := if p.val % 2 = 0 then .a else .b
    (x.block.dst = 255 → exec (.takeArrival (.port p) u) s =
      .next (s.after u (((b.relay p x.block).heardPrinter src).broadcast src a))) ∧
    (∀ n e, x.block.dst ≠ 255 → home = some (n, e) → e.endField ≠ some here →
      exec (.takeArrival (.port p) u) s = .next (s.after u ((b.relay p x.block).heardPrinter src))) ∧
    (∀ n e, x.block.dst ≠ 255 → home = some (n, e) → e.endField = some here →
      exec (.takeArrival (.port p) u) s = .next (s.after u (b.heardPrinter src))) ∧
    (∀ n e, x.block.dst ≠ 255 → home = none → shown = some (n, e) →
      exec (.takeArrival (.port p) u) s =
        .next (s.after u ((if a.isAnswer then b else b.heardPrinter src).dispatchTarget src n e a))) ∧
    (x.block.dst ≠ 255 → home = none → shown = none →
      (a.isAnswer = true → exec (.takeArrival (.port p) u) s = .next (s.after u (b.answerArrival src a))) ∧
      (x.block.kind = .data →
        exec (.takeArrival (.port p) u) s = .next (s.after u ((b.heardPrinter src).countForward .unknownDest))) ∧
      (x.block.kind ≠ .data → a.isAnswer = false →
        exec (.takeArrival (.port p) u) s = .next (s.after u (b.heardPrinter src))))) ∧
  (∀ (b : Bridge) (p : Port), b.canTransmit p = true ↔ (b.mon p).state = .active ∧ (b.paired p = true →
    (b.feed (pairOf p)).startWait = false ∧ ((b.feed (pairOf p)).state = .split ∨
      ((b.feed (pairOf p)).state = .feedA ∧ p = lowerOf (pairOf p)) ∨ ((b.feed (pairOf p)).state = .feedB ∧ p = upperOf (pairOf p))))) ∧
  (∀ (b : Bridge) (i : PairNo),
    let f := b.feed i
    let a := (b.mon (lowerOf i)).state
    let c := (b.mon (upperOf i)).state
    let enters := fun st => b.changeFeed i fun f => { f with state := st, window := .none, probing := false, probeFrom := none }
    let abandons : List Flush × Bridge := ([], b.modFeed i fun f =>
      { f with window := .none, probing := false, probeFrom := if f.probing then some b.ctl.now else f.probeFrom })
    (f.paired = false → b.follow i = ([], b)) ∧
    (f.paired = true → f.startWait = true → a = .testing ∨ c = .testing → b.follow i = ([], b)) ∧
    (f.paired = true → f.startWait = true → a ≠ .testing → c ≠ .testing → b.follow i = b.changeFeed i fun f =>
      { f with state := if a = .active then .feedA else if c = .active then .feedB else .down, startWait := false,
               openInWait := false, window := if a = .active ∧ c = .active ∧ f.openInWait = true then .split else .none,
               probing := false, probeFrom := none }) ∧
    (f.paired = true → f.startWait = false →
      (a = .active → c = .active →
        (f.state = .feedB → f.window = .none → b.follow i = ([], b.modFeed i fun f => { f with window := .switch })) ∧
        (f.state = .down → b.follow i = enters .feedA) ∧
        (f.state = .feedA ∨ f.state = .split ∨ (f.state = .feedB ∧ f.window ≠ .none) → b.follow i = ([], b))) ∧
      (a = .active → c ≠ .active →
        (f.state = .feedA ∨ f.state = .split → b.follow i = abandons) ∧
        (f.state = .feedB ∨ f.state = .down → b.follow i = enters .feedA)) ∧
      (a ≠ .active → c = .active →
        (f.state = .feedB ∨ f.state = .split → b.follow i = abandons) ∧
        (f.state = .feedA ∨ f.state = .down → b.follow i = enters .feedB)) ∧
      (a ≠ .active → c ≠ .active →
        (f.state = .down → b.follow i = ([], b)) ∧ (f.state ≠ .down → b.follow i = enters .down)))) ∧
  (∀ (b : Bridge) (i : PairNo) (p : Port) (st : PortMode), pairOf p = i → (b.feed i).paired = true →
    (b.feed i).startWait = true → (b.mon p).state ≠ st →
    let stateOf := fun q => if q = p then st else (b.mon q).state
    let f := (b.changeState p st).feed i
    (stateOf (lowerOf i) = .testing ∨ stateOf (upperOf i) = .testing →
      f.startWait = true ∧ f.state = (b.feed i).state ∧ f.window = (b.feed i).window) ∧
    (stateOf (lowerOf i) ≠ .testing → stateOf (upperOf i) ≠ .testing →
      f.startWait = false ∧
      f.state = (if stateOf (lowerOf i) = .active then .feedA else if stateOf (upperOf i) = .active then .feedB else .down) ∧
      (f.window = .split ↔ stateOf (lowerOf i) = .active ∧ stateOf (upperOf i) = .active ∧ (b.feed i).openInWait = true))) ∧
  (∀ (b : Bridge) (p : Port) (blk : Block),
    let i := pairOf p
    let c := b.offeredOn [partner p] blk (.relay i) none
    (b.canTransmit (partner p) = false → b.relay p blk = b.countFeed i .relayLost) ∧
    (b.canTransmit (partner p) = true → ¬ b.full1 (partner p) → b.relay p blk = c.countFeed i .relayed) ∧
    (b.canTransmit (partner p) = true → b.full1 (partner p) → b.relay p blk = c.countFeed i .relayLost)) ∧
  (∀ (b : Bridge) (p : Port) (n k : Nat) (e : Entry), b.paired p = true → (b.feed (pairOf p)).state = .split →
    findHome b.dir.entries (lowerOf (pairOf p)) n = some (k, e) →
    b.sourceLookup p n = (some k, ((b.modEntry k fun x => { x with age := 0 }).modEntry k fun x =>
      { x with endField := some (if p.val % 2 = 0 then .a else .b) }).refreshReach)) ∧
  (∀ (s : State) (i : PairNo), s.takesTraffic → (s.bridge.feed i).paired = true → (s.bridge.feed i).window = .split →
    s.bridge.driving (s.bridge.feedingEnd i) = false →
    let feeding := s.bridge.feedingEnd i
    let y := s.bridge.changeFeed i fun f =>
      { f with state := .split, window := .none, probing := false, probeFrom := some s.bridge.ctl.now }
    let z := y.2.redistribute feeding (partner feeding)
    exec (.splitWindowClose i) s =
      .next (s.after [] ((z.2.countFeed i .splits).concludeChange s.bridge (y.1 ++ [z.1])))) ∧
  (∀ (b : Bridge) (feeding other : Port), feeding ≠ other →
    let leaves := fun l : List CoaxFrame => (l.filter fun f => f.named = some other ∨ f.named = none).map fun f =>
      { f with attempts := 1, charged := false }
    let x := b.port feeding
    let y := b.port other
    let z := b.redistribute feeding other
    (z.2.port other).class0 = y.class0 ++ (leaves x.class0).take (8 - y.class0.length) ∧
    (z.2.port other).class1 = y.class1 ++ (leaves x.class1).take (24 - y.class1.length) ∧
    (z.2.port feeding).class0 = (x.class0.filter fun f => f.named ≠ some other) ∧
    (∃ placed, (z.2.port feeding).class1 = (x.class1.filter fun f => f.named ≠ some other) ++ placed) ∧
    z.1.frames = ((leaves x.class0).drop (8 - y.class0.length) ++ (leaves x.class1).drop (24 - y.class1.length)).filter
      fun f => f.named = some other) ∧
  (∀ (b : Bridge) (i : PairNo) (p : Port) (st : PortMode), pairOf p = i → (b.feed i).paired = true →
    (b.feed i).startWait = false → (b.mon p).state ≠ st →
    let stateOf := fun q => if q = p then st else (b.mon q).state
    let f := ((b.changeState p st).feed i)
    let endA := decide (stateOf (lowerOf i) = .active)
    let endB := decide (stateOf (upperOf i) = .active)
    f.state = (match (b.feed i).state, endA, endB with
      | _, false, false => .down
      | .split, _, _ => .split
      | .feedB, _, true => .feedB
      | _, true, _ => .feedA
      | _, false, true => .feedB) ∧
    ((b.feed i).state ≠ .down → endA = false ∨ endB = false → f.window = .none ∧ f.probing = false) ∧
    ((b.feed i).state = .feedB → (b.feed i).window = .none → endA = true → endB = true → f.window = .switch))

/-- At the end of an ageing period every LEARNED age rises by one, up to 255, and every LEARNED entry at the age limit with no pin is
freed; the other entries do not age. Freeing an entry removes it, its pair repeats and its printer record, and then, for each segment it
was present on, the withdrawal that it stood in the way of is lifted: that of the first listed entry withdrawn from the segment under its
number, if the number is free there. The number of an entry on a segment is its home number there, or its visible number where it is shown
and not withdrawn (R42, R53, R54, R55). That a departed entry which was only shown lets a withdrawal be lifted too (log 30), and that a
RETIRING entry is passed over (log 45), are the model's choices. -/
def Obligations.AgeingFreesSilentEntries : Prop :=
  (∀ s : State, s.takesTraffic → s.bridge.dir.ageingDue ≤ s.bridge.ctl.now →
    let es : Entries := s.bridge.dir.entries.map fun x =>
      (x.1, if x.2.state = .learned then { x.2 with age := min 255 (x.2.age + 1) } else x.2)
    exec .ageingPeriodEnd s = .next (s.after []
      ((es.filter fun x => x.2.state = .learned ∧ s.bridge.settings.ageLimit ≤ x.2.age ∧ x.2.pins = 0).foldl
        (fun b x => b.freeEntry x.1)
        (s.bridge.modDir fun d =>
          { d with entries := es, ageingDue := d.ageingDue + 125000 * s.bridge.settings.ageingPeriod })))) ∧
  (∀ s : State, s.takesTraffic → s.bridge.ctl.now < s.bridge.dir.ageingDue →
    exec .ageingPeriodEnd s = .next (s.after [] s.bridge)) ∧
  (∀ (b : Bridge) (n : DirNo), b.entry n ≠ none →
    (b.freeEntry n).entry n = none ∧ (b.freeEntry n).printer n = none ∧
    (∀ r ∈ (b.freeEntry n).pair.repeats, r.asker ≠ n)) ∧
  (∀ (b : Bridge) (n : DirNo), (b.entry n = none → b.freeEntry n = b) ∧
    ∀ e, b.entry n = some e →
      b.freeEntry n =
        (((List.finRange 4).filter fun t => b.segmentOf t = t).filterMap fun t => (numberOn e t).map fun k => (t, k)).foldl
          (fun c x => c.lift x.1 x.2)
          (((b.modEntries fun es => es.filter fun x => x.1 ≠ n).modPair fun x =>
            { x with repeats := x.repeats.filter fun r => r.asker ≠ n }).modDelivery fun x =>
              { x with printers := x.printers.filter fun y => y.1 ≠ n })) ∧
  (∀ (b : Bridge) (t : Port) (k : Nat),
    let held := fun e : Entry => e.state ≠ .retiring ∧ e.visible = some k ∧ e.withdrawn[t] = true
    ((∃ x ∈ b.dir.entries, numberOn x.2 t = some k) → b.lift t k = b) ∧
    ((∀ x ∈ b.dir.entries, ¬ held x.2) → b.lift t k = b) ∧
    (∀ front m e back, (∀ x ∈ b.dir.entries, numberOn x.2 t ≠ some k) → b.dir.entries = front ++ (m, e) :: back →
      (∀ x ∈ front, ¬ held x.2) → held e →
      b.lift t k = b.modEntry m fun x => { x with withdrawn := x.withdrawn.set t false })) ∧
  (∀ (e : Entry) (t : Port),
    (e.state = .retiring → numberOn e t = none) ∧
    (∀ k, e.state ≠ .retiring → e.home = .seg t k → numberOn e t = some k) ∧
    (e.state ≠ .retiring → (∀ k, e.home ≠ .seg t k) →
      numberOn e t = if e.shown[t] = true ∧ e.withdrawn[t] = false then e.visible else none))

/-! ## Exchanges (chapter 6) -/

/-- The timers of an exchange record: a closed answer window or an ended BUSY_DELAY sends the question again, the window's third silence
ends the exchange FAIL NO_ANSWER, and the timeout ends it FAIL TIMEOUT, each counted; a timer that is not due, or not the record's,
changes nothing (R108, R111, R114). The question is sent again as it stands, under its latched route, wire numbers and sequence, on the
ends that can transmit now: the record is QUEUED again, or, where every queue refuses the question, its requester is answered FAIL REFUSED
and it is closed (R107, R108, R109). That a route with no end able to transmit refuses the question is the model's choice (log 17). A
route with end UNKNOWN names the lower port (RecordsStaySound). -/
def Obligations.ExchangeTimersActOnTheRecord : Prop :=
  (∀ (s : State) (tag : Nat) (x : Exchange), s.takesTraffic → s.bridge.exchange tag = some x →
    (∀ w, x.state = .opened (.window w) → w ≤ s.bridge.ctl.now → x.tries < 3 →
      exec (.exchangeWindowClose tag) s = .next (s.after []
        ((s.bridge.modExchange tag fun x => { x with tries := x.tries + 1 }).resendQuestion tag))) ∧
    (∀ w, x.state = .opened (.window w) → w ≤ s.bridge.ctl.now → 3 ≤ x.tries →
      exec (.exchangeWindowClose tag) s = .next (s.after []
        (((s.bridge.answer (Exchange.asker x) (.fail .noAnswer 0) true).closeExchange tag).count 5 .noAnswer))) ∧
    (∀ w, x.state = .opened (.window w) → s.bridge.ctl.now < w →
      exec (.exchangeWindowClose tag) s = .next (s.after [] s.bridge)) ∧
    (∀ d, x.state = .opened (.busyDelay d) → d ≤ s.bridge.ctl.now →
      exec (.busyDelayEnd tag) s = .next (s.after [] (s.bridge.resendQuestion tag))) ∧
    (∀ d, x.state = .opened (.busyDelay d) → s.bridge.ctl.now < d →
      exec (.busyDelayEnd tag) s = .next (s.after [] s.bridge)) ∧
    ((∀ w, x.state ≠ .opened (.window w)) → exec (.exchangeWindowClose tag) s = .next (s.after [] s.bridge)) ∧
    ((∀ d, x.state ≠ .opened (.busyDelay d)) → exec (.busyDelayEnd tag) s = .next (s.after [] s.bridge)) ∧
    (x.state = .held → exec (.busyDelayEnd tag) s = .next (s.after [] s.bridge) ∧
      exec (.exchangeWindowClose tag) s = .next (s.after [] s.bridge)) ∧
    (x.deadline ≤ s.bridge.ctl.now →
      exec (.exchangeTimeout tag) s = .next (s.after []
        (((s.bridge.answer (Exchange.asker x) (.fail .timeout 0) true).closeExchange tag).count 5 .timedOut))) ∧
    (s.bridge.ctl.now < x.deadline → exec (.exchangeTimeout tag) s = .next (s.after [] s.bridge))) ∧
  (∀ (b : Bridge) (tag : Nat) (x : Exchange), b.exchange tag = some x → (∀ p, x.targetRoute = .unknownEnd p → p.val % 2 = 0) →
    let c := b.modExchange tag fun y => { y with state := .opened .queued, sending := b.serial }
    let refused := fun d : Bridge => (d.answer (Exchange.asker x) (.fail .refused 0) true).closeExchange tag
    (∀ mac q, x.targetRoute = .pair mac → x.outSeq = .byte q →
      let d := c.offeredPair { mac, kind := .request, seq := q, tag, dst := x.target, src := x.requester,
                               data := inOrder (orderOf b.dir.entries x.target) (if x.copyPad then x.copy.dropLast else x.copy) }
        (.request tag)
      b.resendQuestion tag = if b.pair.link = true ∧ 48 ≤ b.pair.queue.length then refused d else d) ∧
    (∀ bit, (∀ mac, x.targetRoute ≠ .pair mac) → x.outSeq = .bit bit →
      let ps := b.routePorts x.targetRoute
      let blk : Block := if x.direction = .pairCoax then
          Block.build x.wireDst x.wireSrc .request bit (inOrder (orderOf b.dir.entries x.requester) x.copy)
        else { dst := x.wireDst, src := x.wireSrc, kind := .request, seq := bit, pad := x.copyPad, payload := x.copy }
      let d := c.offeredOn ps blk (.request tag) x.targetRoute.named
      b.resendQuestion tag = if ∀ p ∈ ps, 24 ≤ (b.port p).class1.length then refused d else d))

/-- A repeat of a request whose record is open is answered HOLD with the remaining time in units of 10 ms, rounded up and at least 1, and
the record is not changed; a closed record leaves its tag FREE (R102, R104, R116). A request with another sequence closes the record of
the same parties and is taken as new: refused where the target is no STATION, UNREACHABLE, where no tag is free (BUSY, TABLE_FULL), or
where its route gives no source number or the bridge number is in use to that target; otherwise it opens the lowest free tag with its
route, wire numbers and sequence latched and both parties pinned, its question is queued, and it is answered HOLD for the exchange
timeout; where every queue refuses the question, it is answered FAIL REFUSED and the record is closed (R103, R105 to R107, R109). The
number asked of a pair requester is the destination field it used (log 28), a route with no end able to transmit refuses the question (log
17), and a requester that the closing of the old record has freed is answered FAIL REFUSED as one without a source entry (log 53): the
model's choices. -/
def Obligations.RequestsOpenExchanges : Prop :=
  (∀ (b : Bridge) (a : Asker) (requester target : DirNo) (e : Entry) (copy : List Byte) (pad : Bool) (tag : Nat) (x : Exchange),
    b.sameParties requester target = some (tag, x) → x.requesterSeq = (Asker.latched a).2.1 →
    ∃ units, b.takeRequest a requester target e copy pad = b.answer a (.hold units) true
      ∧ 1 ≤ units ∧ x.deadline - b.ctl.now ≤ 1250 * units ∧ (1 < units → 1250 * (units - 1) < x.deadline - b.ctl.now)
      ∧ (b.answer a (.hold units) true).exchanges = b.exchanges) ∧
  (∀ (b : Bridge) (tag : Nat), (b.closeExchange tag).exchange tag = none) ∧
  (∀ (b c : Bridge) (a : Asker) (requester target : DirNo) (e : Entry) (copy : List Byte) (pad : Bool) (route : Route) (q : ReqSeq)
    (srcNo asked : Nat), a.entry = some requester → Asker.latched a = (route, q, srcNo, asked) →
    (∀ tag x, b.sameParties requester target = some (tag, x) → x.requesterSeq ≠ q ∧ c = b.closeExchange tag) →
    (b.sameParties requester target = none → c = b) →
    (∀ unknown : Asker, (∀ p n m y, a = .coax p n m y (some requester) → unknown = .coax p n m y none) →
      (∀ mac n t y, a = .pair mac n t y (some requester) → unknown = .pair mac n t y none) → c.entry requester = none →
      b.takeRequest a requester target e copy pad = (c.answer unknown (.fail .refused 0)).countForward .refused) ∧
    (c.entry requester ≠ none →
    (e.kind ≠ .station → b.takeRequest a requester target e copy pad = c.answer a (.fail .refused 0) true) ∧
    (e.kind = .station → e.reachable = false →
      b.takeRequest a requester target e copy pad = c.answer a (.fail .unreachable 0) true) ∧
    (e.kind = .station → e.reachable = true → (∀ t < 16, c.exchange t ≠ none) →
      b.takeRequest a requester target e copy pad = (c.answer a .busy true).count 5 .tableFull) ∧
    (∀ tag, e.kind = .station → e.reachable = true → tag < 16 → c.exchange tag = none → (∀ t < tag, c.exchange t ≠ none) →
      (∀ mac o, e.home = .pair mac o →
        let x : Exchange :=
          { state := .opened .queued, direction := .coaxPair, requester, requesterRoute := route, requesterSrc := srcNo,
            numberAsked := asked, requesterSeq := q, target, targetRoute := .pair mac, wireDst := 0, wireSrc := 0,
            usesBridge := false, outSeq := .byte c.pair.question, tries := 1,
            deadline := c.ctl.now + 12500 * c.settings.exchangeTimeout, copy, copyPad := pad, sending := c.serial }
        let d := (c.modPair fun y => { y with question := y.question + 1 }).opened tag x
        let sent := d.offeredPair { mac, kind := .request, seq := c.pair.question, tag, dst := target, src := requester,
                                    data := inOrder (orderOf d.dir.entries target) (if pad then copy.dropLast else copy) }
          (.request tag)
        b.takeRequest a requester target e copy pad =
          if c.pair.link = true ∧ 48 ≤ c.pair.queue.length then (sent.answer a (.fail .refused 0) true).closeExchange tag
          else sent.answer a (.hold (10 * c.settings.exchangeTimeout)) true) ∧
      (∀ t num r, e.home = .seg t num → c.routeOf e = some r →
        let direction := match q with
          | .bit _ => Direction.coaxCoax
          | .tagged _ _ => Direction.pairCoax
        let bit := match q with
          | .bit y => y
          | .tagged _ y => y.getLsbD 0
        let asOpened := fun (wireSrc : Nat) (usesBridge outBit : Bool) =>
          ({ state := .opened .queued, direction, requester, requesterRoute := route, requesterSrc := srcNo, numberAsked := asked,
             requesterSeq := q, target, targetRoute := r, wireDst := num, wireSrc, usesBridge, outSeq := .bit outBit, tries := 1,
             deadline := c.ctl.now + 12500 * c.settings.exchangeTimeout, copy, copyPad := pad, sending := c.serial } : Exchange)
        let taken := fun (d : Bridge) (wireSrc : Nat) (outBit : Bool) =>
          let ps := d.routePorts r
          let blk : Block := match q with
            | .bit _ => { dst := num, src := wireSrc, kind := .request, seq := outBit, pad, payload := copy }
            | .tagged _ _ => Block.build num wireSrc .request outBit (inOrder (orderOf d.dir.entries requester) copy)
          let sent := d.offeredOn ps blk (.request tag) r.named
          if ∀ p ∈ ps, 24 ≤ (d.port p).class1.length then (sent.answer a (.fail .refused 0) true).closeExchange tag
          else sent.answer a (.hold (10 * c.settings.exchangeTimeout)) true
        (∀ k, c.numberOf requester t = some k →
          b.takeRequest a requester target e copy pad = taken (c.opened tag (asOpened k false bit)) k bit) ∧
        (∀ k, c.numberOf requester t = none → c.bridgeNumberOn t = some k →
          (∀ y ∈ c.exchanges, y.2.target = target → y.2.usesBridge = false) →
          b.takeRequest a requester target e copy pad =
            taken ((c.modEntry target fun y => { y with bridgeBit := !e.bridgeBit }).opened tag (asOpened k true (!e.bridgeBit)))
              k (!e.bridgeBit)) ∧
        (∀ k, c.numberOf requester t = none → c.bridgeNumberOn t = some k →
          (∃ y ∈ c.exchanges, y.2.target = target ∧ y.2.usesBridge = true) →
          b.takeRequest a requester target e copy pad = c.answer a .busy true) ∧
        (c.numberOf requester t = none → c.bridgeNumberOn t = none →
          b.takeRequest a requester target e copy pad = c.answer a (.fail .refused 0) true))))) ∧
  (∀ (b : Bridge) (e : Entry) (p : Port) (n : Nat), e.home = .seg p n →
    (b.paired p = false → b.routeOf e = some (.port p)) ∧
    (b.paired p = true → b.routeOf e = some (match e.endField with
      | some .a => .port (lowerOf (pairOf p))
      | some .b => .port (upperOf (pairOf p))
      | _ => .unknownEnd (lowerOf (pairOf p))))) ∧
  (∀ (b : Bridge) (p : Port), b.routePorts (.port p) = [p] ∧
    b.routePorts (.unknownEnd p) = ([p, upperOf (pairOf p)]).filter b.canTransmit ∧
    (Route.port p).named = some p ∧ (Route.unknownEnd p).named = none) ∧
  (∀ (p : Port) (src dst tag : Nat) (seq : Bool) (mac : Mac) (s8 : Byte) (e : Option DirNo),
    Asker.latched (.coax p src dst seq e) = (.port p, .bit seq, src, dst) ∧
    Asker.latched (.pair mac dst tag s8 e) = (.pair mac, .tagged tag s8, 0, dst))

/-- The answers of a target. A coax answer matches the record whose target route lies on its segment with its two wire numbers and its
sequence bit, a pair answer the record of its tag with its MAC and sequence (R110). HOLD holds the record; BUSY starts the 20 ms of
BUSY_DELAY but in QUEUED and BUSY_DELAY; a REPLY is relayed to the requester with its content and closes the record; a FAIL is relayed as
FAIL TARGET_FAILED with its reason, and counted (R111, R112). An answer that matches none is counted, a REPLY captured too (R113). A
record whose requester or target route a report loses is closed with FAIL UNREACHABLE where the requester can still be told (R115). Of two
records that a commit has left alike the one listed first is taken, and records lost together go by rising tag: the model's choices (log
48). -/
def Obligations.TargetAnswersActOnTheRecord : Prop :=
  (∀ (b : Bridge) (p : Port) (blk : Block) (y : TargetAnswer),
    (blk.kind = .reply → y = .reply blk.content blk.payload blk.pad) → (blk.kind = .hold → y = .hold) →
    (blk.kind = .busy → y = .busy) → (blk.kind = .fail → y = .fail (blk.content.getD 0 0).toNat) →
    blk.kind = .reply ∨ blk.kind = .hold ∨ blk.kind = .busy ∨ blk.kind = .fail →
    let fits := fun x : Exchange => x.wireDst = blk.src ∧ x.wireSrc = blk.dst ∧ x.outSeq = .bit blk.seq ∧
      ∃ q, (x.targetRoute = .port q ∨ x.targetRoute = .unknownEnd q) ∧ b.segmentOf q = b.segmentOf p
    (∀ front tag x back, b.exchanges = front ++ (tag, x) :: back → (∀ z ∈ front, ¬ fits z.2) → fits x →
      b.exchangeCoaxAnswer p blk = b.targetAnswered tag y) ∧
    ((∀ z ∈ b.exchanges, ¬ fits z.2) →
      b.exchangeCoaxAnswer p blk = if blk.kind = .reply then
          (b.count 5 .unexpectedReply).capture 5 .unexpectedReply (.replyCoax (b.segmentOf p) blk.dst blk.src blk.seq)
        else b.count 5 .unexpectedAnswer)) ∧
  (∀ (b : Bridge) (f : Carrier) (y : TargetAnswer),
    (f.kind = .reply → y = .reply f.data f.data false) → (f.kind = .hold → y = .hold) →
    (f.kind = .busy → y = .busy) → (f.kind = .fail → y = .fail f.reason) →
    f.kind = .reply ∨ f.kind = .hold ∨ f.kind = .busy ∨ f.kind = .fail →
    let fits := fun z : Nat × Exchange => z.1 = f.tag ∧ z.2.targetRoute = .pair f.mac ∧ z.2.outSeq = .byte f.seq
    ((∃ z ∈ b.exchanges, fits z) → b.exchangePairAnswer f = b.targetAnswered f.tag y) ∧
    ((∀ z ∈ b.exchanges, ¬ fits z) →
      b.exchangePairAnswer f = if f.kind = .reply then
          (b.count 5 .unexpectedReply).capture 5 .unexpectedReply (.replyPair f.mac f.dst f.src f.seq f.tag)
        else b.count 5 .unexpectedAnswer)) ∧
  (∀ (b : Bridge) (tag : Nat) (x : Exchange), b.exchange tag = some x →
    b.targetAnswered tag .hold = (b.modExchange tag fun x => { x with state := .held }) ∧
    (x.state = .opened .queued ∨ (∃ d, x.state = .opened (.busyDelay d)) → b.targetAnswered tag .busy = b) ∧
    (x.state = .held ∨ x.state = .opened .awaiting ∨ (∃ w, x.state = .opened (.window w)) →
      b.targetAnswered tag .busy =
        b.modExchange tag fun x => { x with state := .opened (.busyDelay (b.ctl.now + 2500)) }) ∧
    (∀ p s content payload pad, x.requesterRoute = .port p → x.requesterSeq = .bit s →
      let blk : Block := if x.direction = .coaxPair then
          Block.build x.requesterSrc x.numberAsked .reply s (inOrder (orderOf b.dir.entries x.target) content)
        else { dst := x.requesterSrc, src := x.numberAsked, kind := .reply, seq := s, pad, payload }
      b.targetAnswered tag (.reply content payload pad) = (b.offeredOn [p] blk .answer (some p)).closeExchange tag) ∧
    (∀ mac t s content payload pad, x.requesterRoute = .pair mac → x.requesterSeq = .tagged t s →
      b.targetAnswered tag (.reply content payload pad) =
        (b.offeredPair { mac, kind := .reply, seq := s, tag := t, dst := x.requester, src := x.target,
                         data := inOrder (orderOf b.dir.entries x.requester) content } .answer).closeExchange tag) ∧
    (∀ p s reason, x.requesterRoute = .port p → x.requesterSeq = .bit s →
      b.targetAnswered tag (.fail reason) =
        (((b.answer (.coax p x.requesterSrc x.numberAsked s (some x.requester)) (.fail .targetFailed reason) true).closeExchange
          tag).count 5 .targetFailed)) ∧
    (∀ mac t s reason, x.requesterRoute = .pair mac → x.requesterSeq = .tagged t s →
      b.targetAnswered tag (.fail reason) =
        (((b.offeredPair { mac, kind := .fail, reason := 11, seq := s, tag := t, dst := x.requester, src := x.numberAsked,
                           data := if reason = 0 then [] else [BitVec.ofNat 8 reason] } .answer).closeExchange tag).count 5
          .targetFailed))) ∧
  (∀ (b : Bridge) (concerns : Route → Bool) (tag : Nat) (x : Exchange), b.exchange tag = some x →
    let lost := fun r => concerns r = true ∧ b.routeCan r = false
    (¬ lost x.requesterRoute → ¬ lost x.targetRoute → b.exchangeLoss concerns tag = b) ∧
    (lost x.requesterRoute ∨ lost x.targetRoute → b.exchangeLoss concerns tag =
      ((if b.routeCan x.requesterRoute then b.answer (Exchange.asker x) (.fail .unreachable 0) true else b).closeExchange
        tag).count 5 .closedByLine)) ∧
  (∀ (b : Bridge) (concerns : Route → Bool),
    b.exchangeLosses concerns = (List.range 16).foldl (fun c tag => c.exchangeLoss concerns tag) b) ∧
  (∀ s : State, s.bridge.pair.link = true → (∀ z ∈ s.bridge.exchanges, z.1 < 16) →
    ∃ t, exec .linkDown s = .next t ∧ ∀ tag x, t.bridge.exchange tag = some x →
      s.bridge.exchange tag = some x ∧ (∀ m, x.requesterRoute ≠ .pair m) ∧ ∀ m, x.targetRoute ≠ .pair m)

/-! ## The print spool (chapter 7) -/

/-- A job that accepts data and has been silent for the stall timeout stalls: a SPOOL job is ended CANCELLED, a STREAM job's input becomes
PARTIAL and it goes on or ends with what it holds, and STALLED is counted and captured; a job that is not due, or accepts no data, is left
alone (R130). A PRINT-CLOSE is judged in order: job, owner, logical printer, cancel, input; it closes the input, and the job goes to its
queue or ends DONE (R129); a cancel acts by the job's state (R131, R151). A delivery in DATA_WAIT that is told of data or of the closed
input builds its next frame, any other is left as it is (R147). A job's end takes it out of its queue, returns its blocks to the free list
from the first to the last, takes its record out of use, sends its owner the notice, on the owner's port or end from the logical printer's
number there or else the bridge number, or on the pair queue, counting NOTICE_LOST where that cannot be done, and lowers the owner's pin,
which frees a RETIRING owner without pins (R57, R119, R132, R133). That a stall ends its job before STALLED is counted, captured and
noticed (log 65), sequence bit 0 of a notice, and a record cut at the size of a frame (log 40), are the model's choices. -/
def Obligations.JobsStallCloseAndEnd : Prop :=
  (∀ (s : State) (n : Nat) (j : Job), s.takesTraffic → s.bridge.job n = some j →
    (j.input = .opened → j.state ≠ .cancelling → j.lastActivity + 125000 * s.bridge.settings.stallTimeout ≤ s.bridge.ctl.now →
      (j.mode = .spool → exec (.jobStall n) s = .next (s.after []
        (((s.bridge.endJob n .cancelled .stalled).count 7 .stalled).capture 7 .stalled (.job n j.owner)))) ∧
      (j.mode = .stream →
        let b := s.bridge.modJob n fun x => { x with input := .partly }
        let c := if j.started = false ∧ j.total = 0 then b.endJob n .donePartial .none
          else if j.state = .delivering then b.toldOfData j.lp else b
        exec (.jobStall n) s = .next (s.after [] ((c.count 7 .stalled).capture 7 .stalled (.job n j.owner))))) ∧
    (j.input ≠ .opened ∨ j.state = .cancelling ∨
      s.bridge.ctl.now < j.lastActivity + 125000 * s.bridge.settings.stallTimeout →
      exec (.jobStall n) s = .next (s.after [] s.bridge))) ∧
  (∀ (b : Bridge) (owner : DirNo) (l : Lp) (n flag : Nat),
    (b.job n = none → b.judgeClose owner l n flag = (.fail .unknownJob 0, id)) ∧
    (∀ j, b.job n = some j →
      (j.owner ≠ owner → b.judgeClose owner l n flag = (.fail .notOwner 0, id)) ∧
      (j.owner = owner → j.lp ≠ l → b.judgeClose owner l n flag = (.fail .unknownJob 0, id)) ∧
      (j.owner = owner → j.lp = l → flag ≠ 0 →
        b.judgeClose owner l n flag = (.reply [], fun c => c.cancelJob n .owner)) ∧
      (j.owner = owner → j.lp = l → flag = 0 → j.input ≠ .opened ∨ j.state = .cancelling →
        b.judgeClose owner l n flag = (.fail .unknownJob 0, id)) ∧
      (j.owner = owner → j.lp = l → flag = 0 → j.input = .opened → j.state ≠ .cancelling →
        (b.judgeClose owner l n flag).1 = .reply [] ∧
        ∀ c : Bridge,
          let d := c.modJob n fun x => { x with input := .closed }
          (b.judgeClose owner l n flag).2 c =
            match j.mode with
            | .spool =>
              if j.held = 0 then d.endJob n .done .none
              else (d.modJob n fun x => { x with state := .queued }).placeJob l n
            | .stream =>
              if j.started = false ∧ j.total = 0 then d.endJob n .done .none
              else if j.state = .delivering then d.toldOfData l else d))) ∧
  (∀ (b : Bridge) (owner : DirNo) (l : Lp) (o : Order) (data : List Byte),
    b.judgePrint owner l .printClose o data = b.judgeClose owner l (read16 data 0) (read16 data 2) ∧
    b.judgePrint owner l .printOpen o data = b.judgeOpen owner l (data.getD 0 0).toNat (data.getD 1 0 = 1)) ∧
  (∀ (b : Bridge) (n : Nat) (j : Job) (r : JobReason), b.job n = some j →
    (j.state = .filling ∨ j.state = .queued → b.cancelJob n r = b.endJob n .cancelled r) ∧
    (j.state = .cancelling → b.cancelJob n r = b) ∧
    (∀ d, j.state = .delivering → b.record j.lp = some d → d.job = n →
      let c := b.modJob n fun x => { x with cancelReason := some r }
      ((d.phase = .queued ∨ ∃ w, d.phase = .window w) → b.cancelJob n r =
        (c.modJob n fun x => { x with state := .cancelling }).modLp j.lp fun x => { x with state := .cancelling }) ∧
      (d.phase ≠ .queued → (∀ w, d.phase ≠ .window w) → b.cancelJob n r = c.finish j.lp .cancelled r))) ∧
  (∀ (b : Bridge) (n : Nat) (j : Job) (o : JobOutcome) (r : JobReason), b.job n = some j →
    b.endJob n o r =
      ((((b.modLp j.lp fun x => { x with queue := x.queue.filter (· ≠ n) }).modSpool fun x =>
        { x with freeList := j.chain.reverse ++ x.freeList, jobs := x.jobs.filter (·.number ≠ n) }).jobNotice j o r).unpin
          j.owner)) ∧
  (∀ (b : Bridge) (j : Job) (o : JobOutcome) (r : JobReason),
    let bytes := b.noticeRecord (.job j.number (j.lp.val + 2) o r j.total j.copiesDone)
    let lost := fun c : Bridge => c.count 7 .noticeLost
    (b.entry j.owner = none → b.jobNotice j o r = lost b) ∧
    (∀ e, b.entry j.owner = some e →
      (e.reachable = false → b.jobNotice j o r = lost b) ∧
      (∀ mac order, e.reachable = true → e.home = .pair mac order →
        let c := b.offeredPair { mac, kind := .notice, dst := j.owner, src := j.lp.val + 2, data := bytes } .jobNotice
        b.jobNotice j o r = if b.pair.link = true ∧ b.pair.queue.length < 48 then c else lost c) ∧
      (∀ p num, e.reachable = true → e.home = .seg p num →
        let number := (b.numberOf (j.lp.val + 2) (b.segmentOf p)).or (b.bridgeNumberOn (b.segmentOf p))
        let ps := b.endsFor p e.endField
        (number = none → b.jobNotice j o r = lost b) ∧
        (∀ k, number = some k →
          let c := b.offeredOn ps (Block.build num k .notice false bytes) .jobNotice none
          ((∃ q ∈ ps, ¬ b.full1 q) → b.jobNotice j o r = c) ∧ ((∀ q ∈ ps, b.full1 q) → b.jobNotice j o r = lost c))))) ∧
  (∀ (b : Bridge) (n : DirNo) (e : Entry), b.entry n = some e →
    let c := b.modEntry n fun x => { x with pins := x.pins - 1 }
    (e.state = .retiring → e.pins ≤ 1 → b.unpin n = c.freeEntry n) ∧ (e.state ≠ .retiring ∨ 1 < e.pins → b.unpin n = c)) ∧
  (∀ (b : Bridge) (l : Lp), (∀ d, b.record l = some d → d.phase = .dataWait → b.toldOfData l = b.buildFrame l) ∧
    ((∀ d, b.record l = some d → d.phase ≠ .dataWait) → b.toldOfData l = b))

/-- A PRINT-OPEN is judged in order: no primary, no free record, two jobs filling, or accepted. An accepted one takes the job counter's
next number not in use, every number before it being in use, clamps its copies, keeps URGENT only with the right and the binding's leave,
pins its owner, and in STREAM mode joins its queue (R123, R124, R126). A job placed in its queue by its class: URGENT directly after the
last URGENT job or at the head, NORMAL at the tail, every other job keeping its place (R124). -/
def Obligations.PrintOpenIsJudgedAndQueued : Prop :=
  (∀ (b : Bridge) (owner : DirNo) (l : Lp) (copies : Nat) (urgent : Bool),
    ((b.lp l).binding.primary = none →
      b.judgeOpen owner l copies urgent = (.fail .refused 0, fun b => b.count 7 .disabled)) ∧
    ((b.lp l).binding.primary ≠ none → 32 ≤ b.spool.jobs.length →
      b.judgeOpen owner l copies urgent = (.busy, fun b => b.count 7 .jobsFull)) ∧
    ((b.lp l).binding.primary ≠ none → b.spool.jobs.length < 32 → 2 ≤ b.fillingJobs owner →
      b.judgeOpen owner l copies urgent = (.busy, fun b => b.count 7 .fillingLimit)) ∧
    ((b.lp l).binding.primary ≠ none → b.spool.jobs.length < 32 → b.fillingJobs owner < 2 →
      1 ≤ b.spool.jobCounter → b.spool.jobCounter ≤ 65535 →
      ∃ number, 1 ≤ number ∧ number ≤ 65535 ∧ b.job number = none ∧
        (let following := fun n : Nat => if n < 65535 then n + 1 else 1
         ∃ i, number = following^[i] b.spool.jobCounter ∧ ∀ k < i, b.job (following^[k] b.spool.jobCounter) ≠ none) ∧
        (b.judgeOpen owner l copies urgent).1 = .reply (bytes16 number) ∧
        ∀ c : Bridge,
          let mode := (c.lp l).binding.mode
          let d := (c.modSpool fun x =>
            { x with jobs := x.jobs ++ [{ number, owner, lp := l, mode,
                                          urgent := urgent && (c.entry owner).any (·.rights.urgentPrint) && (c.lp l).binding.urgentAllowed,
                                          copies := if mode = .stream then 1 else max 1 (min 9 copies),
                                          lastActivity := c.ctl.now }],
                     jobCounter := if number < 65535 then number + 1 else 1 }).modEntry owner fun e => { e with pins := e.pins + 1 }
          (b.judgeOpen owner l copies urgent).2 c = if mode = .stream then d.placeJob l number else d)) ∧
  (∀ (b : Bridge) (owner : DirNo), b.fillingJobs owner =
    (b.spool.jobs.filter fun j => j.owner = owner ∧ j.state = .filling ∧ j.input = .opened).length) ∧
  (∀ (b : Bridge) (l : Lp) (n : Nat),
    (b.urgentJob n = false → b.placeJob l n = b.modLp l fun x => { x with queue := x.queue ++ [n] }) ∧
    (b.urgentJob n = true → (∀ m ∈ (b.lp l).queue, b.urgentJob m = false) →
      b.placeJob l n = b.modLp l fun x => { x with queue := n :: x.queue }) ∧
    (∀ front u back, b.urgentJob n = true → (b.lp l).queue = front ++ u :: back → b.urgentJob u = true →
      (∀ m ∈ back, b.urgentJob m = false) →
      b.placeJob l n = b.modLp l fun x => { x with queue := front ++ u :: n :: back }))

/-- A PRINT-DATA is judged in order (R127, R128): job, owner, logical printer, input, duplicate, sequence, and then whether the append's
blocks fit the chain and are free. An append is whole: the blocks it needs come from the front of the free list, its bytes go to the
addresses that follow the held bytes, and the job's counts, sequence and last activity follow. That a job that has grown too large is
ended before TOO_LARGE is counted, captured and noticed is the model's choice (log 66). -/
def Obligations.PrintDataIsJudgedInOrder : Prop :=
  ∀ (b : Bridge) (owner : DirNo) (l : Lp) (n seq : Nat) (data : List Byte),
    (b.job n = none → b.judgeData owner l n seq data = (.fail .unknownJob 0, id)) ∧
    (∀ j, b.job n = some j →
      (j.owner ≠ owner → b.judgeData owner l n seq data = (.fail .notOwner 0, id)) ∧
      (j.owner = owner →
        (j.lp ≠ l ∨ j.input ≠ .opened ∨ j.state = .cancelling → b.judgeData owner l n seq data = (.fail .unknownJob 0, id)) ∧
        (j.lp = l → j.input = .opened → j.state ≠ .cancelling →
          (j.lastSeq = some seq → b.judgeData owner l n seq data = (.reply [], id)) ∧
          (j.lastSeq ≠ some seq → seq ≠ j.nextSeq → b.judgeData owner l n seq data = (.fail .sequence j.nextSeq, id)) ∧
          (j.lastSeq ≠ some seq → seq = j.nextSeq →
            let blocks := (j.held + data.length + 511) / 512
            let need := blocks - j.chain.length
            (128 < blocks → j.mode = .spool → b.judgeData owner l n seq data = (.fail .tooLarge 0, fun c =>
              ((c.endJob j.number .cancelled .tooLarge).count 7 .tooLarge).capture 7 .tooLarge (.job j.number j.owner))) ∧
            (128 < blocks → j.mode = .stream →
              b.judgeData owner l n seq data = (.hold 10, fun c => c.count 7 .streamHeld)) ∧
            (blocks ≤ 128 → b.spool.freeList.length < need →
              b.judgeData owner l n seq data = (.hold 10, fun c => c.count 7 .storeFull)) ∧
            (blocks ≤ 128 → need ≤ b.spool.freeList.length →
              (b.judgeData owner l n seq data).1 = .reply [] ∧
              ∀ c : Bridge,
                let chain := j.chain ++ c.spool.freeList.take need
                let d := (c.modSpool fun x =>
                  { x with freeList := x.freeList.drop need,
                           toWrite := (List.range data.length).map fun i =>
                             ((chain.getD ((j.held + i) / 512) 0).val * 512 + (j.held + i) % 512, data.getD i 0) }).modJob j.number
                    fun x => { x with chain, held := x.held + data.length,
                                      total := min 4294967295 (x.total + data.length), lastSeq := some x.nextSeq,
                                      nextSeq := (x.nextSeq + 1) % 256, lastActivity := c.ctl.now }
                (b.judgeData owner l n seq data).2 c = if j.state = .delivering then d.toldOfData j.lp else d)))))

/-! ## Print delivery (chapter 8) -/

/-- A delivery starts when the head job of a logical printer's queue is ready and a printer it is bound to is available, the one its
active target names first: the job leaves its queue and the printer, route, source and pace are latched (R125, R140, R141). Its frames are
built from the delivery position, up to 1022 bytes each (R144), and handed over while the pace allowance covers their weight (R143): the
bytes are read from the store, the first handover of a frame takes the printer's next sequence, and the frame goes to the queues of its
route, or waits LISTED where every queue refuses it. A byte whose parity does not match ends the delivery, FAILED STORE_ERROR or, where
the job is CANCELLING, CANCELLED, with PARITY counted and captured (R120). The model's choices: frames are handed over lowest logical
printer first (log 14), their extent is fixed when they are built (log 13), a frame waits for an end that can transmit (log 17), one that
every end refuses is LISTED for each (log 18), the order AS_SENT for a printer moved from PAIR (log 44; the first counter of a question is
log 40), the place kept on a waiting list (log 41), and no allowance is taken at a latched pace of 0 (log 56). -/
def Obligations.DeliveriesStartAndHandOver : Prop :=
  (∀ (b : Bridge) (l : Lp),
    ((b.lp l).binding.primary = none ∨ (b.lp l).queue = [] → b.readyHead l = none) ∧
    (∀ n rest j, (b.lp l).binding.primary ≠ none → (b.lp l).queue = n :: rest → b.job n = some j →
      b.readyHead l = if j.mode = .spool ∨ 4 ≤ j.chain.length ∨ j.input ≠ .opened then some j else none)) ∧
  (∀ (b : Bridge) (n : DirNo), b.available n = true ↔
    ∃ e r, b.entry n = some e ∧ b.printer n = some r ∧ e.state = .fixed ∧ e.kind = .printer ∧ e.reachable = true ∧
      r.status ≠ .notResponding ∧ r.delivering = none ∧ ∀ p k, e.home = .seg p k → b.bridgeNumberOn (b.segmentOf p) ≠ none) ∧
  (∀ (b : Bridge) (l : Lp),
    let bound := (b.lp l).binding.primary.toList ++ (b.lp l).binding.alternate.toList
    let others := (b.lp l).binding.alternate.toList ++ (b.lp l).binding.primary.toList
    let tried := if (b.lp l).active = .primary then bound else others
    (b.readyHead l = none → b.tryStart l = none) ∧
    (∀ j, b.readyHead l = some j → (∀ n ∈ tried, b.available n = false) → b.tryStart l = none) ∧
    (∀ j front n back, b.readyHead l = some j → tried = front ++ n :: back → (∀ m ∈ front, b.available m = false) →
      b.available n = true → b.tryStart l = some (b.startJob l j n))) ∧
  (∀ (b : Bridge) (l : Lp) (j : Job) (n : DirNo) (e : Entry) (r : Route), b.entry n = some e → b.routeOf e = some r →
    let x := (b.lp l).binding.pace
    let latch := match e.home with
      | .seg p _ => ((b.bridgeNumberOn (b.segmentOf p)).getD 0, if x = 0 then 16 else x)
      | _ => (0, x)
    b.startJob l j n =
      (((((((b.modLp l fun y => { y with queue := y.queue.filter (· ≠ j.number) }).modJob j.number fun y =>
        { y with state := .delivering, started := true, position := 0, latchedTarget := some n, latchedPace := some latch.2 }).modLp l
          fun y => { y with state := .delivering, current := some j.number, active := .primary }).modPrinter n fun y =>
            { y with delivering := some j.number, question := .none }).modEntry n fun y => { y with pins := y.pins + 1 }).modDelivery
              fun y => { y with records := y.records.set l (some { job := j.number, target := n, route := r, source := latch.1,
                                                                   pace := latch.2, refillDue := b.ctl.now + 125 }),
                                pace := y.pace.set l 600 }).buildFrame l)) ∧
  (∀ (b : Bridge) (l : Lp) (d : Delivery) (j : Job), b.record l = some d → b.job d.job = some j →
    let beyond := j.held - j.position
    let seq := if d.fresh then d.counter else d.counter + 1
    let built := fun f : DeliveryFrame =>
      b.setRecord l (some { d with frame := some f, counter := seq, fresh := false, phase := .pacing, tries := 1 })
    (j.mode = .spool → b.buildFrame l = built
      { start := j.position, count := min 1022 beyond, first := j.position = 0, endOfCopy := j.position + min 1022 beyond = j.held,
        seq }) ∧
    (j.mode = .stream → j.input = .opened → 1022 ≤ beyond → b.buildFrame l = built
      { start := j.position, count := 1022, first := d.fresh, endOfCopy := false, seq }) ∧
    (j.mode = .stream → j.input = .opened → beyond < 1022 →
      b.buildFrame l = b.setRecord l (some { d with frame := none, phase := .dataWait })) ∧
    (j.mode = .stream → j.input ≠ .opened → b.buildFrame l = built
      { start := j.position, count := min 1022 beyond, first := d.fresh, endOfCopy := j.position + min 1022 beyond = j.held, seq })) ∧
  (∀ (b : Bridge) (l : Lp), b.mayHandOver l = true ↔ ∃ d f, b.record l = some d ∧ d.phase = .pacing ∧ d.frame = some f ∧
    (d.pace = 0 ∨ 1 + (f.count + 1) / 2 ≤ b.delivery.pace[l]) ∧ ((∃ mac, d.route = .pair mac) ∨ b.routePorts d.route ≠ [])) ∧
  (∀ (m : Store) (k : Nat) (b : Bridge),
    ((∀ l, b.mayHandOver l = false) → Bridge.handOvers m k b = b) ∧
    (∀ l : Lp, b.mayHandOver l = true → (∀ x : Lp, x < l → b.mayHandOver x = false) →
      Bridge.handOvers m (k + 1) b = Bridge.handOvers m k (b.handOver m l))) ∧
  (∀ (m : Store) (b : Bridge) (l : Lp) (d : Delivery) (f : DeliveryFrame) (j : Job), b.record l = some d → d.frame = some f →
    b.job d.job = some j → (∀ p, d.route = .unknownEnd p → p.val % 2 = 0) →
    let addrs := (List.range f.count).map fun i =>
      (j.chain.getD ((f.start + i) / 512) 0).val * 512 + (f.start + i) % 512
    let bytes := addrs.map (Memory.read m.cells)
    let paid := if d.pace = 0 then b
      else b.modDelivery fun y => { y with pace := y.pace.set l (y.pace[l] - (1 + (f.count + 1) / 2)) }
    let flags := Config.flagsByte f.first f.endOfCopy
    let again := f.asked = true ∧ ∃ q, b.question d.target = .frame q
    (∀ front a back, addrs = front ++ a :: back → (∀ z ∈ front, z ∉ m.bad) → a ∈ m.bad →
      b.handOver m l = ((if j.state = .cancelling then b.finishCancelled l else b.finish l .failed .storeError).count 8
        .parity).capture 8 .parity (.parity (Fin.ofNat 512 (a / 512)) j.number)) ∧
    (∀ seq c, (∀ a ∈ addrs, a ∉ m.bad) → (∀ mac, d.route ≠ .pair mac) →
      (∀ q, f.asked = true → b.question d.target = .frame q → seq = q ∧ c = paid) →
      (¬ again → seq = .bit (!(b.entry d.target).any (·.bridgeBit)) ∧
        c = ((paid.modEntry d.target fun x => { x with bridgeBit := !(b.entry d.target).any (·.bridgeBit) }).modPrinter d.target
          fun r => { r with question := .frame seq })) →
      let blk := Block.build (b.homeNumber d.target) d.source .printData (seq = .bit true) ([f.seq, flags] ++ bytes)
      let ps := b.routePorts d.route
      let x := c.offeredOn ps blk (.delivery l) d.route.named
      ((∃ p ∈ ps, ¬ b.full1 p) → b.handOver m l =
        x.setRecord l (some { d with phase := .queued, frame := some { f with asked := true, serial := b.serial } })) ∧
      ((∀ p ∈ ps, b.full1 p) → b.handOver m l =
        ps.foldl (fun y p => y.modPort p fun z =>
            { z with waiting := if z.waiting.contains l then z.waiting else z.waiting ++ [l] })
          (x.setRecord l (some { d with phase := .listed,
                                        frame := some { f with asked := true, serial := b.serial,
                                                               built := some (seq, [f.seq, flags] ++ bytes) } })))) ∧
    (∀ mac seq c, (∀ a ∈ addrs, a ∉ m.bad) → d.route = .pair mac →
      (∀ q, f.asked = true → b.question d.target = .frame (.byte q) → seq = q ∧ c = paid) →
      (∀ q, b.question d.target ≠ .frame (.bit q)) →
      (¬ again → seq = b.pair.question ∧
        c = ((paid.modPair fun x => { x with question := x.question + 1 }).modPrinter d.target
          fun r => { r with question := .frame (.byte seq) })) →
      let data := [f.seq, flags] ++ inOrder (orderOf b.dir.entries d.target) bytes
      let x := c.offeredPair { mac, kind := .printData, seq, tag := l.val + 2, dst := d.target, src := l.val + 2, data } (.delivery l)
      let sent := { f with asked := true, serial := b.serial }
      (b.pair.link = true → b.pair.queue.length < 48 → b.handOver m l =
        x.setRecord l (some { d with phase := .queued, frame := some sent })) ∧
      (b.pair.link = true → 48 ≤ b.pair.queue.length → b.handOver m l =
        ((x.setRecord l (some { d with phase := .listed, frame := some { sent with built := some (.byte seq, data) } })).modPair
          fun z => { z with waiting := if z.waiting.contains l then z.waiting else z.waiting ++ [l] })) ∧
      (b.pair.link = false → b.handOver m l =
        (x.setRecord l (some { d with phase := .queued, frame := some sent })).tryEnds l)))

/-- While a logical printer has a current job its pace allowance rises every 1 ms by twice the latched pace, up to 600. A closed window
with tries left sends the frame to PACING as a resend with one try more; at the third try the printer becomes NOT_RESPONDING, NO_RESPONSE
is counted and the delivery stops. An ended hold wait sends the frame to PACING with tries made 1. A timer that is not due changes nothing
(R143, R146, R148). That a CANCELLING delivery is stopped by its third unanswered try as any other is the model's choice between R151 and
R152 (log 16). -/
def Obligations.DeliveryTimersActOnTheRecord : Prop :=
  (∀ (s : State) (l : Lp) (u : List Nat), s.takesTraffic →
    (∀ d, s.bridge.record l = some d → d.refillDue ≤ s.bridge.ctl.now →
      exec (.paceRefill l u) s = .next (s.after u (s.bridge.modDelivery fun x =>
        { x with records := x.records.set l (some { d with refillDue := d.refillDue + 125 }),
                 pace := x.pace.set l (min 600 (x.pace[l] + 2 * d.pace)) }))) ∧
    (∀ d, s.bridge.record l = some d → s.bridge.ctl.now < d.refillDue →
      exec (.paceRefill l u) s = .next (s.after u s.bridge)) ∧
    (s.bridge.record l = none → exec (.paceRefill l u) s = .next (s.after u s.bridge))) ∧
  (∀ (s : State) (l : Lp) (u : List Nat) (d : Delivery), s.takesTraffic → s.bridge.record l = some d →
    (∀ w, d.phase = .window w → w ≤ s.bridge.ctl.now → d.tries < 3 →
      exec (.deliveryWindowClose l u) s = .next (s.after u (s.bridge.setRecord l
        (some { d with phase := .pacing, tries := d.tries + 1, frame := d.frame.map fun f => { f with built := none } })))) ∧
    (∀ w, d.phase = .window w → w ≤ s.bridge.ctl.now → 3 ≤ d.tries →
      exec (.deliveryWindowClose l u) s = .next (s.after u (((s.bridge.modPrinter d.target fun r =>
        { r with status := .notResponding,
                 pollFrom := if (s.bridge.entry d.target).any (·.reachable) then some s.bridge.ctl.now else none }).countDelivery
          .noResponse).stop l))) ∧
    (∀ w, d.phase = .window w → s.bridge.ctl.now < w →
      exec (.deliveryWindowClose l u) s = .next (s.after u s.bridge)) ∧
    (∀ w, d.phase = .holdWait w → w ≤ s.bridge.ctl.now →
      exec (.holdWaitEnd l u) s = .next (s.after u (s.bridge.setRecord l
        (some { d with phase := .pacing, tries := 1, frame := d.frame.map fun f => { f with built := none } })))) ∧
    (∀ w, d.phase = .holdWait w → s.bridge.ctl.now < w → exec (.holdWaitEnd l u) s = .next (s.after u s.bridge)))

/-- At 2 s of the poll timer it starts again from 0 and a new question is put to the printer: a STATUS with no payload, on the route and
from the source of the delivery in hand, or on the printer's own route from the bridge number where it is REACHABLE and entry 1 is
present; in class 0 of each port of the route, or on the pair queue with tag 1; one that finds the link DOWN or that queue full counts as
unanswered at once (R32). A query's closed window gives it up. A pause longer than the pause limit makes the printer NOT_RESPONDING,
counts PAUSE_LIMIT and stops the delivery (R13, R149, R150). Source field 1 of a query on the pair side is the model's choice (log 31). -/
def Obligations.StatusQueriesAndPauses : Prop :=
  (∀ (s : State) (n : DirNo) (r : Printer) (t : Time) (e : Entry) (route : Route) (src : Nat), s.takesTraffic →
    s.bridge.printer n = some r → r.pollFrom = some t → t + 250000 ≤ s.bridge.ctl.now → s.bridge.entry n = some e →
    ((∃ l d, s.bridge.lpDelivering n = some l ∧ s.bridge.record l = some d ∧ route = d.route ∧ src = d.source) ∨
      (s.bridge.lpDelivering n = none ∧ s.bridge.routeOf e = some route ∧ s.bridge.querySource e = some src
        ∧ e.reachable = true)) →
    (∀ p num, e.home = .seg p num → (∀ mac, route ≠ .pair mac) →
      exec (.statusQueryDue n) s = .next (s.after []
        ((s.bridge.routePorts route).foldl (fun b p => b.offer0 p
            { block := { dst := num, src, kind := .status, seq := !e.bridgeBit }, origin := .query n, serial := s.bridge.serial,
              named := route.named })
          (((s.bridge.modPrinter n fun r => { r with pollFrom := some s.bridge.ctl.now }).modEntry n fun e =>
            { e with bridgeBit := !e.bridgeBit }).modPrinter n fun r =>
              { r with question := .query (.bit (!e.bridgeBit)) s.bridge.serial none }).nextSerial))) ∧
    (∀ mac, route = .pair mac → s.bridge.pair.link = true → s.bridge.pair.queue.length < 48 →
      exec (.statusQueryDue n) s = .next (s.after []
        ((((s.bridge.modPrinter n fun r => { r with pollFrom := some s.bridge.ctl.now }).modPair fun x =>
          { x with question := x.question + 1 }).modPrinter n fun r =>
            { r with question := .query (.byte s.bridge.pair.question) s.bridge.serial none }).queuedPair
          { mac, kind := .status, seq := s.bridge.pair.question, tag := 1, dst := n, src := 1 } (.query n)))) ∧
    (∀ mac, route = .pair mac → s.bridge.pair.link = false ∨ 48 ≤ s.bridge.pair.queue.length →
      exec (.statusQueryDue n) s = .next (s.after []
        ((((s.bridge.modPrinter n fun r => { r with pollFrom := some s.bridge.ctl.now }).modPair fun x =>
          { x with question := x.question + 1 }).modPrinter n fun r => { r with question := .none }).setSerial
            (s.bridge.serial + 1))))) ∧
  (∀ (s : State) (n : DirNo) (r : Printer), s.takesTraffic → s.bridge.printer n = some r →
    ((∀ t, r.pollFrom = some t → s.bridge.ctl.now < t + 250000) →
      exec (.statusQueryDue n) s = .next (s.after [] s.bridge)) ∧
    (∀ t e, r.pollFrom = some t → t + 250000 ≤ s.bridge.ctl.now → s.bridge.lpDelivering n = none → s.bridge.entry n = some e →
      e.reachable = false ∨ s.bridge.querySource e = none →
      exec (.statusQueryDue n) s = .next (s.after [] (s.bridge.modPrinter n fun r =>
        { r with pollFrom := some s.bridge.ctl.now })))) ∧
  (∀ (s : State) (n : DirNo) (r : Printer) (q : OutSeq) (k : Nat) (w : Time), s.takesTraffic → s.bridge.printer n = some r →
    r.question = .query q k (some w) →
    (w ≤ s.bridge.ctl.now → exec (.queryWindowClose n) s = .next (s.after [] (s.bridge.modPrinter n fun r =>
      { r with question := .none }))) ∧
    (s.bridge.ctl.now < w → exec (.queryWindowClose n) s = .next (s.after [] s.bridge))) ∧
  (∀ (s : State) (n : DirNo) (r : Printer) (t : Time), s.takesTraffic → s.bridge.printer n = some r → r.pauseStart = some t →
    (∀ l, s.bridge.settings.pauseLimit ≠ 0 → t + 125000 * (60 * s.bridge.settings.pauseLimit) < s.bridge.ctl.now →
      s.bridge.lpDelivering n = some l →
      exec (.pauseLimit n) s = .next (s.after [] (((s.bridge.modPrinter n fun r =>
        { r with status := .notResponding,
                 pollFrom := if (s.bridge.entry n).any (·.reachable) then some s.bridge.ctl.now else none }).countDelivery
          .pauseLimit).stop l))) ∧
    (s.bridge.settings.pauseLimit = 0 ∨ s.bridge.ctl.now ≤ t + 125000 * (60 * s.bridge.settings.pauseLimit) →
      exec (.pauseLimit n) s = .next (s.after [] s.bridge)))

/-- The answers of a printer. An answer matches the question in hand by its sequence and, on the pair side, its tag; any other counts
UNEXPECTED_ANSWER, and a silent printer that speaks becomes UNKNOWN (R145, R149, R150). The matching answer to a frame: a REPLY moves the
delivery position past it, and the next frame is built, the next copy begins, or the job ends; HOLD and BUSY wait; READY sends the frame
again; PAPER_OUT and OFFLINE pause the delivery; FAIL counts PRINTER_FAIL and ends the try (R145, R146). A STATUS that matches a query
sets the printer's status, and READY ends a pause (R149, R150). An answer for a CANCELLING job finishes it (R151). A stop frees the
printer, turns to the other bound printer where that one is available, requeues a SPOOL job and fails a STREAM job, and counts STOPPED
(R152). Free printers are then offered: to the WAITING list, oldest first, where one that starts, or has no ready head, leaves; then to
each IDLE logical printer with a ready head, by number, and last to those whose delivery has just ended: one that finds no printer joins
the list (R142). That all of them are offered at each end of a delivery (log 14), that the active target stays where a commit has unbound
the printer (log 57), that a REPLY under CANCELLING does not raise the copies done (log 58), and that a WAITING logical printer leaves the
list where an URGENT job that is not ready has taken its head (log 68), are the model's choices; the resend after a pause is a new
question by log 15, and the tag and source field 1 of a pair query are log 31. -/
def Obligations.PrinterAnswersActOnTheDelivery : Prop :=
  (∀ (b : Bridge) (n : DirNo) (seq : OutSeq) (tag : Option Nat) (x : PrinterAnswer),
    let stray := (b.countDelivery .unexpectedAnswer).modPrinter n fun r =>
      if r.status = .notResponding then { r with status := .unknown, pollFrom := none } else r
    (∀ l, b.question n = .frame seq → b.lpDelivering n = some l → (tag = none ∨ tag = some (l.val + 2)) →
      b.printerAnswer n seq tag x = b.frameAnswered l x) ∧
    (∀ q k w c, b.question n = .query q k w → seq = q → tag = none ∨ tag = some 1 → x = .status c →
      b.printerAnswer n seq tag x = b.queryAnswered n (b.lpDelivering n) c) ∧
    (∀ q k w, b.question n = .query q k w → seq = q → tag = none ∨ tag = some 1 → (∀ c, x ≠ .status c) →
      b.printerAnswer n seq tag x = ((b.modPrinter n fun r => { r with question := .none }).modPrinter n fun r =>
        if r.status = .notResponding then { r with status := .unknown, pollFrom := none } else r)) ∧
    (b.question n = .none → b.printerAnswer n seq tag x = stray) ∧
    (∀ q, b.question n = .frame q →
      q ≠ seq ∨ b.lpDelivering n = none ∨ (∃ l t, b.lpDelivering n = some l ∧ tag = some t ∧ t ≠ l.val + 2) →
      b.printerAnswer n seq tag x = stray) ∧
    (∀ q k w, b.question n = .query q k w → q ≠ seq ∨ (∃ t, tag = some t ∧ t ≠ 1) → b.printerAnswer n seq tag x = stray)) ∧
  (∀ (b : Bridge) (n : DirNo) (l : Option Lp) (code : StatusCode),
    let known := b.modPrinter n fun r =>
      { r with status := (match code with | .ready => .ready | .busy => .busy | .paperOut => .paperOut | .offline => .offline),
               question := .none, pollFrom := if (b.printer n).any (·.status = .notResponding) then none else r.pollFrom }
    (∀ x d, l = some x → code = .ready → b.record x = some d → d.phase = .paused →
      b.queryAnswered n l code = (known.modPrinter n fun r => { r with pauseStart := none, pollFrom := none }).setRecord x
        (some { d with phase := .pacing, tries := 1, frame := d.frame.map fun f => { f with built := none } })) ∧
    (l = none ∨ code ≠ .ready ∨ (∃ x, l = some x ∧ ∀ d, b.record x = some d → d.phase ≠ .paused) →
      b.queryAnswered n l code = known)) ∧
  (∀ (b : Bridge) (l : Lp) (d : Delivery) (j : Job) (x : PrinterAnswer), b.record l = some d → b.job d.job = some j →
    let c := if x = .fail then b.countDelivery .printerFail else b
    let reported := fun (c : Bridge) (st : PrinterStatus) => c.modPrinter d.target fun r => { r with status := st }
    let waits := fun units => ((reported b .busy).setRecord l
      (some { d with phase := .holdWait (b.ctl.now + 1250 * max 1 (min 500 units)), tries := 1 }))
    let resent := fun tries => some { d with phase := .pacing, tries, frame := d.frame.map fun f => { f with built := none } }
    (j.state = .cancelling →
      (∀ st, x = .status st → b.frameAnswered l x = (reported c (match st with
        | .ready => .ready | .busy => .busy | .paperOut => .paperOut | .offline => .offline)).finishCancelled l) ∧
      (x = .busy ∨ (∃ t, x = .hold t) → b.frameAnswered l x = (reported c .busy).finishCancelled l) ∧
      (x = .reply ∨ x = .fail → b.frameAnswered l x = c.finishCancelled l)) ∧
    (j.state ≠ .cancelling →
      (∀ t, x = .hold t → b.frameAnswered l x = waits t) ∧
      (x = .busy ∨ x = .status .busy → b.frameAnswered l x = waits 10) ∧
      (x = .status .ready → b.frameAnswered l x = (reported b .ready).setRecord l (resent 1)) ∧
      (∀ st, (x = .status .paperOut ∧ st = .paperOut) ∨ (x = .status .offline ∧ st = .offline) →
        b.frameAnswered l x = ((b.modPrinter d.target fun r =>
          { r with status := st, question := .none, pauseStart := some b.ctl.now, pollFrom := some b.ctl.now }).setRecord l
            (some { d with phase := .paused, frame := d.frame.map fun f => { f with asked := false, built := none } }))) ∧
      (x = .fail → d.tries < 3 → b.frameAnswered l x = c.setRecord l (resent (d.tries + 1))) ∧
      (x = .fail → 3 ≤ d.tries → b.frameAnswered l x = ((c.modPrinter d.target fun r =>
        { r with status := .notResponding,
                 pollFrom := if (c.entry d.target).any (·.reachable) then some c.ctl.now else none }).countDelivery
          .noResponse).stop l) ∧
      (∀ f, x = .reply → d.frame = some f →
        let ends := f.start + f.count
        let k := ends / 512
        let y := b.modPrinter d.target fun r => { r with question := .none }
        let z := match j.mode with
          | .spool => y.modJob d.job fun _ => { j with position := ends }
          | .stream => (y.modJob d.job fun _ =>
              { j with chain := j.chain.drop k, held := j.held - 512 * k, position := ends - 512 * k }).modSpool fun s =>
                { s with freeList := (j.chain.take k).reverse ++ s.freeList }
        let done := z.modJob d.job fun y => { y with copiesDone := y.copiesDone + 1 }
        (f.endOfCopy = false → b.frameAnswered l x = z.buildFrame l) ∧
        (f.endOfCopy = true → j.copiesDone + 1 < j.copies →
          b.frameAnswered l x = (done.modJob d.job fun y => { y with position := 0 }).buildFrame l) ∧
        (f.endOfCopy = true → j.copies ≤ j.copiesDone + 1 →
          b.frameAnswered l x = done.finish l (if j.mode = .stream ∧ j.input = .partly then .donePartial else .done) .none)))) ∧
  (∀ (b : Bridge) (l : Lp) (d : Delivery) (o : JobOutcome) (r : JobReason), b.record l = some d →
    let freed := (b.modPrinter d.target fun y =>
      { y with delivering := none, pauseStart := none, question := .none,
               pollFrom := if y.status = .notResponding then y.pollFrom else none }).unpin d.target
    let ended := fun c : Bridge => ((c.setRecord l none).modLp l fun y => { y with state := .idle, current := none }).modDelivery
      fun y => { y with ended := y.ended ++ [l] }
    b.finish l o r = ((ended freed).endJob d.job o r).dispatch ∧
    (∀ j, freed.job d.job = some j →
      let x := (freed.lp l).binding
      let turned := if x.primary = some d.target then
          (if x.alternate.any freed.available then freed.modLp l fun y => { y with active := .alternate } else freed)
        else if x.alternate = some d.target then
          (if x.primary.any freed.available then freed.modLp l fun y => { y with active := .primary } else freed)
        else freed
      b.stop l =
        ((if j.state = .cancelling then (ended turned).endJob d.job .cancelled (j.cancelReason.getD .owner)
          else if j.mode = .stream then (ended turned).endJob d.job .failed .targetLost
          else (((ended turned).modJob d.job fun y =>
              { y with state := .queued, position := 0, latchedTarget := none, latchedPace := none }).modLp j.lp fun y =>
                { y with queue := d.job :: y.queue })).countDelivery .stopped).dispatch)) ∧
  (∀ b : Bridge, b.dispatch =
    (b.delivery.ended.foldl Bridge.offerIdle (((List.finRange 8).filter fun l => l ∉ b.delivery.ended).foldl Bridge.offerIdle
      (b.delivery.waiting.foldl Bridge.offerWaiting b))).modDelivery fun y => { y with ended := [] }) ∧
  (∀ (b : Bridge) (l : Lp),
    let leaves := fun c : Bridge => c.modDelivery fun y => { y with waiting := y.waiting.filter (· ≠ l) }
    (b.readyHead l = none → b.offerWaiting l = leaves (b.modLp l fun y => { y with state := .idle })) ∧
    (∀ j c, b.readyHead l = some j → b.tryStart l = some c → b.offerWaiting l = leaves c) ∧
    (∀ j, b.readyHead l = some j → b.tryStart l = none → b.offerWaiting l = b) ∧
    ((b.lp l).state ≠ .idle ∨ b.readyHead l = none → b.offerIdle l = b) ∧
    (∀ j c, (b.lp l).state = .idle → b.readyHead l = some j → b.tryStart l = some c → b.offerIdle l = c) ∧
    (∀ j, (b.lp l).state = .idle → b.readyHead l = some j → b.tryStart l = none →
      b.offerIdle l = (b.modLp l fun y => { y with state := .waiting }).modDelivery fun y => { y with waiting := y.waiting ++ [l] }))

/-! ## Management (chapters 4 and 11) -/

/-- Who may manage (R181, R182): a source whose entry is FIXED and holds MANAGE, and, in the setup state, any pair-side source. Every
request from another source is answered DENIED and changes nothing else. A management answer goes back the way its request came: a MANAGE
block in class 1 of the arrival port, from the number asked to the asker, with its sequence bit; or a MANAGE frame on the pair queue to
the asker's MAC, with the tag and sequence of the request and the destination field of the request as its source. An answer that its queue
refuses, or that the link cannot take, counts ANSWER_LOST (R12, R30, R181). -/
def Obligations.ManagementIsJudgedAndAnswered : Prop :=
  (∀ (s : State) (a : Asker), s.takesTraffic →
     (s.bridge.mayManage a = true ↔
       (∃ n e, a.entry = some n ∧ s.bridge.entry n = some e ∧ e.state = .fixed ∧ e.rights.manage = true) ∨
       (s.bridge.agent.setup = true ∧ a.onPair = true)) ∧
     (s.bridge.mayManage a = false → ∀ (sel id : Nat) (v : SettingValue) (ed : EntryEdit) (x : Binding) (k : FaultSet) (y : Bool),
       exec (.readStatus a) s = .next (s.answered a 1 0 .denied .none s.bridge) ∧
       exec (.setSetting a sel id v) s = .next (s.answered a 2 sel .denied .none s.bridge) ∧
       exec (.readSetting a sel id) s = .next (s.answered a 3 sel .denied .none s.bridge) ∧
       exec (.readEntry a sel) s = .next (s.answered a 4 sel .denied .none s.bridge) ∧
       exec (.editEntry a sel ed) s = .next (s.answered a 5 sel .denied .none s.bridge) ∧
       exec (.editPrinter a sel x) s = .next (s.answered a 6 sel .denied .none s.bridge) ∧
       exec (.discardEdits a) s = .next (s.answered a 7 0 .denied .none s.bridge) ∧
       exec (.commit a) s = .next (s.answered a 8 0 .denied .none s.bridge) ∧
       exec (.readPort a sel) s = .next (s.answered a 9 sel .denied .none s.bridge) ∧
       exec (.clearFaults a sel k y) s = .next (s.answered a 10 sel .denied .none s.bridge) ∧
       exec (.readSpool a sel) s = .next (s.answered a 11 sel .denied .none s.bridge) ∧
       exec (.readJob a sel) s = .next (s.answered a 12 sel .denied .none s.bridge) ∧
       exec (.cancelJob a sel) s = .next (s.answered a 13 sel .denied .none s.bridge) ∧
       exec (.readPrinter a sel y) s = .next (s.answered a 14 sel .denied .none s.bridge) ∧
       exec (.readErrors a sel) s = .next (s.answered a 15 sel .denied .none s.bridge) ∧
       exec (.clearErrors a sel y) s = .next (s.answered a 16 sel .denied .none s.bridge) ∧
       exec (.readForwarding a y) s = .next (s.answered a 17 0 .denied .none s.bridge) ∧
       exec (.save a) s = .next (s.answered a 18 0 .denied .none s.bridge) ∧
       exec (.resetBridge a) s = .next (s.answered a 19 0 .denied .none s.bridge) ∧
       exec (.resetPort a sel) s = .next (s.answered a 20 sel .denied .none s.bridge))) ∧
  (∀ (s : State) (a : Asker) (code sel : Nat) (r : Result) (body : AnswerBody) (b : Bridge),
     let bytes := answerRecord code sel r body
     (∀ p src dst seq e, a = .coax p src dst seq e →
       s.answered a code sel r body b = s.after []
         (if (b.port p).class1.length < 24 then (b.modPort p fun x =>
             { x with class1 := x.class1 ++
                 [{ block := Block.build src dst .manage seq bytes, origin := .agent, serial := b.serial }] }).setSerial (b.serial + 1)
          else (b.modAgent fun x => { x with answerLost := min 65535 (x.answerLost + 1) }).setSerial (b.serial + 1))) ∧
     (∀ mac dst tag seq e, a = .pair mac dst tag seq e →
       s.answered a code sel r body b = s.after []
         (if b.pair.link = true ∧ b.pair.queue.length < 48 then
           b.queuedPair { mac, kind := .manage, seq, tag, dst := e.getD 0, src := dst, data := bytes } .agent
          else (b.modAgent fun x => { x with answerLost := min 65535 (x.answerLost + 1) }).setSerial (b.serial + 1))))

/-- The reads give their records as stored and change nothing but the answer's queue (R183). The reads with a clear flag answer the record
as it stood before the clear; the flag sets the counters to 0, and CLEAR-ERRORS takes the first error and MULTIPLE away with or without
it. A poll timer is answered as it stands, 0 to 2 s, read from the clock (R95, R154, R183, R185; log 38). The feed controller's record is
answered for the lower port of a paired segment, and for no other (R173, R183); that its probe timer reads 0 outside SPLIT (log 79), and
the quiet time of a JABBER that has left the hold set (log 72), are the model's choices. -/
def Obligations.ReadsAnswerTheStoredRecords : Prop :=
  (∀ (s : State) (a : Asker) (sel : Nat), s.takesTraffic → s.bridge.mayManage a = true →
     let b := s.bridge
     exec (.readStatus a) s = .next (s.answered a 1 0 .ok (.status
       { cause := b.ctl.cause, setup := b.agent.setup, load := b.agent.loadResult, save := b.agent.saveState,
         lastSave := b.agent.lastSave, seconds := min ((b.ctl.now - b.ctl.secondsFrom) / 125000) 4294967295,
         entriesInUse := b.dir.entries.length, pendingEdits := b.dir.staging.length, fault := b.reporting.fault,
         answerLost := b.agent.answerLost, noticeDropped := b.reporting.noticeDropped }) b) ∧
     (1 ≤ sel → sel ≤ 384 → exec (.readEntry a sel) s = .next (s.answered a 4 sel .ok (.entry (b.entry sel)) b)) ∧
     (sel < 1 ∨ 384 < sel → exec (.readEntry a sel) s = .next (s.answered a 4 sel .malformed .none b)) ∧
     (∀ p : Port, sel = p.val → exec (.readPort a sel) s = .next (s.answered a 9 sel .ok (.port
       { state := (b.mon p).state, hold := (b.mon p).hold, latched := (b.mon p).latched, testOwed := (b.mon p).testOwed,
         restarts := (b.mon p).restarts, echo := (b.mon p).echo, lowRun := (b.mon p).lowRun,
         jabberQuiet := match (b.mon p).jabberFrom with
           | some t => min 500 ((b.ctl.now - t) / 125)
           | none => 0,
         history := (b.mon p).history,
         smoothed := if (b.mon p).history = [] then none else some ((b.mon p).history.sum / (b.mon p).history.length),
         degraded := (b.mon p).degraded, mode := (b.mon p).mode, allowance := (b.port p).allowance,
         remainder := (b.port p).remainder, counters := (b.group (lineGroup p)).counters, feed := b.feedRead p }) b)) ∧
     (3 < sel → exec (.readPort a sel) s = .next (s.answered a 9 sel .malformed .none b)) ∧
     (sel = 0 → exec (.readSpool a sel) s =
       .next (s.answered a 11 sel .ok (.spool b.spool.freeList.length b.spool.jobs.length none) b)) ∧
     (∀ l : Lp, sel = l.val + 2 → exec (.readSpool a sel) s =
       .next (s.answered a 11 sel .ok (.spool b.spool.freeList.length b.spool.jobs.length (some (b.lp l))) b)) ∧
     (sel = 1 ∨ 9 < sel → exec (.readSpool a sel) s = .next (s.answered a 11 sel .malformed .none b)) ∧
     (∀ j, 1 ≤ sel → sel ≤ 65535 → b.job sel = some j → exec (.readJob a sel) s = .next (s.answered a 12 sel .ok (.job j) b)) ∧
     (1 ≤ sel → sel ≤ 65535 → b.job sel = none → exec (.readJob a sel) s = .next (s.answered a 12 sel .notFound .none b)) ∧
     (sel < 1 ∨ 65535 < sel → exec (.readJob a sel) s = .next (s.answered a 12 sel .malformed .none b)) ∧
     (∀ g : Fin 9, sel = g.val → exec (.readErrors a sel) s = .next (s.answered a 15 sel .ok (.errors (b.group g)) b)) ∧
     (8 < sel → exec (.readErrors a sel) s = .next (s.answered a 15 sel .malformed .none b))) ∧
  (∀ (b : Bridge) (p : Port),
     let f := b.feed (pairOf p)
     (b.paired p = true → p = lowerOf (pairOf p) → b.feedRead p = some
       { state := f.state, window := f.window, counters := f.counters,
         probeTimer := match f.probeFrom with
           | some t => min 1250000 (b.ctl.now - t)
           | none => 0 }) ∧
     (b.paired p = false ∨ p = upperOf (pairOf p) → b.feedRead p = none)) ∧
  (∀ (s : State) (a : Asker) (sel : Nat) (clear : Bool), s.takesTraffic → s.bridge.mayManage a = true →
     let b := s.bridge
     let zero := fun l : Counters => if clear then l.map fun x => (x.1, 0) else l
     (∀ l : Lp, sel = l.val + 2 → exec (.readPrinter a sel clear) s =
       .next (s.answered a 14 sel .ok (.delivery (b.record l) b.delivery.pace[l] b.delivery.counters)
         (b.modDelivery fun x => { x with counters := zero x.counters }))) ∧
     (∀ r, 10 ≤ sel → sel ≤ 384 → b.printer sel = some r → exec (.readPrinter a sel clear) s =
       .next (s.answered a 14 sel .ok (.printer
          { status := r.status, delivering := r.delivering, pauseStart := r.pauseStart, question := r.question,
            pollTimer := r.pollFrom.map fun t => min 250000 (b.ctl.now - t) } b.delivery.counters)
         (b.modDelivery fun x => { x with counters := zero x.counters }))) ∧
     (10 ≤ sel → sel ≤ 384 → b.printer sel = none → exec (.readPrinter a sel clear) s =
       .next (s.answered a 14 sel .notFound .none b)) ∧
     (sel < 2 ∨ 384 < sel → exec (.readPrinter a sel clear) s = .next (s.answered a 14 sel .malformed .none b)) ∧
     (∀ g : Fin 9, sel = g.val → exec (.clearErrors a sel clear) s =
       .next (s.answered a 16 sel .ok (.errors (b.group g)) (b.modGroup g fun x =>
         { counters := zero x.counters, first := none, multiple := false }))) ∧
     (8 < sel → exec (.clearErrors a sel clear) s = .next (s.answered a 16 sel .malformed .none b)) ∧
     exec (.readForwarding a clear) s =
       .next (s.answered a 17 0 .ok (.forwarding b.forwarding) (b.setForwarding (zero b.forwarding))))

/-- A setting is stored within its range and answered as stored; a number outside its range is brought to the nearer end; no other setting
changes. A setting of a port, and the pairing, takes its port from the selector, which a SET-SETTING of any other ignores. A SET-SETTING
with an unknown identifier, a value of another kind, a port selector above 3, a group address or a destination below 10 or above 384 is
MALFORMED and changes nothing. A READ-SETTING answers what is stored; one with an unknown identifier, or with a selector above 3 whatever
the identifier, is MALFORMED (R183 for the selector); the unknown identifier (log 81), and that selectors 1 to 3 of a setting that is not
of a port are answered (log 74), are the model's choices. A changed cap or sampling mode acts at once (R99, R167, R184). The port enable
setting: ON to OFF makes the port OFF with its hold set, test owed and counts empty and its latched set, history and DEGRADED kept; OFF to
ON makes it TESTING with the test owed and the sampler started (R159); what such a change of state does beyond the monitor is in
DetectionsIsolateThePort. That a request takes its effect before its answer is offered is the model's choice (log 23). -/
def Obligations.SettingsAreStoredAndTakeEffect : Prop :=
  (∀ (x : Settings) (p : Port) (id n : Nat) (lo hi : Nat),
    (id, lo, hi) ∈ [(1, 0x0600, 0xFFFF), (8, 10, 600), (9, 1, 255), (12, 5, 90), (13, 521, 8191), (14, 1, 255), (15, 5, 255),
      (16, 0, 60), (24, 10, 80), (25, 200, 2000)] →
    ∃ y, x.store p id (.number n) = some y ∧ y.fetch p id = some (.number (max lo (min hi n)))) ∧
  (∀ (x y : Settings) (p : Port) (id : Nat) (v : SettingValue), x.store p id v = some y →
    (∀ n, v ≠ .number n) → y.fetch p id = some v) ∧
  (∀ (s : State) (a : Asker) (sel id : Nat) (v : SettingValue) (p : Port) (y : Settings), s.takesTraffic →
    s.bridge.mayManage a = true → settingPort sel id = some p → s.bridge.settings.store p id v = some y →
    ∃ w, y.fetch p id = some w ∧ exec (.setSetting a sel id v) s = .next (s.answered a 2 sel .ok (.setting w)
      ((s.bridge.setSettings y).settingChanged p (s.bridge.portSettings p) y.port[p]))) ∧
  (∀ (s : State) (a : Asker) (sel id : Nat) (v : SettingValue), s.takesTraffic → s.bridge.mayManage a = true →
    (settingPort sel id = none ∨ ∃ p, settingPort sel id = some p ∧ s.bridge.settings.store p id v = none) →
    exec (.setSetting a sel id v) s = .next (s.answered a 2 sel .malformed .none s.bridge)) ∧
  (∀ (s : State) (a : Asker) (id : Nat) (p : Port) (w : SettingValue), s.takesTraffic → s.bridge.mayManage a = true →
    s.bridge.settings.fetch p id = some w →
    exec (.readSetting a p.val id) s = .next (s.answered a 3 p.val .ok (.setting w) s.bridge)) ∧
  (∀ (s : State) (a : Asker) (sel id : Nat), s.takesTraffic → s.bridge.mayManage a = true →
    3 < sel ∨ id < 1 ∨ 29 < id →
    exec (.readSetting a sel id) s = .next (s.answered a 3 sel .malformed .none s.bridge)) ∧
  (∀ sel id : Nat,
    (id ∈ [5, 6, 10, 12, 13, 17, 18, 19, 20, 21, 22, 23, 24, 25, 26, 27] →
      (∀ p : Port, sel = p.val → settingPort sel id = some p) ∧ (3 < sel → settingPort sel id = none)) ∧
    (id ∉ [5, 6, 10, 12, 13, 17, 18, 19, 20, 21, 22, 23, 24, 25, 26, 27] → settingPort sel id = some 0)) ∧
  (∀ (x : Settings) (p : Port) (id : Nat) (v : SettingValue), (x.store p id v).isSome = true ↔
    match v with
    | .number _ => id ∈ [1, 8, 9, 12, 13, 14, 15, 16, 24, 25]
    | .mac m => id = 2 ∧ m.getLsbD 40 = false
    | .onOff _ => id ∈ [3, 5, 6, 17]
    | .order _ => id = 4
    | .ports _ => id ∈ [7, 11]
    | .broadcast _ => id = 10
    | .response _ => id ∈ [18, 19]
    | .report _ => id ∈ [20, 21, 22, 23]
    | .sampling _ => id = 26
    | .pairing _ => id = 27
    | .destination n => id ∈ [28, 29] ∧ ∀ k, n = some k → 10 ≤ k ∧ k ≤ 384) ∧
  (∀ (x y : Settings) (p q : Port) (id j : Nat) (v : SettingValue), x.store p id v = some y →
    j ≠ id ∨ (pairOf q ≠ pairOf p ∧ j = 27) ∨
      (q ≠ p ∧ j ∈ [5, 6, 10, 12, 13, 17, 18, 19, 20, 21, 22, 23, 24, 25, 26]) →
    y.fetch q j = x.fetch q j) ∧
  (∀ (x : Settings) (p : Port) (id : Nat), 1 ≤ id → id ≤ 29 → x.fetch p id ≠ none) ∧
  (∀ (b : Bridge) (p : Port) (old new : PortSettings), old.enable = new.enable →
    b.settingChanged p old new = b.modPort p fun x =>
      { x with allowance := min x.allowance new.cap,
               mon := { x.mon with mode := if x.mon.hold.lowSignal then .watch else new.sampling } }) ∧
  (∀ (b : Bridge) (p : Port) (old new : PortSettings),
    let c := b.modPort p fun x =>
      { x with allowance := min x.allowance new.cap,
               mon := { x.mon with mode := if x.mon.hold.lowSignal then .watch else new.sampling } }
    (old.enable = true → new.enable = false → b.settingChanged p old new = (c.modMon p fun m =>
      { m with hold := {}, testOwed := false, restarts := 0, echo := 0, jabberFrom := none, lowRun := 0,
               mode := (b.portSettings p).sampling }).changeState p .off) ∧
    (old.enable = false → new.enable = true → b.settingChanged p old new = (c.modMon p fun m =>
      { m with testOwed := true, mode := if m.hold.lowSignal then .watch else (b.portSettings p).sampling,
               lastSample := b.ctl.now, lastAmp := none }).changeState p .testing)) ∧
  (∀ (x : Settings) (p : Port) (v : SettingValue) (id : Nat), id = 0 ∨ 29 < id → x.store p id v = none ∧ x.fetch p id = none) ∧
  (∀ (x : Settings) (p : Port) (m : Mac), m.getLsbD 40 = true → x.store p 2 (.mac m) = none) ∧
  (∀ (x : Settings) (p : Port) (n : DirNo), n < 10 ∨ 384 < n →
    x.store p 28 (.destination (some n)) = none ∧ x.store p 29 (.destination (some n)) = none) ∧
  (∀ (s : State) (a : Asker) (p : Port), s.takesTraffic → s.bridge.mayManage a = true →
    ((s.bridge.portSettings p).enable = true → (s.bridge.mon p).state ≠ .off →
      ∃ t, exec (.setSetting a p.val 17 (.onOff false)) s = .next t ∧ (t.bridge.portSettings p).enable = false ∧
        let m := t.bridge.mon p
        m.state = .off ∧ m.hold = {} ∧ m.testOwed = false ∧ m.restarts = 0 ∧ m.echo = 0 ∧ m.lowRun = 0 ∧ m.runFrom = none ∧
        m.latched = (s.bridge.mon p).latched ∧ m.history = (s.bridge.mon p).history ∧ m.degraded = (s.bridge.mon p).degraded) ∧
    ((s.bridge.portSettings p).enable = false → (s.bridge.mon p).state = .off →
      ∃ t, exec (.setSetting a p.val 17 (.onOff true)) s = .next t ∧ (t.bridge.portSettings p).enable = true ∧
        (t.bridge.mon p).state = .testing ∧ (t.bridge.mon p).testOwed = true ∧ (t.bridge.mon p).runFrom = some s.bridge.ctl.now ∧
        (t.bridge.mon p).latched = (s.bridge.mon p).latched))

/-- EDIT-ENTRY and EDIT-PRINTER stage their edit in the place of the pending edit of the same item or at the end, and the answer says
whether it replaced one; a 33rd item is refused FULL, a wrong form MALFORMED, an edit of an entry that cannot take it NOT_FOUND; a pace
above 16 is clamped (R66, R67, R68). DISCARD-EDITS empties the staging area and is answered OK with the number of edits discarded, whether
or not a SAVE is running and whether or not any edit is pending (R69). -/
def Obligations.EditsAreStaged : Prop :=
  (∀ (s : State) (a : Asker) (sel : Nat) (f : PlanFields), s.takesTraffic → s.bridge.mayManage a = true →
    1 ≤ sel → sel ≤ 384 → f.ok = true → (s.bridge.entry sel).any (·.state = .retiring) = false →
    f.state = .fixed ∨ learnedAsEdited (s.bridge.entry sel) f = true →
    let x := Edit.entry sel (.fields f)
    let old := s.bridge.dir.staging
    (old.any x.sameItem = true ∨ old.length < 32 →
      exec (.editEntry a sel (.fields f)) s = .next (s.answered a 5 sel .ok
        (.staged (stageEdit x old).length (old.any x.sameItem)) (s.bridge.modDir fun d => { d with staging := stageEdit x old }))) ∧
    (old.any x.sameItem = false → 32 ≤ old.length →
      exec (.editEntry a sel (.fields f)) s = .next (s.answered a 5 sel .full .none s.bridge))) ∧
  (∀ (s : State) (a : Asker) (sel : Nat) (e : Entry), s.takesTraffic → s.bridge.mayManage a = true →
    1 ≤ sel → sel ≤ 384 → s.bridge.entry sel = some e → e.state ≠ .retiring →
    let x := Edit.entry sel .delete
    let old := s.bridge.dir.staging
    (old.any x.sameItem = true ∨ old.length < 32 →
      exec (.editEntry a sel .delete) s = .next (s.answered a 5 sel .ok
        (.staged (stageEdit x old).length (old.any x.sameItem)) (s.bridge.modDir fun d => { d with staging := stageEdit x old }))) ∧
    (old.any x.sameItem = false → 32 ≤ old.length →
      exec (.editEntry a sel .delete) s = .next (s.answered a 5 sel .full .none s.bridge))) ∧
  (∀ (s : State) (a : Asker) (sel : Nat) (y : Binding), s.takesTraffic → s.bridge.mayManage a = true →
    2 ≤ sel → sel ≤ 9 → (∀ n, y.primary = some n ∨ y.alternate = some n → 1 ≤ n ∧ n ≤ 384) →
    let x := Edit.printer sel { y with pace := min 16 y.pace }
    let old := s.bridge.dir.staging
    (old.any x.sameItem = true ∨ old.length < 32 →
      exec (.editPrinter a sel y) s = .next (s.answered a 6 sel .ok
        (.staged (stageEdit x old).length (old.any x.sameItem)) (s.bridge.modDir fun d => { d with staging := stageEdit x old }))) ∧
    (old.any x.sameItem = false → 32 ≤ old.length →
      exec (.editPrinter a sel y) s = .next (s.answered a 6 sel .full .none s.bridge))) ∧
  (∀ (s : State) (a : Asker) (sel : Nat), s.takesTraffic → s.bridge.mayManage a = true →
    (∀ f : PlanFields, sel < 1 ∨ 384 < sel ∨ f.ok = false →
      exec (.editEntry a sel (.fields f)) s = .next (s.answered a 5 sel .malformed .none s.bridge)) ∧
    (sel < 1 ∨ 384 < sel → exec (.editEntry a sel .delete) s = .next (s.answered a 5 sel .malformed .none s.bridge)) ∧
    (∀ f : PlanFields, 1 ≤ sel → sel ≤ 384 → f.ok = true →
      (s.bridge.entry sel).any (·.state = .retiring) = true ∨
        (f.state = .learned ∧ learnedAsEdited (s.bridge.entry sel) f = false) →
      exec (.editEntry a sel (.fields f)) s = .next (s.answered a 5 sel .notFound .none s.bridge)) ∧
    (1 ≤ sel → sel ≤ 384 → s.bridge.entry sel = none ∨ (s.bridge.entry sel).any (·.state = .retiring) = true →
      exec (.editEntry a sel .delete) s = .next (s.answered a 5 sel .notFound .none s.bridge)) ∧
    (∀ x : Binding, sel < 2 ∨ 9 < sel ∨ (∃ n, (x.primary = some n ∨ x.alternate = some n) ∧ (n < 1 ∨ 384 < n)) →
      exec (.editPrinter a sel x) s = .next (s.answered a 6 sel .malformed .none s.bridge))) ∧
  (∀ f : PlanFields, f.ok = true ↔ (∀ n, f.visible = some n → 1 ≤ n ∧ n ≤ 254) ∧
    match f.home with
    | .port _ => (∃ n, f.number = some n ∧ 1 ≤ n ∧ n ≤ 254) ∧ f.mac = none ∧ f.order = none
    | .pair => f.number = none ∧ (∃ m, f.mac = some m ∧ m.getLsbD 40 = false) ∧ f.order ≠ none
    | .internal => f.number = none ∧ f.mac = none ∧ f.order = none) ∧
  (∀ (f : PlanFields) (e : Entry), learnedAsEdited none f = false ∧
    (learnedAsEdited (some e) f = true ↔ e.state = .learned ∧ e.kind = f.kind ∧
      match f.home with
      | .port p => e.home = .seg p (f.number.getD 0)
      | .pair => ∃ o, e.home = .pair (f.mac.getD 0) o
      | .internal => e.home = .internal)) ∧
  (∀ (n m : DirNo) (x y : EntryEdit) (v w : Binding), ((Edit.entry n x).sameItem (.entry m y) = true ↔ n = m) ∧
    ((Edit.printer n v).sameItem (.printer m w) = true ↔ n = m) ∧ (Edit.entry n x).sameItem (.printer m w) = false ∧
    (Edit.printer n v).sameItem (.entry m y) = false) ∧
  (∀ (x : Edit) (l : List Edit), (∀ y ∈ l, x.sameItem y = false) → stageEdit x l = l ++ [x]) ∧
  (∀ (x y : Edit) (front back : List Edit), (∀ z ∈ front, x.sameItem z = false) → x.sameItem y = true →
    stageEdit x (front ++ y :: back) = front ++ x :: back) ∧
  (∀ (s : State) (a : Asker), s.takesTraffic → s.bridge.mayManage a = true →
    exec (.discardEdits a) s = .next (s.answered a 7 0 .ok (.discarded s.bridge.dir.staging.length)
      (s.bridge.modDir fun d => { d with staging := [] })))

/-- A COMMIT is decided in order: BUSY while a SAVE runs, OK with counts of 0 when nothing is pending, NOT_FOUND with the lowest stale
entry, CHECK_FAILED with the first failure, and each of these changes nothing; otherwise the edits are applied as one change and the
staging area is empty (R70, R72). An edit is stale when its entry is RETIRING, or when it writes LEARNED and the entry is no longer LEARNED
with its kind and home. The trial copy is the plan as it stands with the edits written into it: a field edit its values, no withdrawal and
the pins that stood, a DELETE nothing or, of a pinned entry, the entry as RETIRING without rights (R70). That the effect comes before the
answer is offered (log 23), that every staged edit counts as applied (log 46), and that only what this commit's own DELETEs
free counts as freed (log 55), are the model's choices. What applying does is in AppliedCommitWritesThePlan. -/
def Obligations.CommitIsDecidedInOrder : Prop :=
  (∀ (s : State) (a : Asker), s.takesTraffic → s.bridge.mayManage a = true →
    let stale := fun n : DirNo => ∃ x, Edit.entry n x ∈ s.bridge.dir.staging ∧
      ((∃ e, s.bridge.entry n = some e ∧ e.state = .retiring) ∨
        ∃ f, x = .fields f ∧ f.state = .learned ∧ ∀ e, s.bridge.entry n = some e → ¬ (e.state = .learned ∧ e.kind = f.kind ∧
          match f.home with
          | .port p => e.home = .seg p (f.number.getD 0)
          | .pair => ∃ o, e.home = .pair (f.mac.getD 0) o
          | .internal => e.home = .internal))
    (s.bridge.agent.saveState = .running → exec (.commit a) s = .next (s.answered a 8 0 .busy .none s.bridge)) ∧
    (s.bridge.agent.saveState = .idle → s.bridge.dir.staging = [] →
      exec (.commit a) s = .next (s.answered a 8 0 .ok (.committed 0 0 0) s.bridge)) ∧
    (∀ n, s.bridge.agent.saveState = .idle → stale n → (∀ m, stale m → n ≤ m) →
      exec (.commit a) s = .next (s.answered a 8 0 .notFound (.stale n) s.bridge)) ∧
    (∀ f, s.bridge.agent.saveState = .idle → s.bridge.dir.staging ≠ [] → (∀ n, ¬ stale n) →
      s.bridge.trial.check s.bridge.segments = some f →
      exec (.commit a) s = .next (s.answered a 8 0 .checkFailed (.checkFailed f) s.bridge)) ∧
    (s.bridge.agent.saveState = .idle → s.bridge.dir.staging ≠ [] → (∀ n, ¬ stale n) →
      s.bridge.trial.check s.bridge.segments = none →
      exec (.commit a) s = .next (s.answered a 8 0 .ok
        (.committed s.bridge.dir.staging.length s.bridge.applyCommit.1.freed s.bridge.applyCommit.1.retiring)
        s.bridge.applyCommit.2) ∧
      s.bridge.applyCommit.2.dir.staging = [])) ∧
  (∀ b : Bridge, b.dir.staging.Pairwise (fun x y => x.sameItem y = false) →
    let t := b.trial
    (∀ n f, Edit.entry n (.fields f) ∈ b.dir.staging → ∃ e, look n t.entries = some e ∧
      e.state = (match f.state with | .fixed => .fixed | .learned => .learned) ∧ e.kind = f.kind ∧ e.home = f.toHome ∧
      e.visible = f.visible ∧ e.shown = f.shown ∧ e.withdrawn = PortSet.none ∧ e.rights = f.rights ∧
      e.pins = ((b.entry n).map (·.pins)).getD 0) ∧
    (∀ n, Edit.entry n .delete ∈ b.dir.staging →
      (∀ e, b.entry n = some e → e.pins ≠ 0 → look n t.entries = some { e with state := .retiring, rights := {} }) ∧
      ((∀ e, b.entry n = some e → e.pins = 0) → look n t.entries = none)) ∧
    (∀ n, (∀ x, Edit.entry n x ∉ b.dir.staging) → look n t.entries = b.entry n) ∧
    (∀ (l : Lp) (x : Binding), Edit.printer (l.val + 2) x ∈ b.dir.staging → t.bindings[l] = x) ∧
    (∀ l : Lp, (∀ x, Edit.printer (l.val + 2) x ∉ b.dir.staging) → t.bindings[l] = (b.lp l).binding))

/-- An applied commit writes the plan: every staged field edit stands in its entry with the end, age, pins and bridge sequence bit that
R73 gives it and no withdrawal; a DELETE frees an entry without pins, with its pair repeats and its printer record, and makes a pinned one
RETIRING without rights; an entry no edit names keeps everything but withdrawals that are lifted and its reach, which is recomputed for
all (R73, R74, R76); the bindings are written, and a changed one takes its active target back to PRIMARY; the counts are those of the
entries freed and made RETIRING (R70); and the setup state ends where a FIXED entry holds MANAGE (R77). The withdrawals that
the gone entries stood in the way of are lifted after all edits, by rising number of the gone entry, an entry having gone when it is
deleted or given another home (R53, R74). The deliveries to printers whose kind or home an edit changes are stopped before any edit (R75):
that order (log 47), their order among themselves (log 54), that only this commit's own DELETEs count as freeing (log 55), that an entry
which was only shown lets a withdrawal be lifted too (log 30), and that a RETIRING entry is passed over (log 45), are the model's
choices. -/
def Obligations.AppliedCommitWritesThePlan : Prop :=
  (∀ b : Bridge, b.dir.staging.Pairwise (fun x y => x.sameItem y = false) →
    let edits := b.dir.staging
    let b0 := b.stopMoved edits
    let c := b.applyCommit.2
    ((∀ n f e, Edit.entry n (.fields f) ∈ edits → b.entry n = some e →
        (e.kind = f.kind ∧ e.home.same f.toHome = true) ∨ b.lpDelivering n = none) → b0 = b) ∧
    (∀ n f, Edit.entry n (.fields f) ∈ edits →
      ∃ e, c.entry n = some e ∧ e.state = (match f.state with | .fixed => .fixed | .learned => .learned) ∧ e.kind = f.kind ∧
        e.home = f.toHome ∧ e.visible = f.visible ∧ e.shown = f.shown ∧ e.withdrawn = PortSet.none ∧ e.rights = f.rights ∧
        e.pins = ((b0.entry n).map (·.pins)).getD 0 ∧
        e.age = (match f.state with | .fixed => 0 | .learned => ((b0.entry n).map (·.age)).getD 0) ∧
        (∀ p k, f.toHome = .seg p k →
          (b.paired p = true → p.val % 2 = 0 →
            (∀ o q, b0.entry n = some o → o.home = .seg p q → o.endField ≠ none → e.endField = o.endField) ∧
            ((∀ o q, b0.entry n = some o → o.home ≠ .seg p q) → e.endField = some .unknown)) ∧
          (b.paired p = false → e.endField = none) ∧
          (∀ o, b0.entry n = some o → o.home = .seg p k → e.bridgeBit = o.bridgeBit) ∧
          ((∀ o, b0.entry n = some o → o.home ≠ .seg p k) → e.bridgeBit = false)) ∧
        (f.kind = .printer → ∃ r, c.printer n = some r ∧ (b0.printer n = none → r = {})) ∧
        (f.kind ≠ .printer → c.printer n = none)) ∧
    (∀ n e, Edit.entry n .delete ∈ edits → b0.entry n = some e →
      (e.pins = 0 → c.entry n = none ∧ c.printer n = none ∧ ∀ r ∈ c.pair.repeats, r.asker ≠ n) ∧
      (e.pins ≠ 0 → ∃ x, c.entry n = some x ∧ x.state = .retiring ∧ x.rights = {} ∧ x.kind = e.kind ∧ x.home = e.home ∧
        x.pins = e.pins)) ∧
    (∀ n, (∀ x, Edit.entry n x ∉ edits) →
      (b0.entry n = none → c.entry n = none) ∧
      (∀ e, b0.entry n = some e → ∃ x, c.entry n = some x ∧
        { x with reachable := e.reachable, withdrawn := e.withdrawn } = e ∧
        ∀ p : Port, x.withdrawn[p] = true → e.withdrawn[p] = true)) ∧
    (∀ n e, c.entry n = some e → e.reachable = c.reachOf e) ∧
    (∀ (l : Lp) (x : Binding), Edit.printer (l.val + 2) x ∈ edits →
      (c.lp l).binding = x ∧ (c.lp l).active =
        if x.primary = (b0.lp l).binding.primary ∧ x.alternate = (b0.lp l).binding.alternate then (b0.lp l).active
        else .primary) ∧
    (∀ l : Lp, (∀ x, Edit.printer (l.val + 2) x ∉ edits) → c.lp l = b0.lp l) ∧
    (b.applyCommit.1.freed = (edits.filter fun x => match x with
      | .entry n .delete => (b0.entry n).any fun e => e.pins = 0
      | _ => false).length) ∧
    (b.applyCommit.1.retiring = (edits.filter fun x => match x with
      | .entry n .delete => (b0.entry n).any fun e => e.pins ≠ 0
      | _ => false).length) ∧
    ((∃ x ∈ c.dir.entries, x.2.state = .fixed ∧ x.2.rights.manage = true) → c.agent.setup = false) ∧
    ((∀ x ∈ c.dir.entries, x.2.state = .fixed → x.2.rights.manage = false) → c.agent.setup = b.agent.setup) ∧
    c.settings = b.settings ∧ c.ctl = b.ctl ∧
    (rising b.dir.entries = true → ∃ (written : Entries) (gone : List (Nat × List (Port × Nat))),
      rising written = true ∧ rising gone = true ∧
      (∀ n, (∀ x, Edit.entry n x ∉ edits) → look n written = b0.entry n) ∧
      (∀ n x, Edit.entry n x ∈ edits → (look n written).map (fun e => { e with reachable := false }) =
        (c.entry n).map fun e => { e with reachable := false }) ∧
      (∀ n places, (n, places) ∈ gone ↔ ∃ e, b0.entry n = some e ∧
        (Edit.entry n .delete ∈ edits ∨ ∃ f, Edit.entry n (.fields f) ∈ edits ∧ e.home.same f.toHome = false) ∧
        places = ((List.finRange 4).filter fun t => b.segmentOf t = t).filterMap fun t => (numberOn e t).map fun k => (t, k)) ∧
      c.dir.entries = ((gone.foldl (fun d x => x.2.foldl (fun d y => d.lift y.1 y.2) d)
        (b0.modEntries fun _ => written)).dir.entries.map fun x => (x.1, { x.2 with reachable := c.reachOf x.2 })))) ∧
  (∀ (b : Bridge) (edits : List Edit), b.stopMoved edits = edits.foldl (fun c x =>
    match x with
    | .entry n (.fields f) =>
      if (b.entry n).any (fun e => e.kind ≠ f.kind || !e.home.same f.toHome) then
        match c.lpDelivering n with
        | some l => c.stopQuiet l
        | none => c
      else c
    | _ => c) b) ∧
  (∀ (b : Bridge) (l : Lp), b.stop l = (b.stopQuiet l).dispatch) ∧
  (∀ x y : Home, x.same y = true ↔ (∃ p n, x = .seg p n ∧ y = .seg p n) ∨ (∃ mac o r, x = .pair mac o ∧ y = .pair mac r) ∨
    (x = .internal ∧ y = .internal))

/-- A trial is refused exactly when it fails one of the checks C1 to C7, and the refusal names the first failure of the first check that
it fails (R71). That a binding of which both numbers fail is named by its primary is the model's choice (log 63), and the order of entries
and logical printers is log 39. What a trial that passes obeys: on no segment two entries under one number; a visible number exactly with
a shown set, never on the entry's own port; no home number and no MAC shared; printers FIXED and without visible number, and bindings that
name them; the reserved entries as they must be; rights on FIXED entries only. -/
def Obligations.CheckedPlansObeyTheLaws : Prop :=
  (∀ (segments : List Port) (t : Plan), t.check segments = none ↔ ∀ k, PassesCheck segments t k) ∧
  (∀ (segments : List Port) (t : Plan) (f : CheckFailure),
    t.check segments = some f ↔ (∀ k < f.check, PassesCheck segments t k) ∧ FailsFirst segments t f f.check) ∧
  ∀ (segments : List Port) (t : Plan), t.check segments = none →
    (∀ g ∈ segments, ∀ n, 1 ≤ n → n ≤ 254 → ∀ x ∈ t.entries, ∀ y ∈ t.entries,
      presentUnder x.2 g n = true → presentUnder y.2 g n = true → x = y) ∧
    (∀ x ∈ t.entries, x.2.state ≠ .retiring →
      (x.2.visible.isSome = true ↔ x.2.shown ≠ PortSet.none) ∧
      (∀ p n, x.2.home = .seg p n → x.2.shown[p] = false) ∧
      (x.2.state ≠ .fixed → x.2.rights = {})) ∧
    (∀ n e, 1 ≤ n → n ≤ 384 → look n t.entries = some e → e.state ≠ .retiring → e.kind = .printer →
      e.state = .fixed ∧ e.visible = none) ∧
    (∀ l : Lp, (∀ n, t.bindings[l].primary = some n ∨ t.bindings[l].alternate = some n →
        ∃ e, look n t.entries = some e ∧ e.state = .fixed ∧ e.kind = .printer) ∧
      (t.bindings[l].alternate ≠ none → t.bindings[l].primary ≠ none ∧ t.bindings[l].primary ≠ t.bindings[l].alternate)) ∧
    (∃ e, look 1 t.entries = some e ∧ e.state = .fixed ∧ e.kind = .bridge ∧ e.home = .internal ∧ e.visible ≠ none
      ∧ e.shown = PortSet.all ∧ e.rights = {}) ∧
    (∀ n, 2 ≤ n → n ≤ 9 → ∃ e, look n t.entries = some e ∧ e.state = .fixed ∧ e.kind = .spool ∧ e.home = .internal ∧ e.rights = {}) ∧
    (∀ n e, 10 ≤ n → n ≤ 384 → look n t.entries = some e → e.state ≠ .retiring →
      e.kind ≠ .bridge ∧ e.kind ≠ .spool ∧ e.home ≠ .internal) ∧
    t.entries.Pairwise (fun x y =>
      (∀ p m, x.2.home = .seg p m → y.2.home = .seg p m → x.2.state = .retiring ∨ y.2.state = .retiring) ∧
      (∀ m o o', ¬ (x.2.home = .pair m o ∧ y.2.home = .pair m o')))

/-- CLEAR-FAULTS takes the named kinds out of the latched set; a named SHORT or OPEN leaves the hold set and the test is owed, and a hold
set that becomes empty lets an ISOLATED port enter TESTING; a wrong form is MALFORMED. CANCEL-JOB ends a waiting job CANCELLED, leaves a
CANCELLING one, marks a delivering one whose frame awaits an answer, and finishes any other; a job not in use is NOT_FOUND (R131, R151,
R156, R166). That a request takes its effect before its answer is offered (log 23), and that SHORT is noticed before OPEN (log 61), are
the model's choices. -/
def Obligations.FaultsAreClearedAndJobsCancelled : Prop :=
  ∀ (s : State) (a : Asker) (sel : Nat), s.takesTraffic → s.bridge.mayManage a = true →
    (∀ (p : Port) (k : FaultSet), sel = p.val → k.isEmpty = false →
      ∃ t, exec (.clearFaults a sel k false) s = .next t ∧
        let m := s.bridge.mon p
        let n := t.bridge.mon p
        let moved := (k.short && m.hold.short) || (k.openLine && m.hold.openLine)
        n.latched = ⟨m.latched.short && !k.short, m.latched.openLine && !k.openLine, m.latched.jabber && !k.jabber,
          m.latched.lowSignal && !k.lowSignal⟩ ∧
        n.hold = ⟨m.hold.short && !k.short, m.hold.openLine && !k.openLine, m.hold.jabber, m.hold.lowSignal⟩ ∧
        n.testOwed = (m.testOwed || moved) ∧
        n.state = (if moved = true ∧ m.state = .isolated ∧ n.hold.isEmpty = true then .testing else m.state)) ∧
    (∀ (k : FaultSet) (foreign : Bool), 3 < sel ∨ k.isEmpty = true ∨ foreign = true →
      exec (.clearFaults a sel k foreign) s = .next (s.answered a 10 sel .malformed .none s.bridge)) ∧
    (∀ j, 1 ≤ sel → sel ≤ 65535 → s.bridge.job sel = some j →
      (j.state = .filling ∨ j.state = .queued →
        exec (.cancelJob a sel) s = .next (s.answered a 13 sel .ok .none (s.bridge.endJob sel .cancelled .manager))) ∧
      (j.state = .cancelling → exec (.cancelJob a sel) s = .next (s.answered a 13 sel .ok .none s.bridge)) ∧
      (∀ d, j.state = .delivering → s.bridge.record j.lp = some d → d.job = sel →
        ((d.phase = .queued ∨ ∃ w, d.phase = .window w) →
          exec (.cancelJob a sel) s = .next (s.answered a 13 sel .ok .none
            ((s.bridge.modJob sel fun x => { x with cancelReason := some .manager, state := .cancelling }).modLp j.lp fun x =>
              { x with state := .cancelling }))) ∧
        (d.phase ≠ .queued → (∀ w, d.phase ≠ .window w) →
          exec (.cancelJob a sel) s = .next (s.answered a 13 sel .ok .none
            ((s.bridge.modJob sel fun x => { x with cancelReason := some .manager }).finish j.lp .cancelled .manager))))) ∧
    (1 ≤ sel → sel ≤ 65535 → s.bridge.job sel = none →
      exec (.cancelJob a sel) s = .next (s.answered a 13 sel .notFound .none s.bridge))

/-- A SAVE begins with the valid marker erased and the contents as they stand, is BUSY while one runs or a reset waits, and ends DONE with
marker, contents and check written, or FAILED with the marker erased (R189). -/
def Obligations.SaveRunsToItsResult : Prop :=
  (∀ (s : State) (a : Asker), s.takesTraffic → s.bridge.mayManage a = true →
    (s.bridge.agent.saveState = .idle → s.bridge.ctl.waiting = none →
      exec (.save a) s = .next (s.answered a 18 0 .ok .none (s.bridge.modAgent fun x =>
        { x with saveState := .running, configMem := { x.configMem with marker := false },
                 saving :=
                   { settings := s.bridge.settings,
                     entries := (s.bridge.dir.entries.filter fun y => y.2.state = .fixed).map fun y =>
                       (y.1, { kind := y.2.kind, home := y.2.home, visible := y.2.visible, shown := y.2.shown,
                               rights := y.2.rights }),
                     bindings := s.bridge.spool.lps.map (·.binding) } }))) ∧
    (s.bridge.agent.saveState = .running ∨ s.bridge.ctl.waiting ≠ none →
      exec (.save a) s = .next (s.answered a 18 0 .busy .none s.bridge))) ∧
  (∀ s : State, s.takesTraffic → s.bridge.agent.saveState = .running →
    exec (.saveComplete true) s = .next (s.after [] (s.bridge.modAgent fun x =>
      { x with saveState := .idle, lastSave := .done,
               configMem := { marker := true, image := x.saving, check := checkOf (Config.imageBytes x.saving) } })) ∧
    exec (.saveComplete false) s = .next (s.after [] (s.bridge.modAgent fun x =>
      { x with saveState := .idle, lastSave := .failed }))) ∧
  (∀ (s : State) (ack : Bool), s.takesTraffic → s.bridge.agent.saveState = .idle →
    exec (.saveComplete ack) s = .next (s.after [] s.bridge))

/-! ## Resets and start-up (chapter 11) -/

/-- RESET-BRIDGE and RESET-PORT are answered OK and wait, for 100 ms or the report of that answer, or are BUSY while a reset waits or, for
RESET-BRIDGE, while a SAVE runs; a reset that is not due is not taken (R190). The power-on input in any phase, and the RESET pin unless a
power-on reset holds the part, bring every block to its power-on values with their cause, the configuration memory and the store kept; a
pin reset during a power-on reset is absorbed; the end of the reset starts the load and the seconds counter (R190, R192). That the store's
bytes are kept is the model's choice (log 5). -/
def Obligations.ResetsWaitOrAreHeld : Prop :=
  ((∀ (s : State) (a : Asker) (sel : Nat), s.takesTraffic → s.bridge.mayManage a = true →
     let y := s.bridge.manageAnswer a (answerRecord 19 0 .ok .none)
     let z := s.bridge.manageAnswer a (answerRecord 20 sel .ok .none)
     (s.bridge.ctl.waiting = none → s.bridge.agent.saveState = .idle →
       exec (.resetBridge a) s = .next (s.after [] (y.2.setCtl { s.bridge.ctl with
         waiting := some { kind := .soft, answer := s.bridge.serial, reported := y.1, deadline := s.bridge.ctl.now + 12500 } }))) ∧
     (s.bridge.ctl.waiting ≠ none ∨ s.bridge.agent.saveState = .running →
       exec (.resetBridge a) s = .next (s.answered a 19 0 .busy .none s.bridge)) ∧
     (∀ p : Port, sel = p.val → s.bridge.ctl.waiting = none →
       exec (.resetPort a sel) s = .next (s.after [] (z.2.setCtl { s.bridge.ctl with
         waiting := some { kind := .port p, answer := s.bridge.serial, reported := z.1, deadline := s.bridge.ctl.now + 12500 } }))) ∧
     (sel ≤ 3 → s.bridge.ctl.waiting ≠ none →
       exec (.resetPort a sel) s = .next (s.answered a 20 sel .busy .none s.bridge)) ∧
     (3 < sel → exec (.resetPort a sel) s = .next (s.answered a 20 sel .malformed .none s.bridge))) ∧
   (∀ s : State, s.takesTraffic →
     (s.bridge.ctl.waiting = none ∨ (∃ w, s.bridge.ctl.waiting = some w ∧ w.reported = false ∧ s.bridge.ctl.now < w.deadline) →
       exec .softReset s = .next (s.after [] s.bridge) ∧ exec .portReset s = .next (s.after [] s.bridge)))) ∧
  ((∀ s : State, ∃ t, exec .powerOn s = .next t ∧ PowerOnValues t.bridge ∧ t.bridge.ctl.phase = .heldPower
     ∧ t.bridge.ctl.cause = .power ∧ t.bridge.agent.configMem = s.bridge.agent.configMem ∧ t.bridge.settings = {}
     ∧ t.pending = s.pending ∧ t.store = s.store) ∧
   (∀ s : State, s.bridge.ctl.phase ≠ .heldPower → ∃ t, exec .pinReset s = .next t ∧ PowerOnValues t.bridge
     ∧ t.bridge.ctl.phase = .heldPin ∧ t.bridge.ctl.cause = .pin ∧ t.bridge.agent.configMem = s.bridge.agent.configMem
     ∧ t.bridge.settings = {} ∧ t.pending = s.pending ∧ t.store = s.store) ∧
   (∀ s : State, s.bridge.ctl.phase = .heldPower → exec .pinReset s = .next (s.after [] s.bridge)) ∧
   (∀ s : State, s.bridge.ctl.phase = .heldPower ∨ s.bridge.ctl.phase = .heldPin →
     exec .resetEnd s = .next (s.after []
       (s.bridge.setCtl { s.bridge.ctl with phase := .loading, secondsFrom := s.bridge.ctl.now }))) ∧
   (∀ s : State, s.bridge.ctl.phase = .running ∨ s.bridge.ctl.phase = .loading →
     exec .resetEnd s = .next (s.after [] s.bridge)))

/-- At the end of the load the part takes traffic: the load result stands and the setup flag is set exactly when it is not GOOD, the
settings are the image's or the defaults, every enabled port is TESTING with its test owed and every other one OFF, and every allowance is
at its cap; outside a load nothing happens (R172, R182, R188, R192). Together with that the pair link's 500 ms wait, the ageing period,
the refills and the sampling timers begin, and the pairing is the settings', each PAIRED pair in DOWN with its start-up wait, which has
ended where no end is enabled (R54, R167, R180, R192). That the wait of a link without indication begins with the indication is log 25,
the refills' phase is log 35, and what the sampler's first sample takes is logs 34 and 78. GOOD means marker, check and the checks C1 to
C7 of the image's plan. From the power-on values, the entries and bindings are the image's, FIXED, or those of the bad-image plan: entry 1
with number 254 shown on all four segments, entries 2 to 9, and no binding (R41, R63, R136). -/
def Obligations.LoadEndStartsThePart : Prop :=
  (∀ (s : State) (ack : Bool), s.bridge.ctl.phase = .loading →
    let m := s.bridge.agent.configMem
    let loaded := s.bridge.loadImage m.image
    let good := ack = true ∧ m.marker = true ∧ m.check = checkOf (Config.imageBytes m.image) ∧
      loaded.plan.check loaded.segments = none
    ∃ t, exec (.configLoadEnd ack) s = .next t ∧ t.bridge.ctl.phase = .running ∧
      (good → t.bridge.agent.loadResult = .good ∧ t.bridge.agent.setup = false ∧ t.bridge.settings = m.image.settings) ∧
      (¬ good → t.bridge.agent.loadResult = (if ack then .bad else .absent) ∧ t.bridge.agent.setup = true ∧
        t.bridge.settings = {}) ∧
      (∀ p, (t.bridge.mon p).state = (if (t.bridge.portSettings p).enable then .testing else .off) ∧
        (t.bridge.mon p).testOwed = (t.bridge.portSettings p).enable ∧ (t.bridge.mon p).hold = {} ∧
        (t.bridge.mon p).latched = {} ∧ (t.bridge.port p).allowance = (t.bridge.portSettings p).cap ∧
        (t.bridge.port p).remainder = 0) ∧
      t.bridge.pair.link = s.bridge.pair.link ∧
      t.bridge.pair.waitFrom = (if s.bridge.pair.indication then some s.bridge.ctl.now else none) ∧
      t.bridge.dir.ageingDue = s.bridge.ctl.now + 125000 * t.bridge.settings.ageingPeriod ∧
      t.bridge.refillDue = s.bridge.ctl.now + 125 ∧
      (∀ p, (t.bridge.mon p).mode = (t.bridge.portSettings p).sampling ∧ (t.bridge.mon p).lastSample = s.bridge.ctl.now ∧
        (t.bridge.mon p).lastAmp = none ∧
        (t.bridge.mon p).runFrom = (if (t.bridge.portSettings p).enable then some s.bridge.ctl.now else none)) ∧
      (∀ i : PairNo, t.bridge.feed i =
        { paired := t.bridge.settings.pairing[i],
          startWait := t.bridge.settings.pairing[i] &&
            ((t.bridge.portSettings (lowerOf i)).enable || (t.bridge.portSettings (upperOf i)).enable) }) ∧
      (PowerOnValues s.bridge → good → m.image.entries.Pairwise (fun x y => x.1 ≠ y.1) →
        (∀ n e, (n, e) ∈ m.image.entries → ∃ x, t.bridge.entry n = some x ∧ x.state = .fixed ∧ x.kind = e.kind ∧ x.home = e.home ∧
          x.visible = e.visible ∧ x.shown = e.shown ∧ x.withdrawn = PortSet.none ∧ x.rights = e.rights ∧ x.pins = 0) ∧
        (∀ n, (∀ e, (n, e) ∉ m.image.entries) → t.bridge.entry n = none) ∧
        ∀ l : Lp, t.bridge.lp l = { binding := m.image.bindings[l] }) ∧
      (PowerOnValues s.bridge → ¬ good →
        t.bridge.entry 1 = some { state := .fixed, kind := .bridge, home := .internal, visible := some 254, shown := PortSet.all,
                                  reachable := true } ∧
        (∀ n, 2 ≤ n → n ≤ 9 →
          t.bridge.entry n = some { state := .fixed, kind := .spool, home := .internal, reachable := true }) ∧
        (∀ n, n = 0 ∨ 9 < n → t.bridge.entry n = none) ∧ ∀ l : Lp, t.bridge.lp l = {})) ∧
  (∀ (s : State) (ack : Bool), s.bridge.ctl.phase ≠ .loading → exec (.configLoadEnd ack) s = .next (s.after [] s.bridge))

/-- A soft reset that is due keeps the link, the settings, the setup flag, the counters and the latched sets, and clears the exchanges,
the repeat memories, the question counter, the queues and waiting lists, the delivery records and the staging area: when it has ended,
only the notices it sends itself wait in a queue. Each job is kept, requeued at the head of its queue, or ended by its state, its blocks
returned; the entries are kept with the pins of the jobs kept, and a RETIRING one without any is freed; every printer is UNKNOWN; the
notices of the ended jobs go out last. A port reset that is due clears its port's latches, repeats and LINE group and, on a paired
segment, the feed counters; printers homed there become UNKNOWN; the entries are kept, but for the LEARNED ones that a pairing change
takes. In both, a PAIRED pair is in DOWN with its start-up wait, which has ended where no end is enabled, and an enabled port is TESTING
with an empty hold set and history, its allowance is at its cap, and no reset waits (R16, R20, R37, R62, R64, R65, R96, R117, R136, R137,
R154, R172, R180, R190, R191). That jobs are acted on and their notices built in the order of opening (log 49), and the notices after
RETIRING owners are freed (log 32), are the model's choices. -/
def Obligations.SoftAndPortResets : Prop :=
  (∀ (s : State) (w : WaitingReset), s.takesTraffic → s.bridge.ctl.waiting = some w →
    w.reported = true ∨ w.deadline ≤ s.bridge.ctl.now → w.kind = .soft → (∀ x ∈ s.bridge.exchanges, x.1 ≤ 15) →
    let c := s.bridge.softReset
    exec .softReset s = .next (s.after [] c) ∧
    c.ctl.phase = .running ∧ c.ctl.cause = .soft ∧ c.ctl.waiting = none ∧ c.ctl.secondsFrom = s.bridge.ctl.now ∧
    c.pair.link = s.bridge.pair.link ∧ c.settings = s.bridge.settings ∧ c.agent.setup = s.bridge.agent.setup ∧
    c.exchanges = [] ∧ c.repeats = [] ∧ c.dir.staging = [] ∧
    c.pair.repeats = [] ∧ c.pair.question = 0 ∧ c.pair.handing = none ∧ c.pair.waiting = [] ∧
    (∀ f ∈ c.pair.queue, f.origin = .notice ∨ f.origin = .jobNotice) ∧
    (∀ i, (s.bridge.feed i).paired = true → c.feed i =
      { paired := true, counters := (s.bridge.feed i).counters,
        startWait := (s.bridge.portSettings (lowerOf i)).enable || (s.bridge.portSettings (upperOf i)).enable }) ∧
    c.delivery.waiting = [] ∧ (∀ l, c.record l = none ∧ (c.lp l).current = none ∧ (c.lp l).state = .idle) ∧
    ∀ p, (c.port p).class0 = [] ∧ (∀ f ∈ (c.port p).class1, f.origin = .notice ∨ f.origin = .jobNotice) ∧
      (c.port p).waiting = [] ∧ (c.port p).attempt = none ∧ (c.port p).backoff = none ∧
      (c.mon p).state = (if (s.bridge.portSettings p).enable then .testing else .off) ∧
      (c.mon p).hold = {} ∧ (c.mon p).latched = (s.bridge.mon p).latched ∧ (c.mon p).history = [] ∧
      (c.mon p).degraded = false ∧ (c.port p).allowance = (s.bridge.portSettings p).cap ∧ (c.port p).remainder = 0) ∧
  (∀ s : State, s.takesTraffic → s.recordsSound →
    let b := s.bridge
    let c := b.softReset
    let ends := fun j : Job => (j.state = .filling ∧ (j.mode = .spool ∨ j.input = .opened)) ∨
      (j.state = .delivering ∧ j.mode = .stream) ∨ j.state = .cancelling
    let kept := b.spool.jobs.filter fun j => ¬ ends j
    c.spool.jobs = (kept.map fun j =>
      if j.state = .delivering then { j with state := .queued, position := 0, latchedTarget := none, latchedPace := none } else j) ∧
    c.spool.freeList = (b.spool.jobs.filter fun j => ends j).foldl (fun l j => j.chain.reverse ++ l) b.spool.freeList ∧
    c.spool.jobCounter = b.spool.jobCounter ∧
    (∀ l : Lp, (c.lp l).binding = (b.lp l).binding ∧ (c.lp l).active = (b.lp l).active ∧
      (c.lp l).queue = ((kept.filter fun j => j.state = .delivering ∧ j.lp = l).map (·.number)).reverse ++
        (b.lp l).queue.filter fun n => ∀ j ∈ b.spool.jobs, j.number = n → j.lp = l → ¬ ends j) ∧
    (∀ n r, c.printer n = some r → r = {}) ∧
    (∀ n, b.entry n = none → c.entry n = none) ∧
    (∀ n e, b.entry n = some e →
      let pins := (kept.filter fun j => j.owner = n).length
      let fits := fun x : Entry =>
        x.state = e.state ∧ x.kind = e.kind ∧ x.home = e.home ∧ x.visible = e.visible ∧ x.shown = e.shown ∧ x.age = e.age ∧
        x.rights = e.rights ∧ x.bridgeBit = e.bridgeBit ∧ x.pins = pins ∧ x.reachable = c.reachOf x ∧
        (∀ q : Port, x.withdrawn[q] = true → e.withdrawn[q] = true) ∧
        ((∃ i k, (b.feed i).paired = true ∧ e.home = .seg (lowerOf i) k) → x.endField = some .unknown) ∧
        ((∀ i k, (b.feed i).paired = true → e.home ≠ .seg (lowerOf i) k) → x.endField = e.endField)
      (e.state ≠ .retiring → (∃ x, c.entry n = some x ∧ fits x) ∧ (b.printer n ≠ none → c.printer n = some {})) ∧
      (e.state = .retiring → pins = 0 → c.entry n = none ∧ c.printer n = none) ∧
      (e.state = .retiring → ∀ x, c.entry n = some x → fits x)) ∧
    ∃ d : Bridge, d.dir = c.dir ∧ d.spool = c.spool ∧ d.ctl = c.ctl ∧ (∀ g, d.group g = b.group g) ∧
      (∀ f ∈ d.pair.queue, f.origin = .notice) ∧ (∀ p, ∀ f ∈ (d.port p).class1, f.origin = .notice) ∧
      c = (b.spool.jobs.filter fun j => ends j).foldl
        (fun y j => y.jobNotice j (if j.state = .delivering then .failed else .cancelled) .reset) d) ∧
  (∀ (s : State) (w : WaitingReset) (p : Port), s.takesTraffic → s.bridge.ctl.waiting = some w →
    w.reported = true ∨ w.deadline ≤ s.bridge.ctl.now → w.kind = .port p →
    exec .portReset s = .next (s.after [] (s.bridge.portReset p))) ∧
  (∀ (s : State) (p : Port), s.takesTraffic → s.recordsSound →
    let b := s.bridge
    let c := b.portReset p
    let i := pairOf p
    let now := b.settings.pairing[i]
    let leaves := fun e : Entry => (b.feed i).paired ≠ now ∧ e.state = .learned ∧
      ∃ k, e.home = .seg (if now then upperOf i else lowerOf i) k
    (∀ q ∈ b.resetPorts p, allZero (c.group (lineGroup q)).counters ∧ (c.group (lineGroup q)).first = none ∧
      (c.group (lineGroup q)).multiple = false) ∧
    (∀ n r e q k, c.printer n = some r → c.entry n = some e → e.home = .seg q k → q ∈ b.resetPorts p →
      r.status = .unknown ∧ r.question = .none ∧ r.pollFrom = none) ∧
    (∀ n, b.entry n = none → c.entry n = none) ∧
    (∀ n e, b.entry n = some e →
      let fits := fun x : Entry =>
        x.kind = e.kind ∧ x.home = e.home ∧ x.visible = e.visible ∧ x.shown = e.shown ∧ x.age = e.age ∧ x.bridgeBit = e.bridgeBit ∧
        x.reachable = c.reachOf x ∧ (∀ q : Port, x.withdrawn[q] = true → e.withdrawn[q] = true) ∧
        ((∃ k, e.home = .seg (lowerOf i) k) → x.endField =
          if now then some .unknown else if (b.feed i).paired then none else e.endField) ∧
        ((∀ k, e.home ≠ .seg (lowerOf i) k) → x.endField = e.endField)
      (¬ leaves e → e.state ≠ .retiring → ∃ x, c.entry n = some x ∧ fits x ∧ x.state = e.state ∧ x.rights = e.rights) ∧
      (leaves e → e.pins = 0 → c.entry n = none) ∧
      (leaves e ∨ e.state = .retiring → ∀ x, c.entry n = some x → fits x ∧ x.state = .retiring))) ∧
  (∀ (b : Bridge) (i : PairNo) (now : Bool),
    let gone := if now then upperOf i else lowerOf i
    let taken := b.dir.entries.filter fun x => x.2.state = .learned && match x.2.home with
      | .seg q _ => q = gone
      | _ => false
    b.changePairing i now =
      (taken.foldl (fun c x =>
        if x.2.pins = 0 then c.freeEntry x.1
        else (((List.finRange 4).filter fun t => c.segmentOf t = t).filterMap fun t => (numberOn x.2 t).map fun k => (t, k)).foldl
          (fun d y => d.lift y.1 y.2) (c.modEntry x.1 fun e => { e with state := .retiring, rights := {} })) b).modEntries
        fun es => es.map fun x => match x.2.home with
          | .seg q _ => if q = lowerOf i then (x.1, { x.2 with endField := if now then some .unknown else none }) else x
          | _ => x) ∧
  (∀ (s : State) (w : WaitingReset) (p : Port), s.takesTraffic → s.bridge.ctl.waiting = some w →
    w.reported = true ∨ w.deadline ≤ s.bridge.ctl.now → w.kind = .port p →
    ∃ t, exec .portReset s = .next t ∧ t.bridge.ctl.phase = .running ∧ t.bridge.ctl.cause = s.bridge.ctl.cause ∧
      t.bridge.ctl.waiting = none ∧ t.bridge.pair.link = s.bridge.pair.link ∧ t.bridge.settings = s.bridge.settings ∧
      t.bridge.dir.staging = s.bridge.dir.staging ∧
      t.bridge.repeats = (s.bridge.repeats.filter fun r => r.segment ∉ s.bridge.resetPorts p) ∧
      ((s.bridge.feed (pairOf p)).paired = true ∨ s.bridge.settings.pairing[pairOf p] = true →
        (t.bridge.feed (pairOf p)).paired = s.bridge.settings.pairing[pairOf p] ∧
        allZero (t.bridge.feed (pairOf p)).counters ∧
        t.bridge.feed (pairOf p) =
          { paired := s.bridge.settings.pairing[pairOf p],
            startWait := s.bridge.settings.pairing[pairOf p] &&
              ((s.bridge.portSettings (lowerOf (pairOf p))).enable || (s.bridge.portSettings (upperOf (pairOf p))).enable) }) ∧
      (∀ q, q ∉ s.bridge.resetPorts p → t.bridge.mon q = s.bridge.mon q) ∧
      ∀ q ∈ s.bridge.resetPorts p,
        (t.bridge.mon q).state = (if (s.bridge.portSettings q).enable then .testing else .off) ∧
        (t.bridge.mon q).hold = {} ∧ (t.bridge.mon q).latched = {} ∧ (t.bridge.mon q).history = [] ∧
        (t.bridge.mon q).degraded = false ∧ (t.bridge.port q).allowance = (s.bridge.portSettings q).cap ∧
        (t.bridge.port q).remainder = 0) ∧
  (∀ (b : Bridge) (p : Port), b.resetPorts p =
    if b.paired p = true ∨ b.settings.pairing[pairOf p] = true then [lowerOf (pairOf p), upperOf (pairOf p)] else [p])

/-! ## Line monitors and feeds (chapters 9 and 10) -/

/-- The termination test: an uninterrupted run of 20 ms ends GOOD with the port ACTIVE at its cap, SHORT with SHORT latched and the port
ISOLATED with it, or OPEN with OPEN latched and the response that applies, the test owed no more; foreign carrier restarts the run up to
five times and then ends the test ACTIVE, and the end of the carrier begins a new run (R160, R161). A result is counted, latched and
noticed as in ErrorsAreCapturedAndNoticed, and the change of state it makes acts as in DetectionsIsolateThePort; an OPEN found in the
start-up wait of a pair is remembered, and one with the other end ACTIVE is told to the feed controller (R176, R180). -/
def Obligations.TerminationTestReachesItsResult : Prop :=
  ∀ (s : State) (p : Port), s.takesTraffic → (s.bridge.mon p).state = .testing →
    (∀ r t0, (s.bridge.mon p).runFrom = some t0 → t0 + 2500 ≤ s.bridge.ctl.now → (s.bridge.port p).carrier = none →
      ∃ t, exec (.testRunEnd p r) s = .next t ∧ (t.bridge.mon p).testOwed = false ∧
        (r = .good → (t.bridge.mon p).state = .active ∧ (t.bridge.port p).allowance = (t.bridge.portSettings p).cap ∧
          (t.bridge.port p).remainder = 0 ∧ (t.bridge.mon p).latched = (s.bridge.mon p).latched) ∧
        (r = .short → (t.bridge.mon p).state = .isolated ∧ (t.bridge.mon p).hold.short = true ∧
          (t.bridge.mon p).latched.short = true) ∧
        (r = .openLine → (t.bridge.mon p).latched.openLine = true ∧
          ((s.bridge.partnerActive p = false ∧ (s.bridge.portSettings p).openResponse = .isolate →
              (t.bridge.mon p).state = .isolated ∧ (t.bridge.mon p).hold.openLine = true) ∧
           (s.bridge.partnerActive p = true ∨ (s.bridge.portSettings p).openResponse = .continue →
              (t.bridge.mon p).state = .active ∧ (t.bridge.mon p).hold = (s.bridge.mon p).hold)))) ∧
    (∀ t0, (s.bridge.mon p).runFrom = some t0 → t0 + 2500 ≤ s.bridge.ctl.now → (s.bridge.port p).carrier = none →
      let c := s.bridge.modMon p fun m => { m with testOwed := false }
      exec (.testRunEnd p .good) s = .next (s.after [] (c.changeState p .active)) ∧
      exec (.testRunEnd p .short) s = .next (s.after [] (c.detect p .short (·.isolate p .short))) ∧
      exec (.testRunEnd p .openLine) s = .next (s.after [] ((c.modFeed (pairOf p) fun f =>
        if f.paired = true ∧ f.startWait = true then { f with openInWait := true } else f).detect p .openLine fun d =>
          if d.partnerActive p = true then (d.changeState p .active).tellOpen p
          else if (d.portSettings p).openResponse = .isolate then d.isolate p .openLine else d.changeState p .active))) ∧
    (∀ r t0, (s.bridge.mon p).runFrom = some t0 → s.bridge.ctl.now < t0 + 2500 →
      exec (.testRunEnd p r) s = .next (s.after [] s.bridge)) ∧
    (∀ t0, (s.bridge.mon p).runFrom = some t0 →
      ((s.bridge.mon p).restarts < 5 → exec (.testInterrupt p) s = .next (s.after [] (s.bridge.modMon p fun m =>
        { m with restarts := m.restarts + 1, runFrom := none }))) ∧
      (5 ≤ (s.bridge.mon p).restarts → ∃ t, exec (.testInterrupt p) s = .next t ∧ (t.bridge.mon p).state = .active ∧
        (t.bridge.mon p).testOwed = false ∧ (t.bridge.mon p).latched = (s.bridge.mon p).latched ∧
        (t.bridge.port p).allowance = (t.bridge.portSettings p).cap) ∧
      (5 ≤ (s.bridge.mon p).restarts → exec (.testInterrupt p) s = .next (s.after []
        ((((s.bridge.modMon p fun m => { m with testOwed := false }).count (lineGroup p) .testInconclusive).capture (lineGroup p)
          .testInconclusive (.port p)).changeState p .active)))) ∧
    ((s.bridge.mon p).runFrom = none → (s.bridge.port p).carrier = none →
      exec (.testRunResume p) s = .next (s.after [] (s.bridge.modMon p fun m =>
        { m with runFrom := some s.bridge.ctl.now })))

/-- SHORT while the port drives, by a drive current that has been above the short limit for the deglitch time without a break, and JABBER
by a burst longer than 640 word times in every state but OFF, latch their kind, put it into the hold set and isolate the port; 500 ms
without foreign carrier take JABBER out of the hold set, and a port then free leaves ISOLATED for TESTING or ACTIVE as the test is owed;
none of them acts where its event cannot be, or sooner (R156, R157, R162, R163, R165; log 2). Every change of port state turns the monitor
over, gives the port its cap on entering ACTIVE, flushes its queues on leaving ACTIVE or entering OFF, and is reported: the feed
controller follows (SplitSegmentsRelayAndRedistribute); then reach is computed anew, exchanges and deliveries with a lost route close and
stop, a new feed state is noticed, and the flushed frames are reported not sent (R59, R115, R153, R157, R159, R171, R173), in this order
by log 12, the model's reading. The duration of the current is the command's operand, in µs (log 1). What READ-PORT answers as the quiet
time of a JABBER that has left the hold set is log 72. -/
def Obligations.DetectionsIsolateThePort : Prop :=
  (∀ (b : Bridge) (p : Port) (st : PortMode),
    let c := b.modPort p fun x =>
      { x with mon := { x.mon with state := st, runFrom := if st = .testing then some b.ctl.now else none,
                                   restarts := if st = .testing then 0 else x.mon.restarts,
                                   echo := if st = .active then 0 else x.mon.echo, echoDue := false },
               allowance := if st = .active then (b.portSettings p).cap else x.allowance,
               remainder := if st = .active then 0 else x.remainder }
    let cut := c.takeFlush p
    ((b.mon p).state = st → b.changeState p st = b) ∧
    ((b.mon p).state ≠ st → (b.mon p).state = .active ∨ st = .off →
      let y := cut.2.follow (pairOf p)
      b.changeState p st = y.2.concludeChange b (cut.1 :: y.1)) ∧
    ((b.mon p).state ≠ st → (b.mon p).state ≠ .active → st ≠ .off →
      let y := c.follow (pairOf p)
      b.changeState p st = y.2.concludeChange b y.1)) ∧
  (∀ (b before : Bridge) (l : List Flush),
    let lost := (List.finRange 4).filter fun p => before.canTransmit p = true ∧ b.canTransmit p = false
    let c := b.refreshReach
    let d := if lost = [] then c else (c.exchangeLosses (lostBy lost)).deliveryLosses (lostBy lost)
    b.concludeChange before l =
      ((d.feedNotice 0 (before.feed 0).state).feedNotice 1 (before.feed 1).state).reportFlush l) ∧
  (∀ (b : Bridge) (i : PairNo) (old : FeedState), b.feedNotice i old =
    if (b.feed i).state ≠ old ∧ (b.portSettings (lowerOf i)).report.openLine = true then
      b.notify (.feed (lowerOf i) (b.feed i).state)
    else b) ∧
  (∀ (lost : List Port) (q : Port) (mac : Mac), (lostBy lost (.port q) = true ↔ q ∈ lost) ∧
    (lostBy lost (.unknownEnd q) = true ↔ ∃ x ∈ lost, pairOf x = pairOf q) ∧ lostBy lost (.pair mac) = false) ∧
  (∀ (b : Bridge) (p : Port) (k : FaultKind),
    let held := fun (m : Monitor) (v : Bool) =>
      { m with hold := FaultSet.put m.hold k v, jabberFrom := if k = .jabber then none else m.jabberFrom,
               mode := if (FaultSet.put m.hold k v).lowSignal then .watch else (b.portSettings p).sampling }
    let c := b.modMon p fun m => held m false
    let m := c.mon p
    let d := if m.state = .isolated ∧ m.hold.isEmpty = true then c.changeState p (if m.testOwed then .testing else .active) else c
    b.isolate p k = (b.modMon p fun m => held m true).changeState p .isolated ∧
    b.leaveHold p [k] = if (d.portSettings p).report.has k = true then d.notify (.recovery p k (d.mon p).state) else d) ∧
  ∀ (s : State) (p : Port), s.takesTraffic →
    (∀ duration, (s.bridge.mon p).state = .active → s.bridge.driving p = true → (s.bridge.portSettings p).deglitch ≤ duration →
      (∀ a, (s.bridge.port p).attempt = some a → duration ≤ 8 * (s.bridge.ctl.now - a.start)) →
      exec (.shortDetection ⟨p, duration⟩) s = .next (s.after [] (s.bridge.detect p .short (·.isolate p .short)))) ∧
    (∀ c, (s.bridge.mon p).state ≠ .off → (s.bridge.port p).carrier = some c → c.jabbered = false →
      c.start + 640 < s.bridge.ctl.now →
      exec (.jabberDetection p) s = .next (s.after [] ((s.bridge.modPort p fun x =>
        { x with carrier := some { c with jabbered := true } }).detect p .jabber (·.isolate p .jabber)))) ∧
    (∀ t0, (s.bridge.mon p).hold.jabber = true → (s.bridge.port p).carrier = none → (s.bridge.mon p).jabberFrom = some t0 →
      t0 + 62500 ≤ s.bridge.ctl.now → exec (.jabberRecovery p) s = .next (s.after [] (s.bridge.leaveHold p [.jabber]))) ∧
    (∀ duration, (s.bridge.mon p).state = .active → s.bridge.driving p = true → (s.bridge.portSettings p).deglitch ≤ duration →
      (∀ a, (s.bridge.port p).attempt = some a → duration ≤ 8 * (s.bridge.ctl.now - a.start)) →
      ∃ t, exec (.shortDetection ⟨p, duration⟩) s = .next t ∧ (t.bridge.mon p).state = .isolated ∧ (t.bridge.mon p).hold.short = true ∧
        (t.bridge.mon p).latched = { (s.bridge.mon p).latched with short := true }) ∧
    (∀ duration, (s.bridge.mon p).state ≠ .active ∨ s.bridge.driving p = false ∨ duration < (s.bridge.portSettings p).deglitch ∨
        (∃ a, (s.bridge.port p).attempt = some a ∧ 8 * (s.bridge.ctl.now - a.start) < duration) →
      exec (.shortDetection ⟨p, duration⟩) s = .next (s.after [] s.bridge)) ∧
    (∀ c, (s.bridge.mon p).state ≠ .off → (s.bridge.port p).carrier = some c → c.jabbered = false →
      c.start + 640 < s.bridge.ctl.now →
      ∃ t, exec (.jabberDetection p) s = .next t ∧ (t.bridge.mon p).state = .isolated ∧ (t.bridge.mon p).hold.jabber = true ∧
        (t.bridge.mon p).latched = { (s.bridge.mon p).latched with jabber := true } ∧
        (t.bridge.port p).carrier = some { c with jabbered := true } ∧ (t.bridge.mon p).jabberFrom = none) ∧
    ((s.bridge.mon p).state = .off ∨ (s.bridge.port p).carrier = none ∨
      (∃ c, (s.bridge.port p).carrier = some c ∧ (c.jabbered = true ∨ s.bridge.ctl.now ≤ c.start + 640)) →
      exec (.jabberDetection p) s = .next (s.after [] s.bridge)) ∧
    (∀ t0, (s.bridge.mon p).hold.jabber = true → (s.bridge.port p).carrier = none → (s.bridge.mon p).jabberFrom = some t0 →
      t0 + 62500 ≤ s.bridge.ctl.now →
      ∃ t, exec (.jabberRecovery p) s = .next t ∧ (t.bridge.mon p).hold = { (s.bridge.mon p).hold with jabber := false } ∧
        (t.bridge.mon p).latched = (s.bridge.mon p).latched ∧
        (t.bridge.mon p).state =
          if (s.bridge.mon p).state = .isolated ∧ (FaultSet.isEmpty { (s.bridge.mon p).hold with jabber := false }) = true then
            (if (s.bridge.mon p).testOwed then .testing else .active)
          else (s.bridge.mon p).state) ∧
    ((s.bridge.mon p).hold.jabber = false ∨ (s.bridge.port p).carrier ≠ none ∨ (s.bridge.mon p).jabberFrom = none ∨
      (∃ t0, (s.bridge.mon p).jabberFrom = some t0 ∧ s.bridge.ctl.now < t0 + 62500) →
      exec (.jabberRecovery p) s = .next (s.after [] s.bridge))

/-- A due sample takes the amplitude of the last complete preamble since the sample before, of a burst still on the wire too: its level, 8
times a over n rounded down and at most 15, joins the history of 8; a smoothed level of 3 or less sets DEGRADED and one of 5 or more
clears it; the fourth level 0 in a row latches LOW_SIGNAL, and isolates under that response; a level of 2 or more takes LOW_SIGNAL out of
the hold set; a sample without an amplitude is skipped; one that is not due, or in OFF, is not taken. An echo above a quarter of n counts
up, a clean one sets the count to 0, and the third in a row latches OPEN and tells the feed controller or meets the OPEN response (R156,
R164, R167 to R170). That the command carries the amplitude of a burst on the wire is the model's form (log 34); that a LOW_SIGNAL still
held but cleared from the latched set is latched again (log 59), and that R169 acts before the DEGRADED flag (log 60), are its choices,
and so is that a burst on the wire when the sampler starts counts (log 78). -/
def Obligations.LevelsAndEchoes : Prop :=
  (∀ (b : Bridge) (p : Port) (level : Nat),
    let still := b.modMon p fun m => { m with lowRun := 0 }
    (level = 0 → (b.mon p).lowRun < 3 → b.runCount p level = b.modMon p fun m => { m with lowRun := m.lowRun + 1 }) ∧
    (level = 0 → 3 ≤ (b.mon p).lowRun → b.runCount p level = still.detect p .lowSignal fun c =>
      if (c.portSettings p).lowResponse = .isolate then c.isolate p .lowSignal else c) ∧
    (level ≠ 0 → b.runCount p level =
      if 2 ≤ level ∧ (b.mon p).hold.lowSignal = true then still.leaveHold p [.lowSignal] else still)) ∧
  (∀ (b : Bridge) (p : Port),
    let m := b.mon p
    let smooth := m.history.sum / m.history.length
    let fallen := (b.modMon p fun m => { m with degraded := true }).count (lineGroup p) .degraded
    (m.history = [] → b.degradedFlag p = b) ∧
    (m.history ≠ [] → smooth ≤ 3 → m.degraded = false → b.degradedFlag p =
      if (b.portSettings p).report.lowSignal = true then fallen.notify (.degraded p m.state) else fallen) ∧
    (m.history ≠ [] → 5 ≤ smooth → m.degraded = true → b.degradedFlag p = b.modMon p fun m => { m with degraded := false }) ∧
    (m.history ≠ [] → (m.degraded = true → smooth < 5) → (m.degraded = false → 3 < smooth) → b.degradedFlag p = b)) ∧
  (∀ (s : State) (p : Port) (onWire : Option Nat), s.takesTraffic →
    let m := s.bridge.mon p
    let interval := if m.mode = .watch then 8000 else 500000
    let wire := match (s.bridge.port p).carrier with
      | some c => if c.sampled = false ∧ c.start + 2 ≤ s.bridge.ctl.now then onWire else none
      | none => none
    let taken := match wire with
      | some a => some a
      | none => m.lastAmp
    (m.state ≠ .off → m.lastSample + interval ≤ s.bridge.ctl.now → taken = none →
      exec (.levelSample ⟨p, onWire⟩) s = .next (s.after [] (s.bridge.modMon p fun m =>
        { m with lastAmp := none, lastSample := s.bridge.ctl.now }))) ∧
    (∀ a, m.state ≠ .off → m.lastSample + interval ≤ s.bridge.ctl.now → taken = some a →
      let level := min 15 (8 * a / (s.bridge.portSettings p).nominal)
      let history := (if m.history.length < 8 then m.history else m.history.tail) ++ [level]
      let smooth := history.sum / history.length
      exec (.levelSample ⟨p, onWire⟩) s = .next (s.after [] ((((s.bridge.modPort p fun x =>
        { x with carrier := if wire = none then x.carrier else x.carrier.map fun c => { c with sampled := true },
                 mon := { x.mon with lastAmp := none, lastSample := s.bridge.ctl.now, history } }).runCount p level).degradedFlag p))) ∧
      ∃ t, exec (.levelSample ⟨p, onWire⟩) s = .next t ∧
        (t.bridge.mon p).history = history ∧
        (t.bridge.mon p).lastSample = s.bridge.ctl.now ∧ (t.bridge.mon p).lastAmp = none ∧
        (wire ≠ none → (t.bridge.port p).carrier = (s.bridge.port p).carrier.map fun c => { c with sampled := true }) ∧
        (wire = none → (t.bridge.port p).carrier = (s.bridge.port p).carrier) ∧
        (t.bridge.mon p).degraded = (if smooth ≤ 3 then true else if 5 ≤ smooth then false else m.degraded) ∧
        (level ≠ 0 → (t.bridge.mon p).lowRun = 0) ∧
        (level = 1 ∨ (level ≠ 0 ∧ m.hold.lowSignal = false) →
          (t.bridge.mon p).hold = m.hold ∧ (t.bridge.mon p).state = m.state) ∧
        (2 ≤ level → m.hold.lowSignal = true →
          (t.bridge.mon p).hold = { m.hold with lowSignal := false } ∧
          (t.bridge.mon p).mode = (s.bridge.portSettings p).sampling ∧
          (t.bridge.mon p).state =
            if m.state = .isolated ∧ (FaultSet.isEmpty { m.hold with lowSignal := false }) = true then
              (if m.testOwed then .testing else .active)
            else m.state) ∧
        (level = 0 → m.lowRun < 3 → (t.bridge.mon p).lowRun = m.lowRun + 1 ∧ (t.bridge.mon p).state = m.state) ∧
        (level = 0 → 3 ≤ m.lowRun → (t.bridge.mon p).lowRun = 0 ∧ (t.bridge.mon p).latched.lowSignal = true ∧
          ((s.bridge.portSettings p).lowResponse = .isolate →
            (t.bridge.mon p).state = .isolated ∧ (t.bridge.mon p).hold.lowSignal = true ∧ (t.bridge.mon p).mode = .watch))) ∧
    (m.state = .off ∨ s.bridge.ctl.now < m.lastSample + interval →
      exec (.levelSample ⟨p, onWire⟩) s = .next (s.after [] s.bridge))) ∧
  (∀ (s : State) (p : Port) (a : Nat), s.takesTraffic →
    let m := s.bridge.mon p
    let n := (s.bridge.portSettings p).nominal
    (m.echoDue = true → m.state = .active → s.bridge.inSplit p = false →
      (n < 4 * a → m.echo < 2 → exec (.echoMeasurement p a) s = .next (s.after [] (s.bridge.modMon p fun m =>
        { m with echoDue := false, echo := m.echo + 1 }))) ∧
      (4 * a ≤ n → exec (.echoMeasurement p a) s = .next (s.after [] (s.bridge.modMon p fun m =>
        { m with echoDue := false, echo := 0 }))) ∧
      (n < 4 * a → 2 ≤ m.echo → exec (.echoMeasurement p a) s = .next (s.after [] ((s.bridge.modMon p fun m =>
        { m with echoDue := false, echo := 0 }).detect p .openLine fun c =>
          if c.partnerActive p = true ∧ c.canTransmit p = true then c.tellOpen p
          else if (c.portSettings p).openResponse = .isolate then c.isolate p .openLine else c))) ∧
      (n < 4 * a → 2 ≤ m.echo → ∃ t, exec (.echoMeasurement p a) s = .next t ∧ (t.bridge.mon p).echo = 0 ∧
        (t.bridge.mon p).latched.openLine = true ∧
        (s.bridge.partnerActive p = false → (s.bridge.portSettings p).openResponse = .isolate →
          (t.bridge.mon p).state = .isolated ∧ (t.bridge.mon p).hold.openLine = true) ∧
        (s.bridge.partnerActive p = false → (s.bridge.portSettings p).openResponse = .continue →
          (t.bridge.mon p).state = .active ∧ (t.bridge.mon p).hold = m.hold))) ∧
    (m.echoDue = true → m.state = .active → s.bridge.inSplit p = true →
      exec (.echoMeasurement p a) s = .next (s.after [] (s.bridge.modMon p fun m => { m with echoDue := false, echo := 0 }))) ∧
    (m.echoDue = false ∨ m.state ≠ .active → exec (.echoMeasurement p a) s = .next (s.after [] s.bridge)))

/-- The feed controller's own events: a switch window closes into FEED_A once end B does not drive, and a split window into SPLIT once the
feeding end does not; a probe that falls due with both ends available and no window is put in hand, and is skipped otherwise; a pulse on
quiet ends at level 8 or more without foreign carrier rejoins the segment to FEED_A, and any other, as one that foreign carrier disturbs,
leaves SPLIT with the timer at 0 (R175, R176, R179). A change of feed state is one change (R174): the queues of an end that can no longer
transmit are flushed, an end that can transmit anew gets its cap with remainder 0, entering FEED_A, FEED_B or DOWN makes every end of the
segment UNKNOWN, entering SPLIT sets the echo counts to 0 (R164), and nothing else changes; a rejoin, and a closed switch window, are such
changes, with their reports as in DetectionsIsolateThePort, and a rejoin is counted in REJOINS. An OPEN told while the pair is fed from
one end and the other is ACTIVE opens a split window (R176). The command stands at the end of the pulse of 2 word times (log 34), from
which the quiet time of both ends starts anew (log 73): the model's choices. -/
def Obligations.FeedEventsMoveTheFeed : Prop :=
  (∀ (b : Bridge) (i : PairNo) (g : Feed → Feed),
    let y := b.changeFeed i g
    let new := (g (b.feed i)).state
    let entered := new ≠ (b.feed i).state
    let loses := fun p => b.canTransmit p = true ∧ y.2.canTransmit p = false
    let gains := fun p => b.canTransmit p = false ∧ y.2.canTransmit p = true
    y.2.feed i = g (b.feed i) ∧ (∀ j, j ≠ i → y.2.feed j = b.feed j) ∧
    (∀ p, pairOf p ≠ i → y.2.port p = b.port p) ∧
    (∀ p, pairOf p = i →
      let x := b.port p
      let x := if entered ∧ new = .split then { x with mon := { x.mon with echo := 0 } } else x
      (loses p → y.2.port p =
        { x with class0 := [], class1 := [], attempt := none, backoff := none, waiting := [],
                 quietFrom := if b.driving p then b.ctl.now else x.quietFrom }) ∧
      (gains p → y.2.port p = { x with allowance := (b.portSettings p).cap, remainder := 0 }) ∧
      (¬ loses p → ¬ gains p → y.2.port p = x)) ∧
    y.1 = (([lowerOf i, upperOf i].filter fun p => loses p).map fun p =>
      { port := p, frames := (b.port p).class1, waiting := (b.port p).waiting }) ∧
    (entered → new ≠ .split → ∀ n, y.2.entry n = (b.entry n).map fun e =>
      match e.home with
      | .seg p _ => if p = lowerOf i then { e with endField := some .unknown } else e
      | _ => e) ∧
    (¬ entered ∨ new = .split → y.2.dir = b.dir) ∧
    { y.2 with ports := b.ports, feeds := b.feeds, dir := { y.2.dir with entries := b.dir.entries } } = b) ∧
  (∀ (b : Bridge) (p : Port),
    let f := b.feed (pairOf p)
    let splits := f.paired = true ∧ f.startWait = false ∧ (f.state = .feedA ∨ f.state = .feedB) ∧ (b.mon (partner p)).state = .active
    (splits → b.tellOpen p = b.modFeed (pairOf p) fun f => { f with window := .split }) ∧ (¬ splits → b.tellOpen p = b)) ∧
  (∀ (s : State) (i : PairNo), s.takesTraffic → (s.bridge.feed i).paired = true →
    let toA := fun f : Feed => { f with state := .feedA, window := .none, probing := false, probeFrom := none }
    ((s.bridge.feed i).window = .switch → s.bridge.driving (s.bridge.feedingEnd i) = false →
      let y := s.bridge.changeFeed i toA
      exec (.switchWindowClose i) s = .next (s.after [] (y.2.concludeChange s.bridge y.1))) ∧
    (∀ (a : Nat) (foreign : Bool), (s.bridge.feed i).probing = true → s.bridge.mayPulse i foreign = true →
      let heard := foreign = true ∨ ∃ p, pairOf p = i ∧ (s.bridge.port p).carrier ≠ none
      let level := min 15 (8 * a / (s.bridge.portSettings (lowerOf i)).nominal)
      let c := (s.bridge.modPort (lowerOf i) fun x => { x with quietFrom := s.bridge.ctl.now }).modPort (upperOf i) fun x =>
        { x with quietFrom := s.bridge.ctl.now }
      let y := c.changeFeed i toA
      (8 ≤ level → ¬ heard → exec (.probePulse i a foreign) s =
        .next (s.after [] ((y.2.concludeChange c y.1).countFeed i .rejoins))) ∧
      (level < 8 ∨ heard → exec (.probePulse i a foreign) s =
        .next (s.after [] (c.modFeed i fun f => { f with window := .none, probing := false, probeFrom := some s.bridge.ctl.now }))))) ∧
  (∀ (b : Bridge) (i : PairNo) (foreign : Bool), b.mayPulse i foreign = true ↔
    (b.feed i).paired = true ∧ (b.feed i).probing = true ∧ ∀ p, pairOf p = i → b.driving p = false ∧
      (∀ c, (b.port p).carrier = some c → b.ctl.now ≤ c.start + 2) ∧
      ((b.port p).quietFrom + 6 ≤ b.ctl.now ∨ (foreign = true ∧ b.ctl.now ≤ (b.port p).quietFrom + 2))) ∧
  ∀ (s : State) (i : PairNo), s.takesTraffic → (s.bridge.feed i).paired = true →
    ((s.bridge.feed i).window = .switch → s.bridge.driving (s.bridge.feedingEnd i) = false →
      ∃ t, exec (.switchWindowClose i) s = .next t ∧ (t.bridge.feed i).state = .feedA ∧ (t.bridge.feed i).window = .none) ∧
    ((s.bridge.feed i).window ≠ .switch ∨ s.bridge.driving (s.bridge.feedingEnd i) = true →
      exec (.switchWindowClose i) s = .next (s.after [] s.bridge)) ∧
    ((s.bridge.feed i).window = .split → s.bridge.driving (s.bridge.feedingEnd i) = false →
      ∃ t, exec (.splitWindowClose i) s = .next t ∧ (t.bridge.feed i).state = .split ∧ (t.bridge.feed i).window = .none ∧
        (t.bridge.feed i).probeFrom = some s.bridge.ctl.now) ∧
    ((s.bridge.feed i).window ≠ .split ∨ s.bridge.driving (s.bridge.feedingEnd i) = true →
      exec (.splitWindowClose i) s = .next (s.after [] s.bridge)) ∧
    (∀ t0, (s.bridge.feed i).state = .split → (s.bridge.feed i).probing = false → (s.bridge.feed i).probeFrom = some t0 →
      t0 + 1250000 ≤ s.bridge.ctl.now →
      ((s.bridge.mon (lowerOf i)).state = .active ∧ (s.bridge.mon (upperOf i)).state = .active ∧ (s.bridge.feed i).window = .none →
        exec (.probeDue i) s = .next (s.after [] (s.bridge.modFeed i fun f => { f with probing := true }))) ∧
      (¬ ((s.bridge.mon (lowerOf i)).state = .active ∧ (s.bridge.mon (upperOf i)).state = .active
          ∧ (s.bridge.feed i).window = .none) →
        exec (.probeDue i) s = .next (s.after [] (s.bridge.modFeed i fun f => { f with probeFrom := some s.bridge.ctl.now })))) ∧
    (∀ t0, (s.bridge.feed i).probeFrom = some t0 → s.bridge.ctl.now < t0 + 1250000 →
      exec (.probeDue i) s = .next (s.after [] s.bridge)) ∧
    (∀ (a : Nat) (foreign : Bool), (s.bridge.feed i).probing = true →
      (∀ p, pairOf p = i → s.bridge.driving p = false ∧ (s.bridge.port p).carrier = none ∧
        (s.bridge.port p).quietFrom + 6 ≤ s.bridge.ctl.now) →
      ∃ t, exec (.probePulse i a foreign) s = .next t ∧ (t.bridge.feed i).probing = false ∧
        (8 ≤ min 15 (8 * a / (s.bridge.portSettings (lowerOf i)).nominal) → foreign = false →
          (t.bridge.feed i).state = .feedA ∧ (t.bridge.feed i).probeFrom = none) ∧
        (min 15 (8 * a / (s.bridge.portSettings (lowerOf i)).nominal) < 8 ∨ foreign = true →
          (t.bridge.feed i).state = (s.bridge.feed i).state ∧ (t.bridge.feed i).probeFrom = some s.bridge.ctl.now)) ∧
    (∀ (a : Nat) (foreign : Bool), (s.bridge.feed i).probing = true →
      (∀ p, pairOf p = i → s.bridge.driving p = false ∧ (s.bridge.port p).quietFrom + 6 ≤ s.bridge.ctl.now ∧
        ∀ c, (s.bridge.port p).carrier = some c → s.bridge.ctl.now ≤ c.start + 2) →
      (∃ p, pairOf p = i ∧ (s.bridge.port p).carrier ≠ none) →
      ∃ t, exec (.probePulse i a foreign) s = .next t ∧ (t.bridge.feed i).probing = false ∧
        (t.bridge.feed i).state = (s.bridge.feed i).state ∧ (t.bridge.feed i).probeFrom = some s.bridge.ctl.now) ∧
    (∀ (a : Nat) (foreign : Bool), (s.bridge.feed i).probing = false →
      exec (.probePulse i a foreign) s = .next (s.after [] s.bridge))

/-- What every command of the line monitors and of the feed controllers leaves as it is, in every state: the queue of commands, the clock,
the phase and the cause of the last reset, the settings, the repeat memory of the segment ports, the staging area, the pair link's state,
the management agent but for its lost answers, the monitors and the foreign carrier of the ports it does not concern, and the feed
controllers of the other pair but for their counters. What the loss or the return of a path does to queues, entries, exchanges, jobs,
deliveries and error groups (R157, R159, R171) is in DetectionsIsolateThePort and FeedEventsMoveTheFeed, and nothing is said here of
records not named. -/
def Obligations.LineCommandsKeepTheRest : Prop :=
  (∀ (s t : State) (p : Port) (r : TestResult) (a d : Nat) (w : Option Nat),
    exec (.testRunEnd p r) s = .next t ∨ exec (.testInterrupt p) s = .next t ∨ exec (.testRunResume p) s = .next t
      ∨ exec (.shortDetection ⟨p, d⟩) s = .next t ∨ exec (.jabberDetection p) s = .next t ∨ exec (.jabberRecovery p) s = .next t
      ∨ exec (.echoMeasurement p a) s = .next t ∨ exec (.levelSample ⟨p, w⟩) s = .next t →
    LineKept [p] s t) ∧
  (∀ (s t : State) (i : PairNo) (a : Nat) (foreign : Bool),
    exec (.switchWindowClose i) s = .next t ∨ exec (.splitWindowClose i) s = .next t ∨ exec (.probeDue i) s = .next t
      ∨ exec (.probePulse i a foreign) s = .next t →
    LineKept [lowerOf i, upperOf i] s t)

/-- After every command the FAULT pin is driven exactly while a latched kind of some port has report setting REPORT, the STORE group holds
a first error, or the setup flag is set, and is released until the configuration load has ended (R186, R192). -/
def Obligations.FaultPinShowsItsConditions : Prop :=
  ∀ (c : Instr) (s t : State), exec c s = .next t →
    (t.bridge.reporting.fault = true ↔
      t.bridge.ctl.phase = .running ∧
      ((∃ (p : Port) (k : FaultKind), (t.bridge.mon p).latched.has k = true ∧ (t.bridge.portSettings p).report.has k = true) ∨
        (t.bridge.group 8).first ≠ none ∨ t.bridge.agent.setup = true))

/-- Errors are captured and told. A count saturates at 65535. A capture becomes its group's first error with the seconds counter and sets
MULTIPLE where one is held; a new first error of a group other than a LINE group is sent as an ERROR notice (R185). A detected fault is
counted, latched with a capture when it is new, answered, and then noticed where its report setting is REPORT (R165). A notice goes to the
first and then the second destination, from the bridge number or entry 1: NOTICE_DROPPED counts one that cannot be sent (R187). A HELLO
that finds no FREE entry counts MAP_FULL, is captured, and is refused FAIL FULL (R28). A capture of a LINE group sends no ERROR
notice (R185). That a capture which only sets MULTIPLE sends none is the model's reading (log 19); that a notice carries the state after
the response (log 20), destination field 0 in the FAIL and sequence bit 0 in a NOTICE (log 40), and MAP_FULL before the FAIL FULL (log
52), are its choices. -/
def Obligations.ErrorsAreCapturedAndNoticed : Prop :=
  (∀ (b : Bridge) (g : Fin 9) (c : Ctr), b.count g c = b.modGroup g fun x =>
    { x with counters := x.counters.map fun y => if y.1 = c then (y.1, min 65535 (y.2 + 1)) else y }) ∧
  (∀ (b : Bridge) (g : Fin 9) (kind : Ctr) (detail : ErrorDetail),
    (∀ e, (b.group g).first = some e → b.capture g kind detail = b.modGroup g fun x => { x with multiple := true }) ∧
    ((b.group g).first = none →
      let e : FirstError := { kind, time := min ((b.ctl.now - b.ctl.secondsFrom) / 125000) 4294967295, detail }
      let c := b.modGroup g fun x => { x with first := some e }
      b.capture g kind detail = if g.val < 4 then c else c.notify (.error g e))) ∧
  (∀ (b : Bridge) (ev : NoticeEvent),
    b.notify ev = (b.noticeTo b.settings.notice1 ev).noticeTo b.settings.notice2 ev) ∧
  (∀ (b : Bridge) (ev : NoticeEvent) (n : DirNo),
    let dropped := fun c : Bridge => c.modReporting fun r => { r with noticeDropped := min 65535 (r.noticeDropped + 1) }
    let bytes := b.noticeRecord ev
    b.noticeTo none ev = b ∧
    (b.entry n = none → b.noticeTo (some n) ev = dropped b) ∧
    (∀ e, b.entry n = some e →
      (e.state = .retiring ∨ e.reachable = false → b.noticeTo (some n) ev = dropped b) ∧
      (∀ mac o, e.state ≠ .retiring → e.reachable = true → e.home = .pair mac o →
        let c := b.offeredPair { mac, kind := .notice, dst := n, src := 1, data := bytes } .notice
        b.noticeTo (some n) ev = if b.pair.link = true ∧ b.pair.queue.length < 48 then c else dropped c) ∧
      (∀ p num, e.state ≠ .retiring → e.reachable = true → e.home = .seg p num →
        let ps := b.endsFor p e.endField
        (b.bridgeNumberOn (b.segmentOf p) = none → b.noticeTo (some n) ev = dropped b) ∧
        (∀ k, b.bridgeNumberOn (b.segmentOf p) = some k →
          let c := b.offeredOn ps (Block.build num k .notice false bytes) .notice none
          ((∃ q ∈ ps, ¬ b.full1 q) → b.noticeTo (some n) ev = c) ∧
          ((∀ q ∈ ps, b.full1 q) → b.noticeTo (some n) ev = dropped c))))) ∧
  (∀ (b : Bridge) (p : Port) (k : FaultKind) (c : Ctr) (response : Bridge → Bridge),
    (k = .short → c = .short) → (k = .openLine → c = .openLine) → (k = .jabber → c = .jabber) → (k = .lowSignal → c = .lowSignal) →
    let counted := b.count (lineGroup p) c
    let latched := (counted.modMon p fun m => { m with latched := FaultSet.put m.latched k true }).capture (lineGroup p) c (.fault p k)
    ((b.mon p).latched.has k = true → b.detect p k response = response counted) ∧
    ((b.mon p).latched.has k = false →
      let d := response latched
      b.detect p k response =
        if (d.portSettings p).report.has k = true then d.notify (.fault p k (d.mon p).state) else d)) ∧
  (∀ (s : State) (f : EtherIn) (c : Carrier), s.takesTraffic → s.bridge.carries f c → c.kind = .hello →
    findMac s.bridge.dir.entries c.mac = none → retiringMac s.bridge.dir.entries c.mac = false →
    s.bridge.settings.pairLearning = true → (∀ n, 10 ≤ n → n ≤ 384 → s.bridge.entry n ≠ none) →
    let g := (s.bridge.count 6 .mapFull).capture 6 .mapFull (.learnPair c.mac)
    let refusal : Carrier := { mac := c.mac, kind := .fail, reason := 10, seq := c.seq, tag := c.tag, dst := 0, src := 1 }
    (g.pair.queue.length < 48 → exec (.pairFrameReceive f) s = .next (s.after [] (g.queuedPair refusal .answer))) ∧
    (48 ≤ g.pair.queue.length →
      exec (.pairFrameReceive f) s = .next (s.after [] ((g.setSerial (g.serial + 1)).count 4 .answerDropped)))) ∧
  (∀ (k : FaultKind) (x : FaultSet) (v : Bool), (FaultSet.put x k v).has k = v ∧
    ∀ j, j ≠ k → (FaultSet.put x k v).has j = x.has j)

end
end

