-- ==== Sys2Proof/Laws/Checks.lean ====
section
/-! SUPPORT. What each of the plan's checks C1 to C7 says when it passes and what its failure names (R71): two lemmas per check, and the
lemmas of the searches that the checks share. -/

namespace Sys2Proof.Machine
open Sys2Proof

/-- The first answer found over a range of numbers. -/
theorem findSome_range_some {β} (f : Nat → Option β) (b : β) : ∀ (k a : Nat), (List.range' a k).findSome? f = some b ↔
    ∃ n, a ≤ n ∧ n < a + k ∧ f n = some b ∧ ∀ m, a ≤ m → m < n → f m = none
  | 0, a => by simp; omega
  | k+1, a => by
    rw [List.range'_succ, List.findSome?_cons]
    cases h : f a with
    | some c =>
      simp only []
      constructor
      · rintro h2; cases h2; exact ⟨a, by omega, by omega, h, fun m _ _ => by omega⟩
      · rintro ⟨n, h1, h2, h3, h4⟩
        by_cases e : a = n
        · subst e; rw [← h3, h]
        · have := h4 a (by omega) (by omega); rw [h] at this; cases this
    | none =>
      simp only []
      rw [findSome_range_some f b k (a+1)]
      constructor
      · rintro ⟨n, h1, h2, h3, h4⟩
        refine ⟨n, by omega, by omega, h3, fun m a1 a2 => ?_⟩
        by_cases e : a = m
        · subst e; exact h
        · exact h4 m (by omega) a2
      · rintro ⟨n, h1, h2, h3, h4⟩
        have : a ≠ n := by rintro rfl; rw [h] at h3; cases h3
        exact ⟨n, by omega, by omega, h3, fun m a1 a2 => h4 m (by omega) a2⟩

/-- No answer is found over a range of numbers. -/
theorem findSome_range_none {β} (f : Nat → Option β) (k a : Nat) : (List.range' a k).findSome? f = none ↔
    ∀ n, a ≤ n → n < a + k → f n = none := by
  rw [List.findSome?_eq_none_iff]
  constructor
  · intro h n h1 h2; exact h n (by simp [List.mem_range'_1]; omega)
  · intro h n hn; simp [List.mem_range'_1] at hn; exact h n hn.1 (by omega)

/-- An entry is present under a number on a segment. -/
theorem presentUnder_iff (x : Nat × Entry) (g : Port) (n : Nat) : presentUnder x.2 g n = true ↔ ClashC1 g n x x := by
  simp [presentUnder, ClashC1]; tauto

/-- Two entries clash exactly where both are present. -/
theorem clashC1_iff (x y : Nat × Entry) (g : Port) (n : Nat) :
    ClashC1 g n x y ↔ presentUnder x.2 g n = true ∧ presentUnder y.2 g n = true := by
  rw [presentUnder_iff, presentUnder_iff]; unfold ClashC1; simp

/-- No two of a list pass a test exactly where at most one does. -/
theorem pairwise_iff_filter {α} (p : α → Bool) :
    ∀ l : List α, l.Pairwise (fun x y => ¬ (p x = true ∧ p y = true)) ↔ (l.filter p).length ≤ 1
  | [] => by simp
  | a :: l => by
    rw [List.pairwise_cons, pairwise_iff_filter p l]
    by_cases h : p a
    · simp only [List.filter_cons, h, if_true, List.length_cons]
      constructor
      · rintro ⟨h1, _⟩
        have : l.filter p = [] := by rw [List.filter_eq_nil_iff]; intro b hb hp; exact h1 b hb ⟨by trivial, hp⟩
        simp [this]
      · intro h2
        have : l.filter p = [] := List.length_eq_zero_iff.mp (by omega)
        refine ⟨fun b hb hp => ?_, by simp [this]⟩
        rw [List.filter_eq_nil_iff] at this
        exact this b hb hp.2
    · simp [h]

/-- The first two of a list that pass a test. -/
theorem filter_starts_with_two {α} (p : α → Bool) (x y : α) : ∀ l : List α, (∃ r, l.filter p = x :: y :: r) ↔
    ∃ a b c, l = a ++ x :: (b ++ y :: c) ∧ (p x = true ∧ p y = true) ∧ ∀ z ∈ a ++ b, p z = false := by
  intro l
  constructor
  · rintro ⟨r, h⟩
    rw [List.filter_eq_cons_iff] at h
    obtain ⟨a, l2, e, ha, hx, h⟩ := h
    rw [List.filter_eq_cons_iff] at h
    obtain ⟨b, l3, e2, hb, hy, h⟩ := h
    subst e2; subst e
    refine ⟨a, b, l3, rfl, ⟨hx, hy⟩, ?_⟩
    intro z hz
    rcases List.mem_append.mp hz with hz | hz
    · simpa using ha z hz
    · simpa using hb z hz
  · rintro ⟨a, b, c, rfl, ⟨hx, hy⟩, hz⟩
    have ha : a.filter p = [] := by rw [List.filter_eq_nil_iff]; intro z hm; simp [hz z (by simp [hm])]
    have hb : b.filter p = [] := by rw [List.filter_eq_nil_iff]; intro z hm; simp [hz z (by simp [hm])]
    exact ⟨c.filter p, by simp [List.filter_append, ha, hb, hx, hy]⟩

/-- What C1 answers of one number on one segment. -/
def clashAt (es : Entries) (s : Port) (n : Nat) : Option CheckFailure :=
  match es.filter fun x => presentUnder x.2 s n with
      | x :: y :: _ => some { check := 1, segment := s.val, number := n, first := x.1, second := y.1 }
      | _ => none

theorem clashAt_none (es : Entries) (s : Port) (n : Nat) : clashAt es s n = none ↔ es.Pairwise fun x y => ¬ ClashC1 s n x y := by
  simp only [clashC1_iff]
  rw [pairwise_iff_filter (fun x : Nat × Entry => presentUnder x.2 s n) es]
  unfold clashAt
  split
  · next h => rw [h]; simp
  · next h =>
    rcases h2 : es.filter fun x => presentUnder x.2 s n with _ | ⟨x, _ | ⟨y, r⟩⟩
    · rw [h2]; simp
    · rw [h2]; simp
    · exact absurd h2 (h x y r)

theorem clashAt_some (es : Entries) (s : Port) (n : Nat) (f) : clashAt es s n = some f ↔ ∃ front x mid y back,
     es = front ++ x :: (mid ++ y :: back) ∧ ClashC1 s n x y ∧ (∀ z ∈ front ++ mid, ¬ ClashC1 s n z z) ∧
      f = { check := 1, segment := s.val, number := n, first := x.1, second := y.1 } := by
  have key : clashAt es s n = some f ↔ ∃ x y,
      (∃ r, es.filter (fun x => presentUnder x.2 s n) = x :: y :: r) ∧
        f = { check := 1, segment := s.val, number := n, first := x.1, second := y.1 } := by
    unfold clashAt
    split
    · next x y r h =>
      simp only [Option.some.injEq]
      constructor
      · rintro rfl; exact ⟨x, y, ⟨r, h⟩, rfl⟩
      · rintro ⟨x', y', ⟨r', h'⟩, rfl⟩
        rw [h] at h'; cases h'; rfl
    · next h =>
      constructor
      · intro h2; cases h2
      · rintro ⟨x, y, ⟨r, h'⟩, _⟩; exact absurd h' (h x y r)
  rw [key]
  constructor
  · rintro ⟨x, y, h, hf⟩
    rw [filter_starts_with_two] at h
    obtain ⟨a, b, c, h1, h2, h3⟩ := h
    exact ⟨a, x, b, y, c, h1, (clashC1_iff ..).mpr h2, (by intro z hz hc; rw [← presentUnder_iff, h3 z hz] at hc; cases hc), hf⟩
  · rintro ⟨a, x, b, y, c, h1, h2, h3, hf⟩
    refine ⟨x, y, (filter_starts_with_two (fun x : Nat × Entry => presentUnder x.2 s n) x y es).mpr
      ⟨a, b, c, h1, (clashC1_iff ..).mp h2, fun z hz => ?_⟩, hf⟩
    have := h3 z hz; rw [← presentUnder_iff] at this; simpa using this

/-- C1 is passed. -/
theorem checkC1_none (segs t) : checkC1 segs t.entries = none ↔ PassesCheck segs t 1 := by
  change segs.findSome? (fun s => (List.range' 1 254).findSome? (clashAt t.entries s)) = none ↔ _
  rw [List.findSome?_eq_none_iff]
  simp only [findSome_range_none, clashAt_none, PassesCheck]
  exact ⟨fun h g hg n a b => h g hg n a (by omega), fun h g hg n a b => h g hg n a (by omega)⟩

/-- C1 fails, and what it names. -/
theorem checkC1_some (segs t f) : checkC1 segs t.entries = some f ↔ FailsFirst segs t f 1 := by
  change segs.findSome? (fun s => (List.range' 1 254).findSome? (clashAt t.entries s)) = some f ↔ _
  rw [List.findSome?_eq_some_iff]
  simp only [findSome_range_none, findSome_range_some, clashAt_none, clashAt_some, FailsFirst]
  constructor
  · rintro ⟨a, g, c, h1, ⟨n, h2, h3, ⟨fr, x, mid, y, bk, h4, h5, h6, h7⟩, h8⟩, h9⟩
    exact ⟨a, g, c, n, fr, x, mid, y, bk, h1, h2, by omega, fun h hh m m1 m2 => h9 h hh m m1 (by omega), h8, h4, h5, h6, h7⟩
  · rintro ⟨a, g, c, n, fr, x, mid, y, bk, h1, h2, h3, h9, h8, h4, h5, h6, h7⟩
    exact ⟨a, g, c, h1, ⟨n, h2, by omega, ⟨fr, x, mid, y, bk, h4, h5, h6, h7⟩, h8⟩, fun h hh m m1 m2 => h9 h hh m m1 (by omega)⟩

/-- No entry is bad. -/
theorem firstEntry_none (k bad) (Bad : Entry → Prop) (h : ∀ e, (e.state ≠ .retiring && bad e) = true ↔ Bad e) (es : Entries) :
    firstEntry k bad es = none ↔ ∀ x ∈ es, ¬ Bad x.2 := by
  simp only [firstEntry, Option.map_eq_none_iff, List.find?_eq_none, ← h]

/-- The first bad entry is named. -/
theorem firstEntry_some (k bad) (Bad : Entry → Prop) (h : ∀ e, (e.state ≠ .retiring && bad e) = true ↔ Bad e) (t : Plan) (f) :
    firstEntry k bad t.entries = some f ↔ FirstRefused Bad k t f := by
  simp only [firstEntry, Option.map_eq_some_iff, List.find?_eq_some_iff_append, FirstRefused, ← h]
  constructor
  · rintro ⟨x, ⟨h1, a, c, h2, h3⟩, rfl⟩
    exact ⟨a, x, c, h2, fun z hz => by have := h3 z hz; revert this; cases (decide (z.2.state ≠ .retiring) && bad z.2) <;> simp, h1, rfl⟩
  · rintro ⟨a, x, c, h2, h3, h1, rfl⟩
    exact ⟨x, ⟨h1, a, c, h2, fun z hz => by
      have := h3 z hz; revert this; cases (decide (z.2.state ≠ .retiring) && bad z.2) <;> simp⟩, rfl⟩

theorem portSet_isEmpty_iff (s : PortSet) : PortSet.isEmpty s = true ↔ s = PortSet.none := by
  constructor
  · intro h; simpa [PortSet.isEmpty] using h
  · rintro rfl; decide

theorem badC2_iff (e : Entry) : (e.state ≠ .retiring && (decide (e.visible.isSome = PortSet.isEmpty e.shown))) = true ↔ BadC2 e := by
  unfold BadC2
  have := portSet_isEmpty_iff e.shown
  cases h1 : e.visible.isSome <;> cases h2 : PortSet.isEmpty e.shown <;> simp_all

theorem badC3_iff (e : Entry) : (e.state ≠ .retiring && (match e.home with | .seg p _ => e.shown[p] | _ => false)) = true ↔ BadC3 e := by
  unfold BadC3
  cases h : e.home <;> simp

theorem badC7_iff (e : Entry) : (e.state ≠ .retiring && (decide (e.state ≠ .fixed) && decide (e.rights ≠ {}))) = true ↔ BadC7 e := by
  unfold BadC7; simp

/-- The relation by which C4 finds two entries. -/
def sharesHome : Entry → Entry → Bool := fun e f => match e.home, f.home with
    | .seg p m, .seg q n => p = q && m = n && e.state ≠ .retiring && f.state ≠ .retiring
    | .pair k _, .pair l _ => k = l
    | _, _ => false

theorem clashC4_iff (x y : Nat × Entry) : sharesHome x.2 y.2 = true ↔ ClashC4 x y := by
  unfold sharesHome ClashC4
  cases h1 : x.2.home <;> cases h2 : y.2.home <;> simp
  · constructor
    · rintro ⟨⟨⟨a, b⟩, c⟩, d⟩; exact ⟨⟨a.symm, b.symm⟩, c, d⟩
    · rintro ⟨⟨a, b⟩, c, d⟩; exact ⟨⟨⟨a.symm, b.symm⟩, c⟩, d⟩
  · exact eq_comm

/-- No two entries are related. -/
theorem firstPair_none (r) : ∀ es : Entries, firstPair r es = none ↔ es.Pairwise fun x y => ¬ (r x.2 y.2 = true)
  | [] => by simp [firstPair]
  | (m, e) :: rest => by
    rw [firstPair, List.pairwise_cons]
    split
    · next x h =>
      have := List.find?_some h
      simp only [reduceCtorEq, false_iff, not_and]
      intro h2; exact absurd this (h2 x (List.mem_of_find?_eq_some h))
    · next h => rw [firstPair_none r rest]; rw [List.find?_eq_none] at h
                exact ⟨fun k => ⟨fun y hy => by simpa using h y hy, k⟩, fun k => k.2⟩

/-- The first two related entries are named. -/
theorem firstPair_some (r : Entry → Entry → Bool) (p : Nat × Nat) : ∀ es : Entries, firstPair r es = some p ↔
    ∃ front x mid y back, es = front ++ x :: (mid ++ y :: back) ∧ r x.2 y.2 = true ∧ (∀ z ∈ mid, ¬ (r x.2 z.2 = true)) ∧
      (∀ a z c, front = a ++ z :: c → ∀ w ∈ c ++ x :: (mid ++ y :: back), ¬ (r z.2 w.2 = true)) ∧ p = (x.1, y.1)
  | [] => by simp [firstPair]
  | (m, e) :: rest => by
    rw [firstPair]
    split
    · next y h =>
      rw [List.find?_eq_some_iff_append] at h
      obtain ⟨hy, as, bs, hr, ha⟩ := h
      constructor
      · intro h2; cases h2
        exact ⟨[], (m, e), as, y, bs, by simp [hr], hy, fun z hz => by simpa using ha z hz, by simp, rfl⟩
      · rintro ⟨front, x, mid, y', back, h1, h2, h3, h4, rfl⟩
        cases front with
        | nil =>
          simp only [List.nil_append, List.cons.injEq] at h1
          obtain ⟨rfl, h1⟩ := h1
          have hf : rest.find? (fun x => r e x.2) = some y := by rw [List.find?_eq_some_iff_append]; exact ⟨hy, as, bs, hr, ha⟩
          have hg : rest.find? (fun x => r e x.2) = some y' := by
            rw [List.find?_eq_some_iff_append]; exact ⟨h2, mid, back, h1, fun z hz => by simpa using h3 z hz⟩
          rw [hf] at hg; cases hg; rfl
        | cons z c =>
          simp only [List.cons_append, List.cons.injEq] at h1
          obtain ⟨rfl, h1⟩ := h1
          exact absurd hy (h4 [] (m, e) c rfl y (by rw [← h1, hr]; simp))
    · next h =>
      rw [firstPair_some r p rest]
      rw [List.find?_eq_none] at h
      constructor
      · rintro ⟨front, x, mid, y, back, h1, h2, h3, h4, h5⟩
        refine ⟨(m, e) :: front, x, mid, y, back, by simp [h1], h2, h3, ?_, h5⟩
        intro a z c hz w hw
        cases a with
        | nil =>
          simp only [List.nil_append, List.cons.injEq] at hz
          obtain ⟨rfl, rfl⟩ := hz
          exact h w (by rw [h1]; exact hw)
        | cons z' a =>
          simp only [List.cons_append, List.cons.injEq] at hz
          exact h4 a z c hz.2 w hw
      · rintro ⟨front, x, mid, y, back, h1, h2, h3, h4, h5⟩
        cases front with
        | nil =>
          simp only [List.nil_append, List.cons.injEq] at h1
          obtain ⟨rfl, h1⟩ := h1
          exact absurd h2 (h y (by rw [h1]; simp))
        | cons z c =>
          simp only [List.cons_append, List.cons.injEq] at h1
          exact ⟨c, x, mid, y, back, h1.2, h2, h3, fun a z' c' hz w hw => h4 (z :: a) z' c' (by simp [hz]) w hw, h5⟩

theorem fixedPrinter_iff (t : Plan) (n) : fixedPrinter t.entries n = true ↔ PrinterAt t n := by
  simp [fixedPrinter, PrinterAt, Option.any_eq_true]

/-- The number for which a binding fails. -/
theorem badBinding_some (t : Plan) (b : Binding) (m) : badBinding t.entries b = some m ↔ BadNumber t b m := by
  unfold badBinding BadNumber
  simp only [← fixedPrinter_iff]
  cases hp : b.primary with
  | none => cases ha : b.alternate <;> simp
  | some p =>
    cases hq : fixedPrinter t.entries p with
    | false =>
      simp [hq]
      rintro rfl; exact hq
    | true =>
      cases ha : b.alternate with
      | none => simp [hq]; rintro rfl; exact hq
      | some a =>
        simp [hq]
        constructor
        · rintro ⟨h, rfl⟩; exact .inr ⟨rfl, h⟩
        · rintro (⟨rfl, h⟩ | ⟨rfl, h⟩)
          · rw [hq] at h; cases h
          · exact ⟨h, rfl⟩

/-- A binding without a bad number. -/
theorem badBinding_none (t : Plan) (b : Binding) : badBinding t.entries b = none ↔ ∀ m, ¬ BadNumber t b m := by
  simp only [← badBinding_some]
  cases badBinding t.entries b <;> simp

theorem badC5_iff (t : Plan) (n) : (look n t.entries).any badPrinter = true ↔ BadC5 t n := by
  simp [BadC5, Option.any_eq_true, badPrinter, Option.isSome_iff_ne_none, and_assoc]

/-- What C5 answers of one number. -/
def failAt (t : Plan) (n : Nat) : Option CheckFailure :=
    if (Machine.look n t.entries).any badPrinter then some { check := 5, first := n }
    else
      (Machine.lpOf n).bind fun l =>
        (badBinding t.entries t.bindings[l]).map fun m => { check := 5, first := n, second := m }

theorem lpOf_eq_some (n : Nat) (l : Lp) : lpOf n = some l ↔ n = l.val + 2 := by
  unfold lpOf
  split
  · next h => simp [Fin.ext_iff]; omega
  · next h => simp; omega

theorem failAt_none (t n) : failAt t n = none ↔ GoodC5 t n := by
  unfold failAt GoodC5
  by_cases h : BadC5 t n
  · simp [(badC5_iff t n).mpr h, h]
  · simp only [show (look n t.entries).any badPrinter = false by simpa using (badC5_iff t n).not.mpr h, h,
      Bool.false_eq_true, if_false, not_false_eq_true, true_and]
    simp only [← badBinding_none, ← lpOf_eq_some]
    cases hl : lpOf n <;> simp

theorem failAt_some (t n f) : failAt t n = some f ↔ ((BadC5 t n ∧ f = { check := 5, first := n }) ∨
       (¬ BadC5 t n ∧ ∃ (l : Lp) (m : DirNo), n = l.val + 2 ∧ BadNumber t t.bindings[l] m ∧
         f = { check := 5, first := n, second := m })) := by
  unfold failAt
  by_cases h : BadC5 t n
  · simp [(badC5_iff t n).mpr h, h, eq_comm]
  · simp only [show (look n t.entries).any badPrinter = false by simpa using (badC5_iff t n).not.mpr h, h,
      Bool.false_eq_true, if_false, not_false_eq_true, true_and, false_and, false_or]
    rw [Option.bind_eq_some_iff]
    simp only [← badBinding_some, ← lpOf_eq_some, Option.map_eq_some_iff]
    constructor
    · rintro ⟨l, h1, m, h2, h3⟩; exact ⟨l, m, h1, h2, h3.symm⟩
    · rintro ⟨l, m, h1, h2, h3⟩; exact ⟨l, h1, m, h2, h3.symm⟩

/-- What C6 demands under a number. -/
theorem reservedOk_iff (t n) (h1 : 1 ≤ n) : reservedOk n (look n t.entries) = true ↔ GoodC6 t n := by
  unfold reservedOk GoodC6
  by_cases e1 : n = 1
  · subst e1; simp [Option.any_eq_true, Option.isSome_iff_ne_none, and_assoc]
  · by_cases e2 : n ≤ 9
    · simp [e1, e2, show 2 ≤ n by omega, show ¬ 10 ≤ n by omega, Option.any_eq_true, and_assoc]
    · simp [e1, e2, show 10 ≤ n by omega, Option.all_eq_true]
      constructor
      · intro h e he hs; rcases h e he with h | h
        · exact absurd h hs
        · exact ⟨h.1.1, h.1.2, h.2⟩
      · intro h e he
        by_cases hs : e.state = .retiring
        · exact .inl hs
        · exact .inr ⟨⟨(h e he hs).1, (h e he hs).2.1⟩, (h e he hs).2.2⟩

/-- The first number of a range that passes a test. -/
theorem find_range_some (p : Nat → Bool) (b k a : Nat) :
    (List.range' a k).find? p = some b ↔ a ≤ b ∧ b < a + k ∧ p b = true ∧ ∀ m, a ≤ m → m < b → p m = false := by
  have : (List.range' a k).find? p = (List.range' a k).findSome? (fun n => if p n then some n else none) := by
    generalize List.range' a k = l
    induction l with
    | nil => rfl
    | cons x l ih => by_cases h : p x <;> simp [h, ih]
  rw [this, findSome_range_some]
  constructor
  · rintro ⟨n, h1, h2, h3, h4⟩
    split at h3
    · cases h3; exact ⟨h1, h2, ‹_›, fun m a1 a2 => by simpa using h4 m a1 a2⟩
    · cases h3
  · rintro ⟨h1, h2, h3, h4⟩
    exact ⟨b, h1, h2, by simp [h3], fun m a1 a2 => by simp [h4 m a1 a2]⟩

/-- The check of a number, C1 to C7. -/
def planCheck (segs : List Port) (t : Plan) : Nat → Option CheckFailure
  | 1 => checkC1 segs t.entries | 2 => checkC2 t.entries | 3 => checkC3 t.entries | 4 => checkC4 t.entries
  | 5 => checkC5 t | 6 => checkC6 t.entries | 7 => checkC7 t.entries | _ => none

/-- What passing a check says of the plan (R71). -/
theorem planCheck_none (segs t) : ∀ k, planCheck segs t k = none ↔ PassesCheck segs t k
  | 1 => checkC1_none segs t
  | 2 => firstEntry_none 2 _ BadC2 badC2_iff _
  | 3 => firstEntry_none 3 _ BadC3 badC3_iff _
  | 4 => by
    change ((firstPair sharesHome t.entries).map _) = none ↔ _
    rw [Option.map_eq_none_iff, firstPair_none]; simp only [clashC4_iff, PassesCheck]
  | 5 => by
    change (List.range' 1 384).findSome? (failAt t) = none ↔ _
    rw [findSome_range_none]; simp only [failAt_none, PassesCheck]
    exact ⟨fun h n a b => h n a (Nat.lt_succ_of_le b), fun h n a b => h n a (Nat.le_of_lt_succ b)⟩
  | 6 => by
    simp only [planCheck, checkC6, Option.map_eq_none_iff, List.find?_eq_none, PassesCheck, List.mem_range'_1]
    constructor
    · intro h n a b; rw [← reservedOk_iff t n a]; simpa using h n ⟨a, Nat.lt_succ_of_le b⟩
    · intro h n a; have := h n a.1 (Nat.le_of_lt_succ a.2); rw [← reservedOk_iff t n a.1] at this; simpa using this
  | 7 => firstEntry_none 7 _ BadC7 (fun e => badC7_iff e) _
  | 0 => by simp [planCheck, PassesCheck]
  | k + 8 => by simp [planCheck, PassesCheck]

/-- What the failure of a check names (R71). -/
theorem planCheck_some (segs t f) : ∀ k, planCheck segs t k = some f ↔ FailsFirst segs t f k
  | 1 => checkC1_some segs t f
  | 2 => firstEntry_some 2 _ BadC2 badC2_iff _ _
  | 3 => firstEntry_some 3 _ BadC3 badC3_iff _ _
  | 4 => by
    change ((firstPair sharesHome t.entries).map _) = some f ↔ _
    simp only [Option.map_eq_some_iff, firstPair_some, clashC4_iff, FailsFirst]
    constructor
    · rintro ⟨p, ⟨a, x, b, y, c, h1, h2, h3, h4, rfl⟩, rfl⟩; exact ⟨a, x, b, y, c, h1, h2, h3, h4, rfl⟩
    · rintro ⟨a, x, b, y, c, h1, h2, h3, h4, rfl⟩; exact ⟨_, ⟨a, x, b, y, c, h1, h2, h3, h4, rfl⟩, rfl⟩
  | 5 => by
    change (List.range' 1 384).findSome? (failAt t) = some f ↔ _
    rw [findSome_range_some]; simp only [failAt_none, failAt_some, FailsFirst]
    constructor
    · rintro ⟨n, h1, h2, h3, h4⟩; exact ⟨n, h1, Nat.le_of_lt_succ h2, h4, h3⟩
    · rintro ⟨n, h1, h2, h3, h4⟩; exact ⟨n, h1, Nat.lt_succ_of_le h2, h4, h3⟩
  | 6 => by
    simp only [planCheck, checkC6, Option.map_eq_some_iff, find_range_some, FailsFirst]
    constructor
    · rintro ⟨n, ⟨h1, h2, h3, h4⟩, rfl⟩
      refine ⟨n, h1, Nat.le_of_lt_succ h2, fun m a b => ?_, ?_, rfl⟩
      · rw [← reservedOk_iff t m a]; simpa using h4 m a b
      · rw [← reservedOk_iff t n h1]; simpa using h3
    · rintro ⟨n, h1, h2, h3, h4, rfl⟩
      refine ⟨n, ⟨h1, Nat.lt_succ_of_le h2, ?_, fun m a b => ?_⟩, rfl⟩
      · rw [← reservedOk_iff t n h1] at h4; simpa using h4
      · have := h3 m a b; rw [← reservedOk_iff t m a] at this; simpa using this
  | 7 => firstEntry_some 7 _ BadC7 (fun e => badC7_iff e) _ _
  | 0 => by simp [planCheck, FailsFirst]
  | k + 8 => by simp [planCheck, FailsFirst]

/-- The checks are made in their order. -/
theorem check_eq_planChecks (segs : List Port) (t : Plan) :
    Plan.check segs t = (planCheck segs t 1 <|> planCheck segs t 2 <|> planCheck segs t 3 <|> planCheck segs t 4
      <|> planCheck segs t 5 <|> planCheck segs t 6 <|> planCheck segs t 7) := rfl

/-- A failure names its check. -/
theorem check_of_failsFirst (segs t f k) : FailsFirst segs t f k → f.check = k := by
  intro h
  match k, h with
  | 1, ⟨_, _, _, _, _, _, _, _, _, _, _, _, _, _, _, _, _, h⟩ => rw [h]
  | 2, ⟨_, _, _, _, _, _, h⟩ => rw [h]
  | 3, ⟨_, _, _, _, _, _, h⟩ => rw [h]
  | 4, ⟨_, _, _, _, _, _, _, _, _, h⟩ => rw [h]
  | 5, ⟨_, _, _, _, h⟩ => rcases h with ⟨_, h⟩ | ⟨_, _, _, _, _, h⟩ <;> rw [h]
  | 6, ⟨_, _, _, _, _, h⟩ => rw [h]
  | 7, ⟨_, _, _, _, _, _, h⟩ => rw [h]

end Sys2Proof.Machine
end

