-- ==== Sys2Proof/Laws/State.lean ====
section
/-! SUPPORT. What each one-place update of the bridge does to each of its fields, each true by rfl, and the same for the one-place
updates built on them: ports, monitors, feed controllers, entries, records. No later proof unfolds a record update. -/

namespace Sys2Proof.Machine.Bridge
open Sys2Proof

/-! ## setCtl -/

@[simp] theorem ctl_setCtl (b : Bridge) (x : Control) : (b.setCtl x).ctl = x := rfl
@[simp] theorem settings_setCtl (b : Bridge) (x : Control) : (b.setCtl x).settings = b.settings := rfl
@[simp] theorem ports_setCtl (b : Bridge) (x : Control) : (b.setCtl x).ports = b.ports := rfl
@[simp] theorem feeds_setCtl (b : Bridge) (x : Control) : (b.setCtl x).feeds = b.feeds := rfl
@[simp] theorem repeats_setCtl (b : Bridge) (x : Control) : (b.setCtl x).repeats = b.repeats := rfl
@[simp] theorem refillDue_setCtl (b : Bridge) (x : Control) : (b.setCtl x).refillDue = b.refillDue := rfl
@[simp] theorem pair_setCtl (b : Bridge) (x : Control) : (b.setCtl x).pair = b.pair := rfl
@[simp] theorem dir_setCtl (b : Bridge) (x : Control) : (b.setCtl x).dir = b.dir := rfl
@[simp] theorem forwarding_setCtl (b : Bridge) (x : Control) : (b.setCtl x).forwarding = b.forwarding := rfl
@[simp] theorem exchanges_setCtl (b : Bridge) (x : Control) : (b.setCtl x).exchanges = b.exchanges := rfl
@[simp] theorem spool_setCtl (b : Bridge) (x : Control) : (b.setCtl x).spool = b.spool := rfl
@[simp] theorem delivery_setCtl (b : Bridge) (x : Control) : (b.setCtl x).delivery = b.delivery := rfl
@[simp] theorem reporting_setCtl (b : Bridge) (x : Control) : (b.setCtl x).reporting = b.reporting := rfl
@[simp] theorem agent_setCtl (b : Bridge) (x : Control) : (b.setCtl x).agent = b.agent := rfl
@[simp] theorem serial_setCtl (b : Bridge) (x : Control) : (b.setCtl x).serial = b.serial := rfl
@[simp] theorem drawCount_setCtl (b : Bridge) (x : Control) : (b.setCtl x).drawCount = b.drawCount := rfl

/-! ## setSettings -/

@[simp] theorem ctl_setSettings (b : Bridge) (x : Settings) : (b.setSettings x).ctl = b.ctl := rfl
@[simp] theorem settings_setSettings (b : Bridge) (x : Settings) : (b.setSettings x).settings = x := rfl
@[simp] theorem ports_setSettings (b : Bridge) (x : Settings) : (b.setSettings x).ports = b.ports := rfl
@[simp] theorem feeds_setSettings (b : Bridge) (x : Settings) : (b.setSettings x).feeds = b.feeds := rfl
@[simp] theorem repeats_setSettings (b : Bridge) (x : Settings) : (b.setSettings x).repeats = b.repeats := rfl
@[simp] theorem refillDue_setSettings (b : Bridge) (x : Settings) : (b.setSettings x).refillDue = b.refillDue := rfl
@[simp] theorem pair_setSettings (b : Bridge) (x : Settings) : (b.setSettings x).pair = b.pair := rfl
@[simp] theorem dir_setSettings (b : Bridge) (x : Settings) : (b.setSettings x).dir = b.dir := rfl
@[simp] theorem forwarding_setSettings (b : Bridge) (x : Settings) : (b.setSettings x).forwarding = b.forwarding := rfl
@[simp] theorem exchanges_setSettings (b : Bridge) (x : Settings) : (b.setSettings x).exchanges = b.exchanges := rfl
@[simp] theorem spool_setSettings (b : Bridge) (x : Settings) : (b.setSettings x).spool = b.spool := rfl
@[simp] theorem delivery_setSettings (b : Bridge) (x : Settings) : (b.setSettings x).delivery = b.delivery := rfl
@[simp] theorem reporting_setSettings (b : Bridge) (x : Settings) : (b.setSettings x).reporting = b.reporting := rfl
@[simp] theorem agent_setSettings (b : Bridge) (x : Settings) : (b.setSettings x).agent = b.agent := rfl
@[simp] theorem serial_setSettings (b : Bridge) (x : Settings) : (b.setSettings x).serial = b.serial := rfl
@[simp] theorem drawCount_setSettings (b : Bridge) (x : Settings) : (b.setSettings x).drawCount = b.drawCount := rfl

/-! ## setPorts -/

@[simp] theorem ctl_setPorts (b : Bridge) (x : Vector PortState 4) : (b.setPorts x).ctl = b.ctl := rfl
@[simp] theorem settings_setPorts (b : Bridge) (x : Vector PortState 4) : (b.setPorts x).settings = b.settings := rfl
@[simp] theorem ports_setPorts (b : Bridge) (x : Vector PortState 4) : (b.setPorts x).ports = x := rfl
@[simp] theorem feeds_setPorts (b : Bridge) (x : Vector PortState 4) : (b.setPorts x).feeds = b.feeds := rfl
@[simp] theorem repeats_setPorts (b : Bridge) (x : Vector PortState 4) : (b.setPorts x).repeats = b.repeats := rfl
@[simp] theorem refillDue_setPorts (b : Bridge) (x : Vector PortState 4) : (b.setPorts x).refillDue = b.refillDue := rfl
@[simp] theorem pair_setPorts (b : Bridge) (x : Vector PortState 4) : (b.setPorts x).pair = b.pair := rfl
@[simp] theorem dir_setPorts (b : Bridge) (x : Vector PortState 4) : (b.setPorts x).dir = b.dir := rfl
@[simp] theorem forwarding_setPorts (b : Bridge) (x : Vector PortState 4) : (b.setPorts x).forwarding = b.forwarding := rfl
@[simp] theorem exchanges_setPorts (b : Bridge) (x : Vector PortState 4) : (b.setPorts x).exchanges = b.exchanges := rfl
@[simp] theorem spool_setPorts (b : Bridge) (x : Vector PortState 4) : (b.setPorts x).spool = b.spool := rfl
@[simp] theorem delivery_setPorts (b : Bridge) (x : Vector PortState 4) : (b.setPorts x).delivery = b.delivery := rfl
@[simp] theorem reporting_setPorts (b : Bridge) (x : Vector PortState 4) : (b.setPorts x).reporting = b.reporting := rfl
@[simp] theorem agent_setPorts (b : Bridge) (x : Vector PortState 4) : (b.setPorts x).agent = b.agent := rfl
@[simp] theorem serial_setPorts (b : Bridge) (x : Vector PortState 4) : (b.setPorts x).serial = b.serial := rfl
@[simp] theorem drawCount_setPorts (b : Bridge) (x : Vector PortState 4) : (b.setPorts x).drawCount = b.drawCount := rfl

/-! ## setFeeds -/

@[simp] theorem ctl_setFeeds (b : Bridge) (x : Vector Feed 2) : (b.setFeeds x).ctl = b.ctl := rfl
@[simp] theorem settings_setFeeds (b : Bridge) (x : Vector Feed 2) : (b.setFeeds x).settings = b.settings := rfl
@[simp] theorem ports_setFeeds (b : Bridge) (x : Vector Feed 2) : (b.setFeeds x).ports = b.ports := rfl
@[simp] theorem feeds_setFeeds (b : Bridge) (x : Vector Feed 2) : (b.setFeeds x).feeds = x := rfl
@[simp] theorem repeats_setFeeds (b : Bridge) (x : Vector Feed 2) : (b.setFeeds x).repeats = b.repeats := rfl
@[simp] theorem refillDue_setFeeds (b : Bridge) (x : Vector Feed 2) : (b.setFeeds x).refillDue = b.refillDue := rfl
@[simp] theorem pair_setFeeds (b : Bridge) (x : Vector Feed 2) : (b.setFeeds x).pair = b.pair := rfl
@[simp] theorem dir_setFeeds (b : Bridge) (x : Vector Feed 2) : (b.setFeeds x).dir = b.dir := rfl
@[simp] theorem forwarding_setFeeds (b : Bridge) (x : Vector Feed 2) : (b.setFeeds x).forwarding = b.forwarding := rfl
@[simp] theorem exchanges_setFeeds (b : Bridge) (x : Vector Feed 2) : (b.setFeeds x).exchanges = b.exchanges := rfl
@[simp] theorem spool_setFeeds (b : Bridge) (x : Vector Feed 2) : (b.setFeeds x).spool = b.spool := rfl
@[simp] theorem delivery_setFeeds (b : Bridge) (x : Vector Feed 2) : (b.setFeeds x).delivery = b.delivery := rfl
@[simp] theorem reporting_setFeeds (b : Bridge) (x : Vector Feed 2) : (b.setFeeds x).reporting = b.reporting := rfl
@[simp] theorem agent_setFeeds (b : Bridge) (x : Vector Feed 2) : (b.setFeeds x).agent = b.agent := rfl
@[simp] theorem serial_setFeeds (b : Bridge) (x : Vector Feed 2) : (b.setFeeds x).serial = b.serial := rfl
@[simp] theorem drawCount_setFeeds (b : Bridge) (x : Vector Feed 2) : (b.setFeeds x).drawCount = b.drawCount := rfl

/-! ## setRepeats -/

@[simp] theorem ctl_setRepeats (b : Bridge) (x : List Repeat) : (b.setRepeats x).ctl = b.ctl := rfl
@[simp] theorem settings_setRepeats (b : Bridge) (x : List Repeat) : (b.setRepeats x).settings = b.settings := rfl
@[simp] theorem ports_setRepeats (b : Bridge) (x : List Repeat) : (b.setRepeats x).ports = b.ports := rfl
@[simp] theorem feeds_setRepeats (b : Bridge) (x : List Repeat) : (b.setRepeats x).feeds = b.feeds := rfl
@[simp] theorem repeats_setRepeats (b : Bridge) (x : List Repeat) : (b.setRepeats x).repeats = x := rfl
@[simp] theorem refillDue_setRepeats (b : Bridge) (x : List Repeat) : (b.setRepeats x).refillDue = b.refillDue := rfl
@[simp] theorem pair_setRepeats (b : Bridge) (x : List Repeat) : (b.setRepeats x).pair = b.pair := rfl
@[simp] theorem dir_setRepeats (b : Bridge) (x : List Repeat) : (b.setRepeats x).dir = b.dir := rfl
@[simp] theorem forwarding_setRepeats (b : Bridge) (x : List Repeat) : (b.setRepeats x).forwarding = b.forwarding := rfl
@[simp] theorem exchanges_setRepeats (b : Bridge) (x : List Repeat) : (b.setRepeats x).exchanges = b.exchanges := rfl
@[simp] theorem spool_setRepeats (b : Bridge) (x : List Repeat) : (b.setRepeats x).spool = b.spool := rfl
@[simp] theorem delivery_setRepeats (b : Bridge) (x : List Repeat) : (b.setRepeats x).delivery = b.delivery := rfl
@[simp] theorem reporting_setRepeats (b : Bridge) (x : List Repeat) : (b.setRepeats x).reporting = b.reporting := rfl
@[simp] theorem agent_setRepeats (b : Bridge) (x : List Repeat) : (b.setRepeats x).agent = b.agent := rfl
@[simp] theorem serial_setRepeats (b : Bridge) (x : List Repeat) : (b.setRepeats x).serial = b.serial := rfl
@[simp] theorem drawCount_setRepeats (b : Bridge) (x : List Repeat) : (b.setRepeats x).drawCount = b.drawCount := rfl

/-! ## setRefillDue -/

@[simp] theorem ctl_setRefillDue (b : Bridge) (x : Time) : (b.setRefillDue x).ctl = b.ctl := rfl
@[simp] theorem settings_setRefillDue (b : Bridge) (x : Time) : (b.setRefillDue x).settings = b.settings := rfl
@[simp] theorem ports_setRefillDue (b : Bridge) (x : Time) : (b.setRefillDue x).ports = b.ports := rfl
@[simp] theorem feeds_setRefillDue (b : Bridge) (x : Time) : (b.setRefillDue x).feeds = b.feeds := rfl
@[simp] theorem repeats_setRefillDue (b : Bridge) (x : Time) : (b.setRefillDue x).repeats = b.repeats := rfl
@[simp] theorem refillDue_setRefillDue (b : Bridge) (x : Time) : (b.setRefillDue x).refillDue = x := rfl
@[simp] theorem pair_setRefillDue (b : Bridge) (x : Time) : (b.setRefillDue x).pair = b.pair := rfl
@[simp] theorem dir_setRefillDue (b : Bridge) (x : Time) : (b.setRefillDue x).dir = b.dir := rfl
@[simp] theorem forwarding_setRefillDue (b : Bridge) (x : Time) : (b.setRefillDue x).forwarding = b.forwarding := rfl
@[simp] theorem exchanges_setRefillDue (b : Bridge) (x : Time) : (b.setRefillDue x).exchanges = b.exchanges := rfl
@[simp] theorem spool_setRefillDue (b : Bridge) (x : Time) : (b.setRefillDue x).spool = b.spool := rfl
@[simp] theorem delivery_setRefillDue (b : Bridge) (x : Time) : (b.setRefillDue x).delivery = b.delivery := rfl
@[simp] theorem reporting_setRefillDue (b : Bridge) (x : Time) : (b.setRefillDue x).reporting = b.reporting := rfl
@[simp] theorem agent_setRefillDue (b : Bridge) (x : Time) : (b.setRefillDue x).agent = b.agent := rfl
@[simp] theorem serial_setRefillDue (b : Bridge) (x : Time) : (b.setRefillDue x).serial = b.serial := rfl
@[simp] theorem drawCount_setRefillDue (b : Bridge) (x : Time) : (b.setRefillDue x).drawCount = b.drawCount := rfl

/-! ## setPair -/

@[simp] theorem ctl_setPair (b : Bridge) (x : PairPort) : (b.setPair x).ctl = b.ctl := rfl
@[simp] theorem settings_setPair (b : Bridge) (x : PairPort) : (b.setPair x).settings = b.settings := rfl
@[simp] theorem ports_setPair (b : Bridge) (x : PairPort) : (b.setPair x).ports = b.ports := rfl
@[simp] theorem feeds_setPair (b : Bridge) (x : PairPort) : (b.setPair x).feeds = b.feeds := rfl
@[simp] theorem repeats_setPair (b : Bridge) (x : PairPort) : (b.setPair x).repeats = b.repeats := rfl
@[simp] theorem refillDue_setPair (b : Bridge) (x : PairPort) : (b.setPair x).refillDue = b.refillDue := rfl
@[simp] theorem pair_setPair (b : Bridge) (x : PairPort) : (b.setPair x).pair = x := rfl
@[simp] theorem dir_setPair (b : Bridge) (x : PairPort) : (b.setPair x).dir = b.dir := rfl
@[simp] theorem forwarding_setPair (b : Bridge) (x : PairPort) : (b.setPair x).forwarding = b.forwarding := rfl
@[simp] theorem exchanges_setPair (b : Bridge) (x : PairPort) : (b.setPair x).exchanges = b.exchanges := rfl
@[simp] theorem spool_setPair (b : Bridge) (x : PairPort) : (b.setPair x).spool = b.spool := rfl
@[simp] theorem delivery_setPair (b : Bridge) (x : PairPort) : (b.setPair x).delivery = b.delivery := rfl
@[simp] theorem reporting_setPair (b : Bridge) (x : PairPort) : (b.setPair x).reporting = b.reporting := rfl
@[simp] theorem agent_setPair (b : Bridge) (x : PairPort) : (b.setPair x).agent = b.agent := rfl
@[simp] theorem serial_setPair (b : Bridge) (x : PairPort) : (b.setPair x).serial = b.serial := rfl
@[simp] theorem drawCount_setPair (b : Bridge) (x : PairPort) : (b.setPair x).drawCount = b.drawCount := rfl

/-! ## setDir -/

@[simp] theorem ctl_setDir (b : Bridge) (x : Directory) : (b.setDir x).ctl = b.ctl := rfl
@[simp] theorem settings_setDir (b : Bridge) (x : Directory) : (b.setDir x).settings = b.settings := rfl
@[simp] theorem ports_setDir (b : Bridge) (x : Directory) : (b.setDir x).ports = b.ports := rfl
@[simp] theorem feeds_setDir (b : Bridge) (x : Directory) : (b.setDir x).feeds = b.feeds := rfl
@[simp] theorem repeats_setDir (b : Bridge) (x : Directory) : (b.setDir x).repeats = b.repeats := rfl
@[simp] theorem refillDue_setDir (b : Bridge) (x : Directory) : (b.setDir x).refillDue = b.refillDue := rfl
@[simp] theorem pair_setDir (b : Bridge) (x : Directory) : (b.setDir x).pair = b.pair := rfl
@[simp] theorem dir_setDir (b : Bridge) (x : Directory) : (b.setDir x).dir = x := rfl
@[simp] theorem forwarding_setDir (b : Bridge) (x : Directory) : (b.setDir x).forwarding = b.forwarding := rfl
@[simp] theorem exchanges_setDir (b : Bridge) (x : Directory) : (b.setDir x).exchanges = b.exchanges := rfl
@[simp] theorem spool_setDir (b : Bridge) (x : Directory) : (b.setDir x).spool = b.spool := rfl
@[simp] theorem delivery_setDir (b : Bridge) (x : Directory) : (b.setDir x).delivery = b.delivery := rfl
@[simp] theorem reporting_setDir (b : Bridge) (x : Directory) : (b.setDir x).reporting = b.reporting := rfl
@[simp] theorem agent_setDir (b : Bridge) (x : Directory) : (b.setDir x).agent = b.agent := rfl
@[simp] theorem serial_setDir (b : Bridge) (x : Directory) : (b.setDir x).serial = b.serial := rfl
@[simp] theorem drawCount_setDir (b : Bridge) (x : Directory) : (b.setDir x).drawCount = b.drawCount := rfl

/-! ## setForwarding -/

@[simp] theorem ctl_setForwarding (b : Bridge) (x : Counters) : (b.setForwarding x).ctl = b.ctl := rfl
@[simp] theorem settings_setForwarding (b : Bridge) (x : Counters) : (b.setForwarding x).settings = b.settings := rfl
@[simp] theorem ports_setForwarding (b : Bridge) (x : Counters) : (b.setForwarding x).ports = b.ports := rfl
@[simp] theorem feeds_setForwarding (b : Bridge) (x : Counters) : (b.setForwarding x).feeds = b.feeds := rfl
@[simp] theorem repeats_setForwarding (b : Bridge) (x : Counters) : (b.setForwarding x).repeats = b.repeats := rfl
@[simp] theorem refillDue_setForwarding (b : Bridge) (x : Counters) : (b.setForwarding x).refillDue = b.refillDue := rfl
@[simp] theorem pair_setForwarding (b : Bridge) (x : Counters) : (b.setForwarding x).pair = b.pair := rfl
@[simp] theorem dir_setForwarding (b : Bridge) (x : Counters) : (b.setForwarding x).dir = b.dir := rfl
@[simp] theorem forwarding_setForwarding (b : Bridge) (x : Counters) : (b.setForwarding x).forwarding = x := rfl
@[simp] theorem exchanges_setForwarding (b : Bridge) (x : Counters) : (b.setForwarding x).exchanges = b.exchanges := rfl
@[simp] theorem spool_setForwarding (b : Bridge) (x : Counters) : (b.setForwarding x).spool = b.spool := rfl
@[simp] theorem delivery_setForwarding (b : Bridge) (x : Counters) : (b.setForwarding x).delivery = b.delivery := rfl
@[simp] theorem reporting_setForwarding (b : Bridge) (x : Counters) : (b.setForwarding x).reporting = b.reporting := rfl
@[simp] theorem agent_setForwarding (b : Bridge) (x : Counters) : (b.setForwarding x).agent = b.agent := rfl
@[simp] theorem serial_setForwarding (b : Bridge) (x : Counters) : (b.setForwarding x).serial = b.serial := rfl
@[simp] theorem drawCount_setForwarding (b : Bridge) (x : Counters) : (b.setForwarding x).drawCount = b.drawCount := rfl

/-! ## setExchanges -/

@[simp] theorem ctl_setExchanges (b : Bridge) (x : List (Nat × Exchange)) : (b.setExchanges x).ctl = b.ctl := rfl
@[simp] theorem settings_setExchanges (b : Bridge) (x : List (Nat × Exchange)) : (b.setExchanges x).settings = b.settings := rfl
@[simp] theorem ports_setExchanges (b : Bridge) (x : List (Nat × Exchange)) : (b.setExchanges x).ports = b.ports := rfl
@[simp] theorem feeds_setExchanges (b : Bridge) (x : List (Nat × Exchange)) : (b.setExchanges x).feeds = b.feeds := rfl
@[simp] theorem repeats_setExchanges (b : Bridge) (x : List (Nat × Exchange)) : (b.setExchanges x).repeats = b.repeats := rfl
@[simp] theorem refillDue_setExchanges (b : Bridge) (x : List (Nat × Exchange)) : (b.setExchanges x).refillDue = b.refillDue := rfl
@[simp] theorem pair_setExchanges (b : Bridge) (x : List (Nat × Exchange)) : (b.setExchanges x).pair = b.pair := rfl
@[simp] theorem dir_setExchanges (b : Bridge) (x : List (Nat × Exchange)) : (b.setExchanges x).dir = b.dir := rfl
@[simp] theorem forwarding_setExchanges (b : Bridge) (x : List (Nat × Exchange)) : (b.setExchanges x).forwarding = b.forwarding := rfl
@[simp] theorem exchanges_setExchanges (b : Bridge) (x : List (Nat × Exchange)) : (b.setExchanges x).exchanges = x := rfl
@[simp] theorem spool_setExchanges (b : Bridge) (x : List (Nat × Exchange)) : (b.setExchanges x).spool = b.spool := rfl
@[simp] theorem delivery_setExchanges (b : Bridge) (x : List (Nat × Exchange)) : (b.setExchanges x).delivery = b.delivery := rfl
@[simp] theorem reporting_setExchanges (b : Bridge) (x : List (Nat × Exchange)) : (b.setExchanges x).reporting = b.reporting := rfl
@[simp] theorem agent_setExchanges (b : Bridge) (x : List (Nat × Exchange)) : (b.setExchanges x).agent = b.agent := rfl
@[simp] theorem serial_setExchanges (b : Bridge) (x : List (Nat × Exchange)) : (b.setExchanges x).serial = b.serial := rfl
@[simp] theorem drawCount_setExchanges (b : Bridge) (x : List (Nat × Exchange)) : (b.setExchanges x).drawCount = b.drawCount := rfl

/-! ## setSpool -/

@[simp] theorem ctl_setSpool (b : Bridge) (x : Spool) : (b.setSpool x).ctl = b.ctl := rfl
@[simp] theorem settings_setSpool (b : Bridge) (x : Spool) : (b.setSpool x).settings = b.settings := rfl
@[simp] theorem ports_setSpool (b : Bridge) (x : Spool) : (b.setSpool x).ports = b.ports := rfl
@[simp] theorem feeds_setSpool (b : Bridge) (x : Spool) : (b.setSpool x).feeds = b.feeds := rfl
@[simp] theorem repeats_setSpool (b : Bridge) (x : Spool) : (b.setSpool x).repeats = b.repeats := rfl
@[simp] theorem refillDue_setSpool (b : Bridge) (x : Spool) : (b.setSpool x).refillDue = b.refillDue := rfl
@[simp] theorem pair_setSpool (b : Bridge) (x : Spool) : (b.setSpool x).pair = b.pair := rfl
@[simp] theorem dir_setSpool (b : Bridge) (x : Spool) : (b.setSpool x).dir = b.dir := rfl
@[simp] theorem forwarding_setSpool (b : Bridge) (x : Spool) : (b.setSpool x).forwarding = b.forwarding := rfl
@[simp] theorem exchanges_setSpool (b : Bridge) (x : Spool) : (b.setSpool x).exchanges = b.exchanges := rfl
@[simp] theorem spool_setSpool (b : Bridge) (x : Spool) : (b.setSpool x).spool = x := rfl
@[simp] theorem delivery_setSpool (b : Bridge) (x : Spool) : (b.setSpool x).delivery = b.delivery := rfl
@[simp] theorem reporting_setSpool (b : Bridge) (x : Spool) : (b.setSpool x).reporting = b.reporting := rfl
@[simp] theorem agent_setSpool (b : Bridge) (x : Spool) : (b.setSpool x).agent = b.agent := rfl
@[simp] theorem serial_setSpool (b : Bridge) (x : Spool) : (b.setSpool x).serial = b.serial := rfl
@[simp] theorem drawCount_setSpool (b : Bridge) (x : Spool) : (b.setSpool x).drawCount = b.drawCount := rfl

/-! ## setDelivery -/

@[simp] theorem ctl_setDelivery (b : Bridge) (x : DeliveryUnit) : (b.setDelivery x).ctl = b.ctl := rfl
@[simp] theorem settings_setDelivery (b : Bridge) (x : DeliveryUnit) : (b.setDelivery x).settings = b.settings := rfl
@[simp] theorem ports_setDelivery (b : Bridge) (x : DeliveryUnit) : (b.setDelivery x).ports = b.ports := rfl
@[simp] theorem feeds_setDelivery (b : Bridge) (x : DeliveryUnit) : (b.setDelivery x).feeds = b.feeds := rfl
@[simp] theorem repeats_setDelivery (b : Bridge) (x : DeliveryUnit) : (b.setDelivery x).repeats = b.repeats := rfl
@[simp] theorem refillDue_setDelivery (b : Bridge) (x : DeliveryUnit) : (b.setDelivery x).refillDue = b.refillDue := rfl
@[simp] theorem pair_setDelivery (b : Bridge) (x : DeliveryUnit) : (b.setDelivery x).pair = b.pair := rfl
@[simp] theorem dir_setDelivery (b : Bridge) (x : DeliveryUnit) : (b.setDelivery x).dir = b.dir := rfl
@[simp] theorem forwarding_setDelivery (b : Bridge) (x : DeliveryUnit) : (b.setDelivery x).forwarding = b.forwarding := rfl
@[simp] theorem exchanges_setDelivery (b : Bridge) (x : DeliveryUnit) : (b.setDelivery x).exchanges = b.exchanges := rfl
@[simp] theorem spool_setDelivery (b : Bridge) (x : DeliveryUnit) : (b.setDelivery x).spool = b.spool := rfl
@[simp] theorem delivery_setDelivery (b : Bridge) (x : DeliveryUnit) : (b.setDelivery x).delivery = x := rfl
@[simp] theorem reporting_setDelivery (b : Bridge) (x : DeliveryUnit) : (b.setDelivery x).reporting = b.reporting := rfl
@[simp] theorem agent_setDelivery (b : Bridge) (x : DeliveryUnit) : (b.setDelivery x).agent = b.agent := rfl
@[simp] theorem serial_setDelivery (b : Bridge) (x : DeliveryUnit) : (b.setDelivery x).serial = b.serial := rfl
@[simp] theorem drawCount_setDelivery (b : Bridge) (x : DeliveryUnit) : (b.setDelivery x).drawCount = b.drawCount := rfl

/-! ## setReporting -/

@[simp] theorem ctl_setReporting (b : Bridge) (x : Reporting) : (b.setReporting x).ctl = b.ctl := rfl
@[simp] theorem settings_setReporting (b : Bridge) (x : Reporting) : (b.setReporting x).settings = b.settings := rfl
@[simp] theorem ports_setReporting (b : Bridge) (x : Reporting) : (b.setReporting x).ports = b.ports := rfl
@[simp] theorem feeds_setReporting (b : Bridge) (x : Reporting) : (b.setReporting x).feeds = b.feeds := rfl
@[simp] theorem repeats_setReporting (b : Bridge) (x : Reporting) : (b.setReporting x).repeats = b.repeats := rfl
@[simp] theorem refillDue_setReporting (b : Bridge) (x : Reporting) : (b.setReporting x).refillDue = b.refillDue := rfl
@[simp] theorem pair_setReporting (b : Bridge) (x : Reporting) : (b.setReporting x).pair = b.pair := rfl
@[simp] theorem dir_setReporting (b : Bridge) (x : Reporting) : (b.setReporting x).dir = b.dir := rfl
@[simp] theorem forwarding_setReporting (b : Bridge) (x : Reporting) : (b.setReporting x).forwarding = b.forwarding := rfl
@[simp] theorem exchanges_setReporting (b : Bridge) (x : Reporting) : (b.setReporting x).exchanges = b.exchanges := rfl
@[simp] theorem spool_setReporting (b : Bridge) (x : Reporting) : (b.setReporting x).spool = b.spool := rfl
@[simp] theorem delivery_setReporting (b : Bridge) (x : Reporting) : (b.setReporting x).delivery = b.delivery := rfl
@[simp] theorem reporting_setReporting (b : Bridge) (x : Reporting) : (b.setReporting x).reporting = x := rfl
@[simp] theorem agent_setReporting (b : Bridge) (x : Reporting) : (b.setReporting x).agent = b.agent := rfl
@[simp] theorem serial_setReporting (b : Bridge) (x : Reporting) : (b.setReporting x).serial = b.serial := rfl
@[simp] theorem drawCount_setReporting (b : Bridge) (x : Reporting) : (b.setReporting x).drawCount = b.drawCount := rfl

/-! ## setAgent -/

@[simp] theorem ctl_setAgent (b : Bridge) (x : Agent) : (b.setAgent x).ctl = b.ctl := rfl
@[simp] theorem settings_setAgent (b : Bridge) (x : Agent) : (b.setAgent x).settings = b.settings := rfl
@[simp] theorem ports_setAgent (b : Bridge) (x : Agent) : (b.setAgent x).ports = b.ports := rfl
@[simp] theorem feeds_setAgent (b : Bridge) (x : Agent) : (b.setAgent x).feeds = b.feeds := rfl
@[simp] theorem repeats_setAgent (b : Bridge) (x : Agent) : (b.setAgent x).repeats = b.repeats := rfl
@[simp] theorem refillDue_setAgent (b : Bridge) (x : Agent) : (b.setAgent x).refillDue = b.refillDue := rfl
@[simp] theorem pair_setAgent (b : Bridge) (x : Agent) : (b.setAgent x).pair = b.pair := rfl
@[simp] theorem dir_setAgent (b : Bridge) (x : Agent) : (b.setAgent x).dir = b.dir := rfl
@[simp] theorem forwarding_setAgent (b : Bridge) (x : Agent) : (b.setAgent x).forwarding = b.forwarding := rfl
@[simp] theorem exchanges_setAgent (b : Bridge) (x : Agent) : (b.setAgent x).exchanges = b.exchanges := rfl
@[simp] theorem spool_setAgent (b : Bridge) (x : Agent) : (b.setAgent x).spool = b.spool := rfl
@[simp] theorem delivery_setAgent (b : Bridge) (x : Agent) : (b.setAgent x).delivery = b.delivery := rfl
@[simp] theorem reporting_setAgent (b : Bridge) (x : Agent) : (b.setAgent x).reporting = b.reporting := rfl
@[simp] theorem agent_setAgent (b : Bridge) (x : Agent) : (b.setAgent x).agent = x := rfl
@[simp] theorem serial_setAgent (b : Bridge) (x : Agent) : (b.setAgent x).serial = b.serial := rfl
@[simp] theorem drawCount_setAgent (b : Bridge) (x : Agent) : (b.setAgent x).drawCount = b.drawCount := rfl

/-! ## setSerial -/

@[simp] theorem ctl_setSerial (b : Bridge) (x : Nat) : (b.setSerial x).ctl = b.ctl := rfl
@[simp] theorem settings_setSerial (b : Bridge) (x : Nat) : (b.setSerial x).settings = b.settings := rfl
@[simp] theorem ports_setSerial (b : Bridge) (x : Nat) : (b.setSerial x).ports = b.ports := rfl
@[simp] theorem feeds_setSerial (b : Bridge) (x : Nat) : (b.setSerial x).feeds = b.feeds := rfl
@[simp] theorem repeats_setSerial (b : Bridge) (x : Nat) : (b.setSerial x).repeats = b.repeats := rfl
@[simp] theorem refillDue_setSerial (b : Bridge) (x : Nat) : (b.setSerial x).refillDue = b.refillDue := rfl
@[simp] theorem pair_setSerial (b : Bridge) (x : Nat) : (b.setSerial x).pair = b.pair := rfl
@[simp] theorem dir_setSerial (b : Bridge) (x : Nat) : (b.setSerial x).dir = b.dir := rfl
@[simp] theorem forwarding_setSerial (b : Bridge) (x : Nat) : (b.setSerial x).forwarding = b.forwarding := rfl
@[simp] theorem exchanges_setSerial (b : Bridge) (x : Nat) : (b.setSerial x).exchanges = b.exchanges := rfl
@[simp] theorem spool_setSerial (b : Bridge) (x : Nat) : (b.setSerial x).spool = b.spool := rfl
@[simp] theorem delivery_setSerial (b : Bridge) (x : Nat) : (b.setSerial x).delivery = b.delivery := rfl
@[simp] theorem reporting_setSerial (b : Bridge) (x : Nat) : (b.setSerial x).reporting = b.reporting := rfl
@[simp] theorem agent_setSerial (b : Bridge) (x : Nat) : (b.setSerial x).agent = b.agent := rfl
@[simp] theorem serial_setSerial (b : Bridge) (x : Nat) : (b.setSerial x).serial = x := rfl
@[simp] theorem drawCount_setSerial (b : Bridge) (x : Nat) : (b.setSerial x).drawCount = b.drawCount := rfl

/-! ## setDrawCount -/

@[simp] theorem ctl_setDrawCount (b : Bridge) (x : Nat) : (b.setDrawCount x).ctl = b.ctl := rfl
@[simp] theorem settings_setDrawCount (b : Bridge) (x : Nat) : (b.setDrawCount x).settings = b.settings := rfl
@[simp] theorem ports_setDrawCount (b : Bridge) (x : Nat) : (b.setDrawCount x).ports = b.ports := rfl
@[simp] theorem feeds_setDrawCount (b : Bridge) (x : Nat) : (b.setDrawCount x).feeds = b.feeds := rfl
@[simp] theorem repeats_setDrawCount (b : Bridge) (x : Nat) : (b.setDrawCount x).repeats = b.repeats := rfl
@[simp] theorem refillDue_setDrawCount (b : Bridge) (x : Nat) : (b.setDrawCount x).refillDue = b.refillDue := rfl
@[simp] theorem pair_setDrawCount (b : Bridge) (x : Nat) : (b.setDrawCount x).pair = b.pair := rfl
@[simp] theorem dir_setDrawCount (b : Bridge) (x : Nat) : (b.setDrawCount x).dir = b.dir := rfl
@[simp] theorem forwarding_setDrawCount (b : Bridge) (x : Nat) : (b.setDrawCount x).forwarding = b.forwarding := rfl
@[simp] theorem exchanges_setDrawCount (b : Bridge) (x : Nat) : (b.setDrawCount x).exchanges = b.exchanges := rfl
@[simp] theorem spool_setDrawCount (b : Bridge) (x : Nat) : (b.setDrawCount x).spool = b.spool := rfl
@[simp] theorem delivery_setDrawCount (b : Bridge) (x : Nat) : (b.setDrawCount x).delivery = b.delivery := rfl
@[simp] theorem reporting_setDrawCount (b : Bridge) (x : Nat) : (b.setDrawCount x).reporting = b.reporting := rfl
@[simp] theorem agent_setDrawCount (b : Bridge) (x : Nat) : (b.setDrawCount x).agent = b.agent := rfl
@[simp] theorem serial_setDrawCount (b : Bridge) (x : Nat) : (b.setDrawCount x).serial = b.serial := rfl
@[simp] theorem drawCount_setDrawCount (b : Bridge) (x : Nat) : (b.setDrawCount x).drawCount = x := rfl

/-! ## modPair -/

@[simp] theorem ctl_modPair (b : Bridge) (f : PairPort → PairPort) : (b.modPair f).ctl = b.ctl := rfl
@[simp] theorem settings_modPair (b : Bridge) (f : PairPort → PairPort) : (b.modPair f).settings = b.settings := rfl
@[simp] theorem ports_modPair (b : Bridge) (f : PairPort → PairPort) : (b.modPair f).ports = b.ports := rfl
@[simp] theorem feeds_modPair (b : Bridge) (f : PairPort → PairPort) : (b.modPair f).feeds = b.feeds := rfl
@[simp] theorem repeats_modPair (b : Bridge) (f : PairPort → PairPort) : (b.modPair f).repeats = b.repeats := rfl
@[simp] theorem refillDue_modPair (b : Bridge) (f : PairPort → PairPort) : (b.modPair f).refillDue = b.refillDue := rfl
@[simp] theorem pair_modPair (b : Bridge) (f : PairPort → PairPort) : (b.modPair f).pair = f b.pair := rfl
@[simp] theorem dir_modPair (b : Bridge) (f : PairPort → PairPort) : (b.modPair f).dir = b.dir := rfl
@[simp] theorem forwarding_modPair (b : Bridge) (f : PairPort → PairPort) : (b.modPair f).forwarding = b.forwarding := rfl
@[simp] theorem exchanges_modPair (b : Bridge) (f : PairPort → PairPort) : (b.modPair f).exchanges = b.exchanges := rfl
@[simp] theorem spool_modPair (b : Bridge) (f : PairPort → PairPort) : (b.modPair f).spool = b.spool := rfl
@[simp] theorem delivery_modPair (b : Bridge) (f : PairPort → PairPort) : (b.modPair f).delivery = b.delivery := rfl
@[simp] theorem reporting_modPair (b : Bridge) (f : PairPort → PairPort) : (b.modPair f).reporting = b.reporting := rfl
@[simp] theorem agent_modPair (b : Bridge) (f : PairPort → PairPort) : (b.modPair f).agent = b.agent := rfl
@[simp] theorem serial_modPair (b : Bridge) (f : PairPort → PairPort) : (b.modPair f).serial = b.serial := rfl
@[simp] theorem drawCount_modPair (b : Bridge) (f : PairPort → PairPort) : (b.modPair f).drawCount = b.drawCount := rfl

/-! ## modDir -/

@[simp] theorem ctl_modDir (b : Bridge) (f : Directory → Directory) : (b.modDir f).ctl = b.ctl := rfl
@[simp] theorem settings_modDir (b : Bridge) (f : Directory → Directory) : (b.modDir f).settings = b.settings := rfl
@[simp] theorem ports_modDir (b : Bridge) (f : Directory → Directory) : (b.modDir f).ports = b.ports := rfl
@[simp] theorem feeds_modDir (b : Bridge) (f : Directory → Directory) : (b.modDir f).feeds = b.feeds := rfl
@[simp] theorem repeats_modDir (b : Bridge) (f : Directory → Directory) : (b.modDir f).repeats = b.repeats := rfl
@[simp] theorem refillDue_modDir (b : Bridge) (f : Directory → Directory) : (b.modDir f).refillDue = b.refillDue := rfl
@[simp] theorem pair_modDir (b : Bridge) (f : Directory → Directory) : (b.modDir f).pair = b.pair := rfl
@[simp] theorem dir_modDir (b : Bridge) (f : Directory → Directory) : (b.modDir f).dir = f b.dir := rfl
@[simp] theorem forwarding_modDir (b : Bridge) (f : Directory → Directory) : (b.modDir f).forwarding = b.forwarding := rfl
@[simp] theorem exchanges_modDir (b : Bridge) (f : Directory → Directory) : (b.modDir f).exchanges = b.exchanges := rfl
@[simp] theorem spool_modDir (b : Bridge) (f : Directory → Directory) : (b.modDir f).spool = b.spool := rfl
@[simp] theorem delivery_modDir (b : Bridge) (f : Directory → Directory) : (b.modDir f).delivery = b.delivery := rfl
@[simp] theorem reporting_modDir (b : Bridge) (f : Directory → Directory) : (b.modDir f).reporting = b.reporting := rfl
@[simp] theorem agent_modDir (b : Bridge) (f : Directory → Directory) : (b.modDir f).agent = b.agent := rfl
@[simp] theorem serial_modDir (b : Bridge) (f : Directory → Directory) : (b.modDir f).serial = b.serial := rfl
@[simp] theorem drawCount_modDir (b : Bridge) (f : Directory → Directory) : (b.modDir f).drawCount = b.drawCount := rfl

/-! ## modSpool -/

@[simp] theorem ctl_modSpool (b : Bridge) (f : Spool → Spool) : (b.modSpool f).ctl = b.ctl := rfl
@[simp] theorem settings_modSpool (b : Bridge) (f : Spool → Spool) : (b.modSpool f).settings = b.settings := rfl
@[simp] theorem ports_modSpool (b : Bridge) (f : Spool → Spool) : (b.modSpool f).ports = b.ports := rfl
@[simp] theorem feeds_modSpool (b : Bridge) (f : Spool → Spool) : (b.modSpool f).feeds = b.feeds := rfl
@[simp] theorem repeats_modSpool (b : Bridge) (f : Spool → Spool) : (b.modSpool f).repeats = b.repeats := rfl
@[simp] theorem refillDue_modSpool (b : Bridge) (f : Spool → Spool) : (b.modSpool f).refillDue = b.refillDue := rfl
@[simp] theorem pair_modSpool (b : Bridge) (f : Spool → Spool) : (b.modSpool f).pair = b.pair := rfl
@[simp] theorem dir_modSpool (b : Bridge) (f : Spool → Spool) : (b.modSpool f).dir = b.dir := rfl
@[simp] theorem forwarding_modSpool (b : Bridge) (f : Spool → Spool) : (b.modSpool f).forwarding = b.forwarding := rfl
@[simp] theorem exchanges_modSpool (b : Bridge) (f : Spool → Spool) : (b.modSpool f).exchanges = b.exchanges := rfl
@[simp] theorem spool_modSpool (b : Bridge) (f : Spool → Spool) : (b.modSpool f).spool = f b.spool := rfl
@[simp] theorem delivery_modSpool (b : Bridge) (f : Spool → Spool) : (b.modSpool f).delivery = b.delivery := rfl
@[simp] theorem reporting_modSpool (b : Bridge) (f : Spool → Spool) : (b.modSpool f).reporting = b.reporting := rfl
@[simp] theorem agent_modSpool (b : Bridge) (f : Spool → Spool) : (b.modSpool f).agent = b.agent := rfl
@[simp] theorem serial_modSpool (b : Bridge) (f : Spool → Spool) : (b.modSpool f).serial = b.serial := rfl
@[simp] theorem drawCount_modSpool (b : Bridge) (f : Spool → Spool) : (b.modSpool f).drawCount = b.drawCount := rfl

/-! ## modDelivery -/

@[simp] theorem ctl_modDelivery (b : Bridge) (f : DeliveryUnit → DeliveryUnit) : (b.modDelivery f).ctl = b.ctl := rfl
@[simp] theorem settings_modDelivery (b : Bridge) (f : DeliveryUnit → DeliveryUnit) : (b.modDelivery f).settings = b.settings := rfl
@[simp] theorem ports_modDelivery (b : Bridge) (f : DeliveryUnit → DeliveryUnit) : (b.modDelivery f).ports = b.ports := rfl
@[simp] theorem feeds_modDelivery (b : Bridge) (f : DeliveryUnit → DeliveryUnit) : (b.modDelivery f).feeds = b.feeds := rfl
@[simp] theorem repeats_modDelivery (b : Bridge) (f : DeliveryUnit → DeliveryUnit) : (b.modDelivery f).repeats = b.repeats := rfl
@[simp] theorem refillDue_modDelivery (b : Bridge) (f : DeliveryUnit → DeliveryUnit) : (b.modDelivery f).refillDue = b.refillDue := rfl
@[simp] theorem pair_modDelivery (b : Bridge) (f : DeliveryUnit → DeliveryUnit) : (b.modDelivery f).pair = b.pair := rfl
@[simp] theorem dir_modDelivery (b : Bridge) (f : DeliveryUnit → DeliveryUnit) : (b.modDelivery f).dir = b.dir := rfl
@[simp] theorem forwarding_modDelivery (b : Bridge) (f : DeliveryUnit → DeliveryUnit) : (b.modDelivery f).forwarding = b.forwarding := rfl
@[simp] theorem exchanges_modDelivery (b : Bridge) (f : DeliveryUnit → DeliveryUnit) : (b.modDelivery f).exchanges = b.exchanges := rfl
@[simp] theorem spool_modDelivery (b : Bridge) (f : DeliveryUnit → DeliveryUnit) : (b.modDelivery f).spool = b.spool := rfl
@[simp] theorem delivery_modDelivery (b : Bridge) (f : DeliveryUnit → DeliveryUnit) : (b.modDelivery f).delivery = f b.delivery := rfl
@[simp] theorem reporting_modDelivery (b : Bridge) (f : DeliveryUnit → DeliveryUnit) : (b.modDelivery f).reporting = b.reporting := rfl
@[simp] theorem agent_modDelivery (b : Bridge) (f : DeliveryUnit → DeliveryUnit) : (b.modDelivery f).agent = b.agent := rfl
@[simp] theorem serial_modDelivery (b : Bridge) (f : DeliveryUnit → DeliveryUnit) : (b.modDelivery f).serial = b.serial := rfl
@[simp] theorem drawCount_modDelivery (b : Bridge) (f : DeliveryUnit → DeliveryUnit) : (b.modDelivery f).drawCount = b.drawCount := rfl

/-! ## modAgent -/

@[simp] theorem ctl_modAgent (b : Bridge) (f : Agent → Agent) : (b.modAgent f).ctl = b.ctl := rfl
@[simp] theorem settings_modAgent (b : Bridge) (f : Agent → Agent) : (b.modAgent f).settings = b.settings := rfl
@[simp] theorem ports_modAgent (b : Bridge) (f : Agent → Agent) : (b.modAgent f).ports = b.ports := rfl
@[simp] theorem feeds_modAgent (b : Bridge) (f : Agent → Agent) : (b.modAgent f).feeds = b.feeds := rfl
@[simp] theorem repeats_modAgent (b : Bridge) (f : Agent → Agent) : (b.modAgent f).repeats = b.repeats := rfl
@[simp] theorem refillDue_modAgent (b : Bridge) (f : Agent → Agent) : (b.modAgent f).refillDue = b.refillDue := rfl
@[simp] theorem pair_modAgent (b : Bridge) (f : Agent → Agent) : (b.modAgent f).pair = b.pair := rfl
@[simp] theorem dir_modAgent (b : Bridge) (f : Agent → Agent) : (b.modAgent f).dir = b.dir := rfl
@[simp] theorem forwarding_modAgent (b : Bridge) (f : Agent → Agent) : (b.modAgent f).forwarding = b.forwarding := rfl
@[simp] theorem exchanges_modAgent (b : Bridge) (f : Agent → Agent) : (b.modAgent f).exchanges = b.exchanges := rfl
@[simp] theorem spool_modAgent (b : Bridge) (f : Agent → Agent) : (b.modAgent f).spool = b.spool := rfl
@[simp] theorem delivery_modAgent (b : Bridge) (f : Agent → Agent) : (b.modAgent f).delivery = b.delivery := rfl
@[simp] theorem reporting_modAgent (b : Bridge) (f : Agent → Agent) : (b.modAgent f).reporting = b.reporting := rfl
@[simp] theorem agent_modAgent (b : Bridge) (f : Agent → Agent) : (b.modAgent f).agent = f b.agent := rfl
@[simp] theorem serial_modAgent (b : Bridge) (f : Agent → Agent) : (b.modAgent f).serial = b.serial := rfl
@[simp] theorem drawCount_modAgent (b : Bridge) (f : Agent → Agent) : (b.modAgent f).drawCount = b.drawCount := rfl

/-! ## modReporting -/

@[simp] theorem ctl_modReporting (b : Bridge) (f : Reporting → Reporting) : (b.modReporting f).ctl = b.ctl := rfl
@[simp] theorem settings_modReporting (b : Bridge) (f : Reporting → Reporting) : (b.modReporting f).settings = b.settings := rfl
@[simp] theorem ports_modReporting (b : Bridge) (f : Reporting → Reporting) : (b.modReporting f).ports = b.ports := rfl
@[simp] theorem feeds_modReporting (b : Bridge) (f : Reporting → Reporting) : (b.modReporting f).feeds = b.feeds := rfl
@[simp] theorem repeats_modReporting (b : Bridge) (f : Reporting → Reporting) : (b.modReporting f).repeats = b.repeats := rfl
@[simp] theorem refillDue_modReporting (b : Bridge) (f : Reporting → Reporting) : (b.modReporting f).refillDue = b.refillDue := rfl
@[simp] theorem pair_modReporting (b : Bridge) (f : Reporting → Reporting) : (b.modReporting f).pair = b.pair := rfl
@[simp] theorem dir_modReporting (b : Bridge) (f : Reporting → Reporting) : (b.modReporting f).dir = b.dir := rfl
@[simp] theorem forwarding_modReporting (b : Bridge) (f : Reporting → Reporting) : (b.modReporting f).forwarding = b.forwarding := rfl
@[simp] theorem exchanges_modReporting (b : Bridge) (f : Reporting → Reporting) : (b.modReporting f).exchanges = b.exchanges := rfl
@[simp] theorem spool_modReporting (b : Bridge) (f : Reporting → Reporting) : (b.modReporting f).spool = b.spool := rfl
@[simp] theorem delivery_modReporting (b : Bridge) (f : Reporting → Reporting) : (b.modReporting f).delivery = b.delivery := rfl
@[simp] theorem reporting_modReporting (b : Bridge) (f : Reporting → Reporting) : (b.modReporting f).reporting = f b.reporting := rfl
@[simp] theorem agent_modReporting (b : Bridge) (f : Reporting → Reporting) : (b.modReporting f).agent = b.agent := rfl
@[simp] theorem serial_modReporting (b : Bridge) (f : Reporting → Reporting) : (b.modReporting f).serial = b.serial := rfl
@[simp] theorem drawCount_modReporting (b : Bridge) (f : Reporting → Reporting) : (b.modReporting f).drawCount = b.drawCount := rfl

/-! ## modPort -/

@[simp] theorem ctl_modPort (b : Bridge) (p : Port) (f : PortState → PortState) : (b.modPort p f).ctl = b.ctl := rfl
@[simp] theorem settings_modPort (b : Bridge) (p : Port) (f : PortState → PortState) : (b.modPort p f).settings = b.settings := rfl
@[simp] theorem ports_modPort (b : Bridge) (p : Port) (f : PortState → PortState) : (b.modPort p f).ports = b.ports.set p (f (b.port p)) := rfl
@[simp] theorem feeds_modPort (b : Bridge) (p : Port) (f : PortState → PortState) : (b.modPort p f).feeds = b.feeds := rfl
@[simp] theorem repeats_modPort (b : Bridge) (p : Port) (f : PortState → PortState) : (b.modPort p f).repeats = b.repeats := rfl
@[simp] theorem refillDue_modPort (b : Bridge) (p : Port) (f : PortState → PortState) : (b.modPort p f).refillDue = b.refillDue := rfl
@[simp] theorem pair_modPort (b : Bridge) (p : Port) (f : PortState → PortState) : (b.modPort p f).pair = b.pair := rfl
@[simp] theorem dir_modPort (b : Bridge) (p : Port) (f : PortState → PortState) : (b.modPort p f).dir = b.dir := rfl
@[simp] theorem forwarding_modPort (b : Bridge) (p : Port) (f : PortState → PortState) : (b.modPort p f).forwarding = b.forwarding := rfl
@[simp] theorem exchanges_modPort (b : Bridge) (p : Port) (f : PortState → PortState) : (b.modPort p f).exchanges = b.exchanges := rfl
@[simp] theorem spool_modPort (b : Bridge) (p : Port) (f : PortState → PortState) : (b.modPort p f).spool = b.spool := rfl
@[simp] theorem delivery_modPort (b : Bridge) (p : Port) (f : PortState → PortState) : (b.modPort p f).delivery = b.delivery := rfl
@[simp] theorem reporting_modPort (b : Bridge) (p : Port) (f : PortState → PortState) : (b.modPort p f).reporting = b.reporting := rfl
@[simp] theorem agent_modPort (b : Bridge) (p : Port) (f : PortState → PortState) : (b.modPort p f).agent = b.agent := rfl
@[simp] theorem serial_modPort (b : Bridge) (p : Port) (f : PortState → PortState) : (b.modPort p f).serial = b.serial := rfl
@[simp] theorem drawCount_modPort (b : Bridge) (p : Port) (f : PortState → PortState) : (b.modPort p f).drawCount = b.drawCount := rfl

/-! ## modFeed -/

@[simp] theorem ctl_modFeed (b : Bridge) (i : PairNo) (f : Feed → Feed) : (b.modFeed i f).ctl = b.ctl := rfl
@[simp] theorem settings_modFeed (b : Bridge) (i : PairNo) (f : Feed → Feed) : (b.modFeed i f).settings = b.settings := rfl
@[simp] theorem ports_modFeed (b : Bridge) (i : PairNo) (f : Feed → Feed) : (b.modFeed i f).ports = b.ports := rfl
@[simp] theorem feeds_modFeed (b : Bridge) (i : PairNo) (f : Feed → Feed) : (b.modFeed i f).feeds = b.feeds.set i (f (b.feed i)) := rfl
@[simp] theorem repeats_modFeed (b : Bridge) (i : PairNo) (f : Feed → Feed) : (b.modFeed i f).repeats = b.repeats := rfl
@[simp] theorem refillDue_modFeed (b : Bridge) (i : PairNo) (f : Feed → Feed) : (b.modFeed i f).refillDue = b.refillDue := rfl
@[simp] theorem pair_modFeed (b : Bridge) (i : PairNo) (f : Feed → Feed) : (b.modFeed i f).pair = b.pair := rfl
@[simp] theorem dir_modFeed (b : Bridge) (i : PairNo) (f : Feed → Feed) : (b.modFeed i f).dir = b.dir := rfl
@[simp] theorem forwarding_modFeed (b : Bridge) (i : PairNo) (f : Feed → Feed) : (b.modFeed i f).forwarding = b.forwarding := rfl
@[simp] theorem exchanges_modFeed (b : Bridge) (i : PairNo) (f : Feed → Feed) : (b.modFeed i f).exchanges = b.exchanges := rfl
@[simp] theorem spool_modFeed (b : Bridge) (i : PairNo) (f : Feed → Feed) : (b.modFeed i f).spool = b.spool := rfl
@[simp] theorem delivery_modFeed (b : Bridge) (i : PairNo) (f : Feed → Feed) : (b.modFeed i f).delivery = b.delivery := rfl
@[simp] theorem reporting_modFeed (b : Bridge) (i : PairNo) (f : Feed → Feed) : (b.modFeed i f).reporting = b.reporting := rfl
@[simp] theorem agent_modFeed (b : Bridge) (i : PairNo) (f : Feed → Feed) : (b.modFeed i f).agent = b.agent := rfl
@[simp] theorem serial_modFeed (b : Bridge) (i : PairNo) (f : Feed → Feed) : (b.modFeed i f).serial = b.serial := rfl
@[simp] theorem drawCount_modFeed (b : Bridge) (i : PairNo) (f : Feed → Feed) : (b.modFeed i f).drawCount = b.drawCount := rfl

/-! ## modExchange -/

@[simp] theorem ctl_modExchange (b : Bridge) (t : Nat) (f : Exchange → Exchange) : (b.modExchange t f).ctl = b.ctl := rfl
@[simp] theorem settings_modExchange (b : Bridge) (t : Nat) (f : Exchange → Exchange) : (b.modExchange t f).settings = b.settings := rfl
@[simp] theorem ports_modExchange (b : Bridge) (t : Nat) (f : Exchange → Exchange) : (b.modExchange t f).ports = b.ports := rfl
@[simp] theorem feeds_modExchange (b : Bridge) (t : Nat) (f : Exchange → Exchange) : (b.modExchange t f).feeds = b.feeds := rfl
@[simp] theorem repeats_modExchange (b : Bridge) (t : Nat) (f : Exchange → Exchange) : (b.modExchange t f).repeats = b.repeats := rfl
@[simp] theorem refillDue_modExchange (b : Bridge) (t : Nat) (f : Exchange → Exchange) : (b.modExchange t f).refillDue = b.refillDue := rfl
@[simp] theorem pair_modExchange (b : Bridge) (t : Nat) (f : Exchange → Exchange) : (b.modExchange t f).pair = b.pair := rfl
@[simp] theorem dir_modExchange (b : Bridge) (t : Nat) (f : Exchange → Exchange) : (b.modExchange t f).dir = b.dir := rfl
@[simp] theorem forwarding_modExchange (b : Bridge) (t : Nat) (f : Exchange → Exchange) : (b.modExchange t f).forwarding = b.forwarding := rfl
@[simp] theorem exchanges_modExchange (b : Bridge) (t : Nat) (f : Exchange → Exchange) : (b.modExchange t f).exchanges = change t f b.exchanges := rfl
@[simp] theorem spool_modExchange (b : Bridge) (t : Nat) (f : Exchange → Exchange) : (b.modExchange t f).spool = b.spool := rfl
@[simp] theorem delivery_modExchange (b : Bridge) (t : Nat) (f : Exchange → Exchange) : (b.modExchange t f).delivery = b.delivery := rfl
@[simp] theorem reporting_modExchange (b : Bridge) (t : Nat) (f : Exchange → Exchange) : (b.modExchange t f).reporting = b.reporting := rfl
@[simp] theorem agent_modExchange (b : Bridge) (t : Nat) (f : Exchange → Exchange) : (b.modExchange t f).agent = b.agent := rfl
@[simp] theorem serial_modExchange (b : Bridge) (t : Nat) (f : Exchange → Exchange) : (b.modExchange t f).serial = b.serial := rfl
@[simp] theorem drawCount_modExchange (b : Bridge) (t : Nat) (f : Exchange → Exchange) : (b.modExchange t f).drawCount = b.drawCount := rfl

/-! ## nextSerial -/

@[simp] theorem ctl_nextSerial (b : Bridge) : b.nextSerial.ctl = b.ctl := rfl
@[simp] theorem settings_nextSerial (b : Bridge) : b.nextSerial.settings = b.settings := rfl
@[simp] theorem ports_nextSerial (b : Bridge) : b.nextSerial.ports = b.ports := rfl
@[simp] theorem feeds_nextSerial (b : Bridge) : b.nextSerial.feeds = b.feeds := rfl
@[simp] theorem repeats_nextSerial (b : Bridge) : b.nextSerial.repeats = b.repeats := rfl
@[simp] theorem refillDue_nextSerial (b : Bridge) : b.nextSerial.refillDue = b.refillDue := rfl
@[simp] theorem pair_nextSerial (b : Bridge) : b.nextSerial.pair = b.pair := rfl
@[simp] theorem dir_nextSerial (b : Bridge) : b.nextSerial.dir = b.dir := rfl
@[simp] theorem forwarding_nextSerial (b : Bridge) : b.nextSerial.forwarding = b.forwarding := rfl
@[simp] theorem exchanges_nextSerial (b : Bridge) : b.nextSerial.exchanges = b.exchanges := rfl
@[simp] theorem spool_nextSerial (b : Bridge) : b.nextSerial.spool = b.spool := rfl
@[simp] theorem delivery_nextSerial (b : Bridge) : b.nextSerial.delivery = b.delivery := rfl
@[simp] theorem reporting_nextSerial (b : Bridge) : b.nextSerial.reporting = b.reporting := rfl
@[simp] theorem agent_nextSerial (b : Bridge) : b.nextSerial.agent = b.agent := rfl
@[simp] theorem serial_nextSerial (b : Bridge) : b.nextSerial.serial = b.serial + 1 := rfl
@[simp] theorem drawCount_nextSerial (b : Bridge) : b.nextSerial.drawCount = b.drawCount := rfl

/-! ## Ports and feed controllers -/

@[simp] theorem port_modPort_self (b : Bridge) (p : Port) (f : PortState → PortState) : (b.modPort p f).port p = f (b.port p) := by
  simp [port]

@[simp] theorem port_modPort_ne (b : Bridge) {p q : Port} (h : p ≠ q) (f : PortState → PortState) :
    (b.modPort p f).port q = b.port q := by
  have h' : p.val ≠ q.val := fun e => h (Fin.ext e)
  simp [port, h']

theorem port_modPort (b : Bridge) (p q : Port) (f : PortState → PortState) :
    (b.modPort p f).port q = if p = q then f (b.port q) else b.port q := by
  by_cases h : p = q
  · subst h; simp
  · simp [h]

/-- Two changes of one port are one change. -/
theorem modPort_modPort (b : Bridge) (p : Port) (f g : PortState → PortState) :
    (b.modPort p f).modPort p g = b.modPort p fun x => g (f x) := by
  simp [modPort, setPorts, port]

/-- A change of one port that leaves it as it is changes nothing. -/
theorem modPort_id (b : Bridge) (p : Port) (f : PortState → PortState) (h : f (b.port p) = b.port p) : b.modPort p f = b := by
  have e : b.ports.set p (b.port p) = b.ports := by simp [port]
  show b.setPorts (b.ports.set p (f (b.port p))) = b
  rw [h, e]
  rfl

/-- A change of one port is known by what it does to that port's state. -/
theorem modPort_congr (b : Bridge) (p : Port) {f g : PortState → PortState} (h : f (b.port p) = g (b.port p)) :
    b.modPort p f = b.modPort p g := by simp [modPort, h]

/-- A change of a line monitor is a change of its port. -/
theorem modMon_eq (b : Bridge) (p : Port) (f : Monitor → Monitor) :
    b.modMon p f = b.modPort p fun x => { x with mon := f x.mon } := rfl

@[simp] theorem mon_modMon_self (b : Bridge) (p : Port) (f : Monitor → Monitor) : (b.modMon p f).mon p = f (b.mon p) := by
  simp [mon, modMon]

@[simp] theorem mon_modMon_ne (b : Bridge) {p q : Port} (h : p ≠ q) (f : Monitor → Monitor) : (b.modMon p f).mon q = b.mon q := by
  simp [mon, modMon, h]

@[simp] theorem feed_modFeed_self (b : Bridge) (i : PairNo) (f : Feed → Feed) : (b.modFeed i f).feed i = f (b.feed i) := by
  simp [feed]

@[simp] theorem feed_modFeed_ne (b : Bridge) {i j : PairNo} (h : i ≠ j) (f : Feed → Feed) : (b.modFeed i f).feed j = b.feed j := by
  have h' : i.val ≠ j.val := fun e => h (Fin.ext e)
  simp [feed, h']

/-- A feed controller is read from the feed controllers. -/
theorem feed_eq (b : Bridge) (i : PairNo) : b.feed i = b.feeds[i] := rfl

/-- A port is read from the ports. -/
theorem port_eq (b : Bridge) (p : Port) : b.port p = b.ports[p] := rfl

/-- A line monitor is read from its port. -/
theorem mon_eq (b : Bridge) (p : Port) : b.mon p = (b.port p).mon := rfl

/-! ## Spool, delivery and error groups -/

@[simp] theorem lp_modLp_self (b : Bridge) (l : Lp) (f : LogicalPrinter → LogicalPrinter) : (b.modLp l f).lp l = f (b.lp l) := by
  simp [lp, modLp]

@[simp] theorem record_setRecord_self (b : Bridge) (l : Lp) (d : Option Delivery) : (b.setRecord l d).record l = d := by
  simp [record, setRecord]

@[simp] theorem record_setRecord_ne (b : Bridge) {l m : Lp} (h : l ≠ m) (d : Option Delivery) :
    (b.setRecord l d).record m = b.record m := by
  have h' : l.val ≠ m.val := fun e => h (Fin.ext e)
  simp [record, setRecord, h']

@[simp] theorem group_modGroup_self (b : Bridge) (g : Fin 9) (f : ErrorGroup → ErrorGroup) :
    (b.modGroup g f).group g = f (b.group g) := by
  simp [group, modGroup]

@[simp] theorem group_modGroup_ne (b : Bridge) {g h : Fin 9} (e : g ≠ h) (f : ErrorGroup → ErrorGroup) :
    (b.modGroup g f).group h = b.group h := by
  have h' : g.val ≠ h.val := fun x => e (Fin.ext x)
  simp [group, modGroup, h']

/-- A count and a change of a port do not meet. -/
theorem modPort_count (b : Bridge) (g : Fin 9) (c : Ctr) (p : Port) (f : PortState → PortState) :
    (b.count g c).modPort p f = (b.modPort p f).count g c := rfl

@[simp] theorem port_count (b : Bridge) (g : Fin 9) (c : Ctr) (p : Port) : (b.count g c).port p = b.port p := rfl

end Sys2Proof.Machine.Bridge

namespace Sys2Proof.Machine

/-! ## The state after a command -/

@[simp] theorem State.after_pending (s : State) (u : List Nat) (b : Bridge) : (s.after u b).pending = s.pending := rfl

@[simp] theorem State.after_store (s : State) (u : List Nat) (b : Bridge) : (s.after u b).store = storeAfter s.store u b := rfl

@[simp] theorem State.after_bridge (s : State) (u : List Nat) (b : Bridge) :
    (s.after u b).bridge = b.settle (storeAfter s.store u b) := rfl

/-- A command gives the state after its effect. -/
@[simp] theorem State.command_eq (s : State) (u : List Nat) (f : Bridge → Bridge) :
    s.command u f = .next (s.after u (f s.bridge)) := rfl

/-- While the U416 takes traffic a command has its effect. -/
theorem Bridge.whenRunning_run (b : Bridge) (f : Bridge → Bridge) (h : b.ctl.phase = .running) : b.whenRunning f = f b := by
  simp [Bridge.whenRunning, h]

/-- In any other phase it has none. -/
theorem Bridge.whenRunning_held (b : Bridge) (f : Bridge → Bridge) (h : b.ctl.phase ≠ .running) : b.whenRunning f = b := by
  simp [Bridge.whenRunning, h]

/-- A command of traffic while the U416 takes traffic. -/
theorem State.command_run (s : State) (u : List Nat) (f : Bridge → Bridge) (h : s.bridge.ctl.phase = .running) :
    s.command u (·.whenRunning f) = .next (s.after u (f s.bridge)) := by
  simp [Bridge.whenRunning, h]

/-- The same effect leaves the same state. -/
theorem State.after_congr (s : State) (u : List Nat) {b c : Bridge} (h : b = c) :
    (Host.Outcome.next (s.after u b) : Host.Outcome State Fault Refusal) = .next (s.after u c) := by rw [h]

/-- A management command while the U416 takes traffic. -/
theorem State.manage_run (s : State) (a : Asker) (r : ManageReq) (h : s.bridge.ctl.phase = .running) :
    s.manage a r = .next (s.after [] (s.bridge.request a r)) := by
  simp [State.manage, Bridge.whenRunning, h]

end Sys2Proof.Machine
end

