-- ==== Sys2Proof/Laws/Memory.lean ====
section
/-! SUPPORT. Keyed lists and the spool store: reading back what a write wrote, and the canonical form that every write keeps. -/

namespace Sys2Proof.Machine
open Sys2Proof

/-! ## Keyed lists -/

/-- The first number of a list lies above a bound, if there is one. -/
def above {α : Type} (k : Nat) : List (Nat × α) → Prop
  | [] => True
  | (n, _) :: _ => k < n

theorem rising_cons {α : Type} (n : Nat) (v : α) (l : List (Nat × α)) :
    rising ((n, v) :: l) = true ↔ above n l ∧ rising l = true := by
  cases l with
  | nil => simp [rising, above]
  | cons x xs => obtain ⟨m, w⟩ := x; simp [rising, above]

theorem above_of_lt {α : Type} {k n : Nat} (h : k < n) {l : List (Nat × α)} (ha : above n l) : above k l := by
  cases l with
  | nil => trivial
  | cons x xs => obtain ⟨m, w⟩ := x; simp only [above] at *; omega

/-- Nothing is listed under a number below the first. -/
theorem look_of_above {α : Type} {k : Nat} : ∀ {l : List (Nat × α)}, above k l → rising l = true → look k l = none
  | [], _, _ => rfl
  | (n, v) :: l, ha, hr => by
    have h := (rising_cons n v l).1 hr
    simp only [above] at ha
    rw [look, if_neg (by omega)]
    exact look_of_above (above_of_lt ha h.1) h.2

theorem look_put_self {α : Type} (k : Nat) (v : α) : ∀ l : List (Nat × α), look k (put k v l) = some v
  | [] => by simp [put, look]
  | (n, w) :: l => by
    rw [put]
    split
    · simp [look]
    · split
      · simp [look]
      · rename_i h1 h2
        rw [look, if_neg h2]
        exact look_put_self k v l

theorem look_put_ne {α : Type} {k j : Nat} (h : j ≠ k) (v : α) : ∀ l : List (Nat × α), look j (put k v l) = look j l
  | [] => by simp [put, look, Ne.symm h]
  | (n, w) :: l => by
    rw [put]
    split
    · rw [look, if_neg (Ne.symm h)]
    · split
      · rename_i h1 h2
        subst h2
        rw [look, if_neg (Ne.symm h), look, if_neg (Ne.symm h)]
      · simp only [look]
        rw [look_put_ne h v l]

theorem look_drop_ne {α : Type} {k j : Nat} (h : j ≠ k) : ∀ l : List (Nat × α), look j (drop k l) = look j l
  | [] => rfl
  | (n, w) :: l => by
    rw [drop]
    split
    · rename_i h1
      subst h1
      rw [look, if_neg (Ne.symm h), look_drop_ne h l]
    · simp only [look]
      rw [look_drop_ne h l]

theorem look_drop_self {α : Type} (k : Nat) : ∀ l : List (Nat × α), look k (drop k l) = none
  | [] => rfl
  | (n, w) :: l => by
    rw [drop]
    split
    · exact look_drop_self k l
    · rename_i h1
      rw [look, if_neg h1]
      exact look_drop_self k l

theorem look_change_ne {α : Type} {k j : Nat} (h : j ≠ k) (f : α → α) : ∀ l : List (Nat × α), look j (change k f l) = look j l
  | [] => rfl
  | (n, w) :: l => by
    rw [change]
    split
    · rename_i h1
      subst h1
      rw [look, if_neg (Ne.symm h), look, if_neg (Ne.symm h)]
    · simp only [look]
      rw [look_change_ne h f l]

theorem look_change_self {α : Type} (k : Nat) (f : α → α) : ∀ l : List (Nat × α), look k (change k f l) = (look k l).map f
  | [] => rfl
  | (n, w) :: l => by
    rw [change]
    split
    · rename_i h1
      simp [look, h1]
    · rename_i h1
      rw [look, if_neg h1, look, if_neg h1]
      exact look_change_self k f l

theorem above_put {α : Type} {j k : Nat} (h : j < k) (v : α) : ∀ {l : List (Nat × α)}, above j l → above j (put k v l)
  | [], _ => h
  | (n, w) :: l, ha => by
    rw [put]
    split
    · exact h
    · split <;> simp_all [above]

theorem rising_put {α : Type} (k : Nat) (v : α) : ∀ {l : List (Nat × α)}, rising l = true → rising (put k v l) = true
  | [], _ => rfl
  | (n, w) :: l, hr => by
    have h := (rising_cons n w l).1 hr
    rw [put]
    split
    · rename_i h1
      exact (rising_cons k v _).2 ⟨h1, hr⟩
    · split
      · rename_i h1 h2
        subst h2
        exact (rising_cons n v l).2 h
      · rename_i h1 h2
        exact (rising_cons n w _).2 ⟨above_put (by omega) v h.1, rising_put k v h.2⟩

theorem above_drop {α : Type} {j : Nat} (k : Nat) : ∀ {l : List (Nat × α)}, above j l → rising l = true → above j (drop k l)
  | [], _, _ => trivial
  | (n, w) :: l, ha, hr => by
    have h := (rising_cons n w l).1 hr
    rw [drop]
    split
    · exact above_drop k (above_of_lt ha h.1) h.2
    · exact ha

theorem rising_drop {α : Type} (k : Nat) : ∀ {l : List (Nat × α)}, rising l = true → rising (drop k l) = true
  | [], _ => rfl
  | (n, w) :: l, hr => by
    have h := (rising_cons n w l).1 hr
    rw [drop]
    split
    · exact rising_drop k h.2
    · exact (rising_cons n w _).2 ⟨above_drop k h.1 h.2, rising_drop k h.2⟩

/-! ## The spool store (R119, R120; log 5) -/

/-- Every entry of a canonical list differs from the 0 that an unlisted address reads as. -/
theorem Memory.wf_iff (m : List Host.Cell) : Memory.wf m = true ↔ rising m = true ∧ ∀ c ∈ m, c.2 ≠ 0 := by
  simp [Memory.wf]

theorem mem_put {α : Type} {k : Nat} {v : α} {c : Nat × α} : ∀ {l : List (Nat × α)}, c ∈ put k v l → c = (k, v) ∨ c ∈ l
  | [], h => by simpa [put] using h
  | (n, w) :: l, h => by
    rw [put] at h
    split at h
    · simpa using h
    · split at h
      · rcases List.mem_cons.1 h with h | h
        · exact .inl h
        · exact .inr (List.mem_cons_of_mem _ h)
      · rcases List.mem_cons.1 h with h | h
        · exact .inr (h ▸ List.mem_cons_self)
        · rcases mem_put h with h | h
          · exact .inl h
          · exact .inr (List.mem_cons_of_mem _ h)

theorem mem_drop {α : Type} {k : Nat} {c : Nat × α} : ∀ {l : List (Nat × α)}, c ∈ drop k l → c ∈ l
  | [], h => h
  | (n, w) :: l, h => by
    rw [drop] at h
    split at h
    · exact List.mem_cons_of_mem _ (mem_drop h)
    · rcases List.mem_cons.1 h with h | h
      · exact h ▸ List.mem_cons_self
      · exact List.mem_cons_of_mem _ (mem_drop h)

/-- A write keeps the canonical form. -/
theorem Memory.wf_write (m : List Host.Cell) (a : Nat) (v : Byte) (h : Memory.wf m = true) :
    Memory.wf (Memory.write m a v) = true := by
  rw [Memory.wf_iff] at *
  unfold Memory.write
  split
  · exact ⟨rising_drop a h.1, fun c hc => h.2 c (mem_drop hc)⟩
  · rename_i hv
    refine ⟨rising_put a v h.1, fun c hc => ?_⟩
    rcases mem_put hc with rfl | hc
    · exact hv
    · exact h.2 c hc

/-- The byte a write wrote is the byte read there. -/
theorem Memory.read_write_self (m : List Host.Cell) (a : Nat) (v : Byte) : Memory.read (Memory.write m a v) a = v := by
  unfold Memory.read Memory.write
  split
  · rename_i hv
    simp [look_drop_self a m, hv]
  · simp [look_put_self]

/-- A write changes the byte read at no other address. -/
theorem Memory.read_write_ne (m : List Host.Cell) {a b : Nat} (hab : b ≠ a) (v : Byte) :
    Memory.read (Memory.write m a v) b = Memory.read m b := by
  unfold Memory.read Memory.write
  split
  · rw [look_drop_ne hab]
  · rw [look_put_ne hab]

/-- A write with its parity keeps the canonical form. -/
theorem Store.wf_write (s : Store) (c : Host.Cell) (h : Memory.wf s.cells = true) : Memory.wf (s.write c).cells = true :=
  Memory.wf_write s.cells c.1 c.2 h

/-- An append keeps the canonical form. -/
theorem Store.wf_writeAll : ∀ (l : List Host.Cell) (s : Store), Memory.wf s.cells = true → Memory.wf (s.writeAll l).cells = true
  | [], _, h => h
  | c :: l, s, h => Store.wf_writeAll l (s.write c) (Store.wf_write s c h)

/-- A changed stored bit changes no byte. -/
@[simp] theorem Store.cells_upset (s : Store) (l : List Nat) : (s.upset l).cells = s.cells := rfl

/-- A command keeps the canonical form of the store. -/
theorem storeAfter_wf (m : Store) (u : List Nat) (b : Bridge) (h : Memory.wf m.cells = true) :
    Memory.wf (storeAfter m u b).cells = true :=
  Store.wf_writeAll _ _ h

/-- An append changes the byte read at no address it does not write. -/
theorem Store.read_writeAll_of_not_mem : ∀ (l : List Host.Cell) (s : Store) (a : Nat), (∀ c ∈ l, c.1 ≠ a) →
    Memory.read (s.writeAll l).cells a = Memory.read s.cells a
  | [], _, _, _ => rfl
  | c :: l, s, a, h => by
    have h1 : c.1 ≠ a := h c List.mem_cons_self
    rw [Store.writeAll, List.foldl_cons]
    change Memory.read ((s.write c).writeAll l).cells a = _
    rw [Store.read_writeAll_of_not_mem l (s.write c) a fun d hd => h d (List.mem_cons_of_mem _ hd)]
    exact Memory.read_write_ne s.cells (Ne.symm h1) c.2

end Sys2Proof.Machine
end

