-- ==== Sys2Proof/Laws/Settle.lean ====
section
/-! SUPPORT. What the delivery unit's own operations and the end of every command leave as they are: one lemma per operation, each
saying that the bridge is kept in the sense of BridgeKept. -/

namespace Sys2Proof.Machine
open Sys2Proof

theorem PortKept.refl (x : PortState) : PortKept x x :=
  ⟨rfl, ⟨[], (List.append_nil _).symm⟩, rfl, rfl, rfl, rfl, rfl, rfl, rfl, rfl⟩

theorem PortKept.trans {x y z : PortState} (h : PortKept x y) (k : PortKept y z) : PortKept x z where
  class0 := k.class0.trans h.class0
  class1 := by
    obtain ⟨l, hl⟩ := h.class1
    obtain ⟨m, hm⟩ := k.class1
    exact ⟨l ++ m, by rw [hm, hl, List.append_assoc]⟩
  attempt := k.attempt.trans h.attempt
  backoff := k.backoff.trans h.backoff
  carrier := k.carrier.trans h.carrier
  quietFrom := k.quietFrom.trans h.quietFrom
  allowance := k.allowance.trans h.allowance
  remainder := k.remainder.trans h.remainder
  arrivals := k.arrivals.trans h.arrivals
  mon := k.mon.trans h.mon

theorem PairQuiet.refl (x : PairPort) : PairQuiet x x := ⟨rfl, rfl, rfl, id⟩

theorem PairQuiet.trans {x y z : PairPort} (h : PairQuiet x y) (k : PairQuiet y z) : PairQuiet x z :=
  ⟨k.queue.trans h.queue, k.waiting.trans h.waiting, k.handing.trans h.handing, fun e => k.repeats (h.repeats e)⟩

namespace BridgeKept

theorem refl (b : Bridge) : BridgeKept b b :=
  ⟨rfl, rfl, rfl, rfl, rfl, rfl, rfl, rfl, rfl, fun _ => PortKept.refl _, rfl, rfl, rfl, rfl, ⟨[], (List.append_nil _).symm⟩,
    fun _ => PairQuiet.refl _, fun _ _ => rfl, rfl, rfl, rfl, id, fun _ => rfl⟩

theorem trans {b c d : Bridge} (h : BridgeKept b c) (k : BridgeKept c d) : BridgeKept b d where
  ctl := k.ctl.trans h.ctl
  settings := k.settings.trans h.settings
  feeds := k.feeds.trans h.feeds
  repeats := k.repeats.trans h.repeats
  refillDue := k.refillDue.trans h.refillDue
  forwarding := k.forwarding.trans h.forwarding
  exchanges := k.exchanges.trans h.exchanges
  agent := k.agent.trans h.agent
  drawCount := k.drawCount.trans h.drawCount
  port p := (h.port p).trans (k.port p)
  link := k.link.trans h.link
  indication := k.indication.trans h.indication
  waitFrom := k.waitFrom.trans h.waitFrom
  pairArrivals := k.pairArrivals.trans h.pairArrivals
  pairQueue := by
    obtain ⟨l, hl⟩ := h.pairQueue
    obtain ⟨m, hm⟩ := k.pairQueue
    exact ⟨l ++ m, by rw [hm, hl, List.append_assoc]⟩
  pairDown e := (h.pairDown e).trans (k.pairDown (h.link.trans e))
  group g hg := (k.group g hg).trans (h.group g hg)
  ageingDue := k.ageingDue.trans h.ageingDue
  staging := k.staging.trans h.staging
  jobCounter := k.jobCounter.trans h.jobCounter
  toWrite e := k.toWrite (h.toWrite e)
  binding l := (k.binding l).trans (h.binding l)

/-- Operations that each keep the bridge keep it one after another over a list. -/
theorem foldl {α : Type} (f : Bridge → α → Bridge) (hf : ∀ b x, BridgeKept b (f b x)) :
    ∀ (l : List α) (b : Bridge), BridgeKept b (l.foldl f b)
  | [], b => refl b
  | x :: l, b => (hf b x).trans (foldl f hf l (f b x))

/-! ## One-place updates -/

theorem ofPort (b : Bridge) (p : Port) (f : PortState → PortState) (h : PortKept (b.port p) (f (b.port p))) :
    BridgeKept b (b.modPort p f) :=
  { refl b with
    port := fun q => by
      rw [Bridge.port_modPort]
      split
      · rename_i e; subst e; exact h
      · exact PortKept.refl _ }

theorem ofEntries (b : Bridge) (f : Entries → Entries) : BridgeKept b (b.modEntries f) :=
  { refl b with }

theorem ofSerial (b : Bridge) (n : Nat) : BridgeKept b (b.setSerial n) := { refl b with }

theorem ofDelivery (b : Bridge) (f : DeliveryUnit → DeliveryUnit) : BridgeKept b (b.modDelivery f) := { refl b with }

/-- A change of the spool's records that keeps the job counter and the bindings. -/
theorem ofSpool (b : Bridge) (f : Spool → Spool) (hc : (f b.spool).jobCounter = b.spool.jobCounter)
    (hl : (f b.spool).lps = b.spool.lps) (hw : b.spool.toWrite = [] → (f b.spool).toWrite = []) : BridgeKept b (b.modSpool f) :=
  { refl b with
    jobCounter := hc
    toWrite := hw
    binding := fun l => by simp [Bridge.lp, hl] }

/-- A change of a logical printer record that keeps its binding. -/
theorem ofLp (b : Bridge) (l : Lp) (f : LogicalPrinter → LogicalPrinter) (h : ∀ x, (f x).binding = x.binding) :
    BridgeKept b (b.modLp l f) :=
  { refl b with
    binding := fun m => by
      by_cases e : l = m
      · subst e; simp [h]
      · have e' : l.val ≠ m.val := fun x => e (Fin.ext x)
        simp [Bridge.lp, Bridge.modLp, e'] }

/-- A change of the pair port that keeps the link and the arrivals, and the queue but for its tail. -/
theorem ofPair (b : Bridge) (f : PairPort → PairPort) (hl : (f b.pair).link = b.pair.link)
    (hi : (f b.pair).indication = b.pair.indication) (hw : (f b.pair).waitFrom = b.pair.waitFrom)
    (ha : (f b.pair).arrivals = b.pair.arrivals) (hq : ∃ l, (f b.pair).queue = b.pair.queue ++ l)
    (hd : b.pair.link = false → PairQuiet b.pair (f b.pair)) :
    BridgeKept b (b.modPair f) :=
  { refl b with link := hl, indication := hi, waitFrom := hw, pairArrivals := ha, pairQueue := hq, pairDown := hd }

/-- A change of the SPOOL or the STORE group. -/
theorem ofGroup (b : Bridge) (g : Fin 9) (hg : 7 ≤ g.val) (f : ErrorGroup → ErrorGroup) : BridgeKept b (b.modGroup g f) :=
  { refl b with
    group := fun h hh => by
      have e : g ≠ h := fun x => by subst x; omega
      simp [e] }

/-- A change of the reporting unit that keeps its groups. -/
theorem ofReporting (b : Bridge) (f : Reporting → Reporting) (h : (f b.reporting).groups = b.reporting.groups) :
    BridgeKept b (b.modReporting f) :=
  { refl b with group := fun g _ => by simp [Bridge.group, h] }

end BridgeKept

namespace Bridge
open BridgeKept

/-! ## Offers -/

theorem kept_offer1 (b : Bridge) (p : Port) (f : CoaxFrame) : BridgeKept b (b.offer1 p f) := by
  unfold offer1
  split
  · exact ofPort b p _ { PortKept.refl (b.port p) with class1 := ⟨[f], rfl⟩ }
  · exact BridgeKept.refl b

theorem kept_offerEach (b : Bridge) (ps : List Port) (f : CoaxFrame) : BridgeKept b (b.offerEach ps f).2 :=
  BridgeKept.foldl (fun b p => b.offer1 p f) (fun b p => kept_offer1 b p f) ps b

theorem kept_nextSerial (b : Bridge) : BridgeKept b b.nextSerial := ofSerial b _

theorem kept_sendEach (b : Bridge) (ps : List Port) (x : Block) (o : Origin) (n : Option Port) :
    BridgeKept b (b.sendEach ps x o n).2 :=
  (kept_nextSerial b).trans (kept_offerEach _ ps _)

theorem kept_offerPair (b : Bridge) (f : PairFrame) : BridgeKept b (b.offerPair f).2 := by
  unfold offerPair
  by_cases hl : b.pair.link = true
  · simp only [hl, Bool.not_true, Bool.false_eq_true, ↓reduceIte]
    split
    · exact ofPair b (fun x => { x with queue := x.queue ++ [f] }) rfl rfl rfl rfl ⟨[f], rfl⟩ (fun e => by simp [hl] at e)
    · exact BridgeKept.refl b
  · simp only [hl, Bool.not_false, ↓reduceIte]
    exact BridgeKept.refl b

theorem kept_sendPair (b : Bridge) (c : Carrier) (o : Origin) : BridgeKept b (b.sendPair c o).2 :=
  (kept_nextSerial b).trans (kept_offerPair _ _)

/-! ## Notices and captures -/

theorem kept_placeNotice (b : Bridge) (o : Origin) (n : DirNo) (e : Entry) (src : Port → Option Nat) (k : Nat) (l : List Byte) :
    BridgeKept b (b.placeNotice o n e src k l).2 := by
  unfold placeNotice
  split
  · split
    · exact kept_sendEach b _ _ _ _
    · exact BridgeKept.refl b
  · exact kept_sendPair b _ _
  · exact BridgeKept.refl b

theorem kept_countNoticeDropped (b : Bridge) : BridgeKept b b.countNoticeDropped := ofReporting b _ rfl

theorem kept_noticeTo (b : Bridge) (d : Option DirNo) (ev : NoticeEvent) : BridgeKept b (b.noticeTo d ev) := by
  unfold noticeTo
  split
  · exact BridgeKept.refl b
  · split
    · rename_i n _ e _
      split
      · have h := kept_placeNotice b .notice n e b.bridgeNumberOn 1 (b.noticeRecord ev)
        split
        · rename_i c hc
          rw [hc] at h
          exact h.trans (kept_countNoticeDropped c)
        · rename_i c hc
          rw [hc] at h
          exact h
      · exact kept_countNoticeDropped b
    · exact kept_countNoticeDropped b

theorem kept_notify (b : Bridge) (ev : NoticeEvent) : BridgeKept b (b.notify ev) :=
  (kept_noticeTo b _ ev).trans (kept_noticeTo _ _ ev)

theorem kept_count (b : Bridge) (g : Fin 9) (hg : 7 ≤ g.val) (c : Ctr) : BridgeKept b (b.count g c) := ofGroup b g hg _

theorem kept_capture (b : Bridge) (g : Fin 9) (hg : 7 ≤ g.val) (k : Ctr) (d : ErrorDetail) : BridgeKept b (b.capture g k d) := by
  unfold capture
  split
  · exact ofGroup b g hg _
  · dsimp only
    split
    · exact (ofGroup b g hg _).trans (kept_notify _ _)
    · exact ofGroup b g hg _

theorem kept_countCapture (b : Bridge) (g : Fin 9) (hg : 7 ≤ g.val) (k : Ctr) (d : ErrorDetail) :
    BridgeKept b (b.countCapture g k d) :=
  (kept_count b g hg k).trans (kept_capture _ g hg k d)

/-! ## The directory -/

theorem kept_lift (b : Bridge) (s : Port) (n : Nat) : BridgeKept b (b.lift s n) := by
  unfold lift
  split
  · split
    · exact ofEntries b _
    · exact BridgeKept.refl b
  · exact BridgeKept.refl b

theorem kept_liftAll (b : Bridge) (l : List (Port × Nat)) : BridgeKept b (b.liftAll l) :=
  BridgeKept.foldl (fun (b : Bridge) (x : Port × Nat) => b.lift x.1 x.2) (fun b x => kept_lift b x.1 x.2) l b

theorem kept_freeQuiet (b : Bridge) (n : DirNo) : BridgeKept b (b.freeQuiet n) := by
  unfold freeQuiet
  refine .trans ?_ (ofDelivery _ _)
  refine .trans ?_ (ofPair _ _ rfl rfl rfl rfl ⟨[], (List.append_nil _).symm⟩ fun _ => ⟨rfl, rfl, rfl, fun e => ?_⟩)
  · exact ofEntries b _
  · simp [e]

theorem kept_freeEntry (b : Bridge) (n : DirNo) : BridgeKept b (b.freeEntry n) := by
  unfold freeEntry
  split
  · exact (kept_freeQuiet b n).trans (kept_liftAll _ _)
  · exact BridgeKept.refl b

theorem kept_pin (b : Bridge) (n : DirNo) : BridgeKept b (b.pin n) := ofEntries b _

theorem kept_unpin (b : Bridge) (n : DirNo) : BridgeKept b (b.unpin n) := by
  unfold unpin
  refine BridgeKept.trans (ofEntries b (change n fun e => { e with pins := e.pins - 1 })) ?_
  dsimp only
  split
  · split
    · exact kept_freeEntry _ n
    · exact BridgeKept.refl _
  · exact BridgeKept.refl _

/-! ## The spool -/

theorem kept_modJob (b : Bridge) (n : Nat) (f : Job → Job) : BridgeKept b (b.modJob n f) := ofSpool b _ rfl rfl id

theorem kept_leaveQueue (b : Bridge) (l : Lp) (n : Nat) : BridgeKept b (b.leaveQueue l n) := ofLp b l _ fun _ => rfl

theorem kept_retireJob (b : Bridge) (j : Job) : BridgeKept b (b.retireJob j) :=
  (kept_leaveQueue b _ _).trans (ofSpool _ _ rfl rfl id)

theorem kept_jobNotice (b : Bridge) (j : Job) (o : JobOutcome) (r : JobReason) : BridgeKept b (b.jobNotice j o r) := by
  unfold jobNotice
  dsimp only
  split
  · rename_i e _
    split
    · split
      · rename_i c hc
        have h := kept_placeNotice b .jobNotice j.owner e
          (fun s => (b.numberOf (lpEntry j.lp) s).orElse fun _ => b.bridgeNumberOn s) (lpEntry j.lp)
          (b.noticeRecord (.job j.number (lpEntry j.lp) o r j.total j.copiesDone))
        rw [hc] at h
        exact h.trans (kept_count c _ (by decide) _)
      · rename_i c hc
        have h := kept_placeNotice b .jobNotice j.owner e
          (fun s => (b.numberOf (lpEntry j.lp) s).orElse fun _ => b.bridgeNumberOn s) (lpEntry j.lp)
          (b.noticeRecord (.job j.number (lpEntry j.lp) o r j.total j.copiesDone))
        rw [hc] at h
        exact h
    · exact kept_count b _ (by decide) _
  · exact kept_count b _ (by decide) _

theorem kept_endJob (b : Bridge) (n : Nat) (o : JobOutcome) (r : JobReason) : BridgeKept b (b.endJob n o r) := by
  unfold endJob
  split
  · exact (kept_retireJob b _).trans ((kept_jobNotice _ _ _ _).trans (kept_unpin _ _))
  · exact BridgeKept.refl b

theorem kept_requeue (b : Bridge) (j : Job) : BridgeKept b (b.requeue j) :=
  (kept_modJob b _ _).trans (ofLp _ _ _ fun _ => rfl)

/-! ## Starting -/

theorem kept_setRecord (b : Bridge) (l : Lp) (d : Option Delivery) : BridgeKept b (b.setRecord l d) := ofDelivery b _

theorem kept_modPrinter (b : Bridge) (n : DirNo) (f : Printer → Printer) : BridgeKept b (b.modPrinter n f) := ofDelivery b _

theorem kept_buildFrame (b : Bridge) (l : Lp) : BridgeKept b (b.buildFrame l) := by
  unfold buildFrame
  split
  · split
    · split
      · exact kept_setRecord b _ _
      · exact kept_setRecord b _ _
    · exact BridgeKept.refl b
  · exact BridgeKept.refl b

theorem kept_startJob (b : Bridge) (l : Lp) (j : Job) (n : DirNo) : BridgeKept b (b.startJob l j n) := by
  unfold startJob
  split
  · split
    · refine .trans ?_ (kept_buildFrame _ _)
      refine .trans ?_ (ofDelivery _ _)
      refine .trans ?_ (kept_setRecord _ _ _)
      refine .trans ?_ (kept_pin _ _)
      refine .trans ?_ (kept_modPrinter _ _ _)
      refine .trans ?_ (ofLp _ _ _ fun _ => rfl)
      refine .trans ?_ (kept_modJob _ _ _)
      exact kept_leaveQueue b _ _
    · exact BridgeKept.refl b
  · exact BridgeKept.refl b

theorem kept_tryStart (b : Bridge) (l : Lp) {c : Bridge} (h : b.tryStart l = some c) : BridgeKept b c := by
  unfold tryStart at h
  split at h
  · split at h
    · exact (Option.some.inj h) ▸ kept_startJob b _ _ _
    · cases h
  · cases h

theorem kept_offerWaiting (b : Bridge) (l : Lp) : BridgeKept b (b.offerWaiting l) := by
  unfold offerWaiting
  dsimp only
  split
  · refine .trans ?_ (ofDelivery _ _)
    exact ofLp b _ _ fun _ => rfl
  · split
    · rename_i c hc
      exact (kept_tryStart b l hc).trans (ofDelivery _ _)
    · exact BridgeKept.refl b

theorem kept_offerIdle (b : Bridge) (l : Lp) : BridgeKept b (b.offerIdle l) := by
  unfold offerIdle
  split
  · split
    · rename_i c hc
      exact kept_tryStart b l hc
    · refine .trans ?_ (ofDelivery _ _)
      exact ofLp b _ _ fun _ => rfl
  · exact BridgeKept.refl b

theorem kept_dispatch (b : Bridge) : BridgeKept b b.dispatch := by
  unfold dispatch
  refine .trans ?_ (ofDelivery _ _)
  refine .trans ?_ (BridgeKept.foldl offerIdle kept_offerIdle _ _)
  refine .trans ?_ (BridgeKept.foldl offerIdle kept_offerIdle _ _)
  exact BridgeKept.foldl offerWaiting kept_offerWaiting _ b

/-! ## The end of a delivery -/

theorem kept_releasePrinter (b : Bridge) (n : DirNo) : BridgeKept b (b.releasePrinter n) :=
  (kept_modPrinter b _ _).trans (kept_unpin _ _)

theorem kept_emptyRecord (b : Bridge) (l : Lp) : BridgeKept b (b.emptyRecord l) := by
  unfold emptyRecord
  refine .trans ?_ (ofDelivery _ _)
  refine .trans ?_ (ofLp _ _ _ fun _ => rfl)
  exact kept_setRecord b _ _

theorem kept_finish (b : Bridge) (l : Lp) (o : JobOutcome) (r : JobReason) : BridgeKept b (b.finish l o r) := by
  unfold finish
  split
  · refine .trans ?_ (kept_dispatch _)
    refine .trans ?_ (kept_endJob _ _ _ _)
    refine .trans ?_ (kept_emptyRecord _ _)
    exact kept_releasePrinter b _
  · exact BridgeKept.refl b

theorem kept_finishCancelled (b : Bridge) (l : Lp) : BridgeKept b (b.finishCancelled l) := by
  unfold finishCancelled
  split
  · exact kept_finish b _ _ _
  · exact BridgeKept.refl b

theorem kept_failover (b : Bridge) (l : Lp) (n : DirNo) : BridgeKept b (b.failover l n) := by
  unfold failover
  dsimp only
  split
  · split
    · exact ofLp b _ _ fun _ => rfl
    · exact BridgeKept.refl b
  · split
    · split
      · exact ofLp b _ _ fun _ => rfl
      · exact BridgeKept.refl b
    · exact BridgeKept.refl b

theorem kept_countDelivery (b : Bridge) (c : Ctr) : BridgeKept b (b.countDelivery c) := ofDelivery b _

theorem kept_stopQuiet (b : Bridge) (l : Lp) : BridgeKept b (b.stopQuiet l) := by
  unfold stopQuiet
  split
  · rename_i d _
    refine (kept_releasePrinter b d.target).trans ((kept_failover _ l d.target).trans ((kept_emptyRecord _ l).trans ?_))
    dsimp only
    split
    · split
      · exact (kept_endJob _ _ _ _).trans (kept_countDelivery _ _)
      · split
        · exact (kept_requeue _ _).trans (kept_countDelivery _ _)
        · exact (kept_endJob _ _ _ _).trans (kept_countDelivery _ _)
    · exact kept_countDelivery _ _
  · exact BridgeKept.refl b

theorem kept_stop (b : Bridge) (l : Lp) : BridgeKept b (b.stop l) := (kept_stopQuiet b l).trans (kept_dispatch _)

theorem kept_setNotResponding (b : Bridge) (n : DirNo) : BridgeKept b (b.setNotResponding n) :=
  kept_modPrinter b n _

theorem kept_resend (b : Bridge) (l : Lp) (t : Nat) : BridgeKept b (b.resend l t) := kept_setRecord b _ _

theorem kept_tryEnds (b : Bridge) (l : Lp) : BridgeKept b (b.tryEnds l) := by
  unfold tryEnds
  split
  · split
    · exact kept_resend b _ _
    · exact (kept_setNotResponding b _).trans ((kept_countDelivery _ _).trans (kept_stop _ _))
  · exact BridgeKept.refl b

/-! ## Handing over -/

theorem kept_newQuestion (b : Bridge) (n : DirNo) (r : Route) : BridgeKept b (b.newQuestion n r).2 := by
  unfold newQuestion
  split
  · exact ofPair b (fun p => { p with question := p.question + 1 }) rfl rfl rfl rfl ⟨[], (List.append_nil _).symm⟩
      fun _ => ⟨rfl, rfl, rfl, id⟩
  · exact ofEntries b _

theorem kept_joinWaiting (b : Bridge) (p : Port) (l : Lp) : BridgeKept b (b.joinWaiting p l) :=
  ofPort b p _ { PortKept.refl (b.port p) with }

theorem kept_joinPairWaiting (b : Bridge) (l : Lp) (h : b.pair.link = true) : BridgeKept b (b.joinPairWaiting l) :=
  ofPair b _ rfl rfl rfl rfl ⟨[], (List.append_nil _).symm⟩ fun e => by simp [h] at e

/-- A pair queue that refuses a frame belongs to a link that is UP. -/
theorem link_of_refused {b c : Bridge} {x : Carrier} {o : Origin} (h : b.sendPair x o = (.refused, c)) : c.pair.link = true := by
  simp only [sendPair, offerPair] at h
  split at h
  · simp at h
  · split at h
    · simp at h
    · rename_i h1 _
      simp only [Prod.mk.injEq, true_and] at h
      subst h
      simpa using h1

theorem kept_offerFrame (b : Bridge) (l : Lp) (d : Delivery) (f : DeliveryFrame) (q : OutSeq) (x : List Byte) :
    BridgeKept b (b.offerFrame l d f q x) := by
  unfold offerFrame
  split
  · rename_i mac _
    have h := kept_sendPair b (deliveryCarrier l d mac q x) (.delivery l)
    dsimp only
    split
    · rename_i c hc
      rw [hc] at h
      exact h.trans (kept_setRecord _ _ _)
    · rename_i c hc
      rw [hc] at h
      have hl : c.pair.link = true := link_of_refused hc
      refine .trans ?_ (kept_joinPairWaiting _ _ hl)
      exact h.trans (kept_setRecord c _ _)
    · rename_i c hc
      rw [hc] at h
      refine .trans ?_ (kept_tryEnds _ _)
      exact h.trans (kept_setRecord c _ _)
  · dsimp only
    split
    · refine .trans ?_ (BridgeKept.foldl (fun b p => b.joinWaiting p l) (fun b p => kept_joinWaiting b p l) _ _)
      refine .trans ?_ (kept_setRecord _ _ _)
      exact kept_sendEach b _ _ _ _
    · refine .trans ?_ (kept_setRecord _ _ _)
      exact kept_sendEach b _ _ _ _

theorem kept_parityError (b : Bridge) (l : Lp) (n : Nat) (k : BlockNo) : BridgeKept b (b.parityError l n k) := by
  unfold parityError
  dsimp only
  refine BridgeKept.trans ?_ (kept_countCapture _ _ (by decide) _ _)
  split
  · exact kept_finishCancelled b l
  · exact kept_finish b l _ _

theorem kept_handOver (m : Store) (b : Bridge) (l : Lp) : BridgeKept b (b.handOver m l) := by
  unfold handOver
  split
  · rename_i d _
    split
    · rename_i f j _ _
      dsimp only
      split
      · exact kept_parityError b _ _ _
      · generalize hc : (if d.pace = 0 then b
            else b.modDelivery fun u => { u with pace := u.pace.set l (u.pace[l] - paceWeight f.count) }) = c
        have h : BridgeKept b c := by
          subst hc
          split
          · exact BridgeKept.refl b
          · exact ofDelivery b _
        refine h.trans ?_
        split
        · exact kept_offerFrame _ _ _ _ _ _
        · refine .trans ?_ (kept_offerFrame _ _ _ _ _ _)
          refine .trans ?_ (kept_modPrinter _ _ _)
          exact kept_newQuestion _ _ _
    · exact BridgeKept.refl b
  · exact BridgeKept.refl b

theorem kept_handOvers (m : Store) : ∀ (k : Nat) (b : Bridge), BridgeKept b (handOvers m k b)
  | 0, b => BridgeKept.refl b
  | k + 1, b => by
    unfold handOvers
    split
    · exact (kept_handOver m b _).trans (kept_handOvers m k _)
    · exact BridgeKept.refl b

theorem kept_handToPhy (b : Bridge) : BridgeKept b b.handToPhy := by
  unfold handToPhy
  split
  · split
    · rename_i hl
      exact ofPair b _ rfl rfl rfl rfl ⟨[], (List.append_nil _).symm⟩ fun e => by simp [hl] at e
    · exact BridgeKept.refl b
  · exact BridgeKept.refl b

/-- The end of a command keeps everything but what deliveries and their notices may change. -/
theorem kept_settle (m : Store) (b : Bridge) : BridgeKept b (b.settle m) := by
  unfold settle driveFault written
  refine .trans ?_ (ofReporting _ _ rfl)
  refine .trans ?_ (ofSpool _ _ rfl rfl fun _ => rfl)
  refine .trans ?_ (kept_handToPhy _)
  refine .trans ?_ (kept_handOvers m _ _)
  exact kept_dispatch b

end Bridge

/-! ## Soundness after a command -/

/-- The FAULT pin's conditions do not read the pin. -/
@[simp] theorem Bridge.faultCondition_driveFault (b : Bridge) : b.driveFault.faultCondition = b.faultCondition := rfl

/-- After a command nothing waits to be written. -/
theorem State.written_after (s : State) (u : List Nat) (b : Bridge) : (s.after u b).written := rfl

/-- After a command the FAULT pin shows its conditions. -/
theorem State.faultSound_after (s : State) (u : List Nat) (b : Bridge) : (s.after u b).faultSound := rfl

/-- After a command the store has its canonical form if it had it before. -/
theorem State.storeSound_after (s : State) (u : List Nat) (b : Bridge) (h : s.storeSound) : (s.after u b).storeSound :=
  storeAfter_wf s.store u b h

end Sys2Proof.Machine
end

