-- ==== Sys2Proof/Laws/Steady.lean ====
section
/-! SUPPORT. The operations that leave the line monitors, the allowances, the settings, the feed states and the link as they are: the
queues, the answers, the exchange table, the spool, the delivery unit, the directory, and what follows a report. One lemma per
operation. -/

namespace Sys2Proof

/-- A feed controller but for its counters. -/
def Feed.bare (f : Feed) : Feed := { f with counters := feedCounters }

/-- The management agent but for its lost answers. -/
def Machine.Agent.bare (a : Machine.Agent) : Machine.Agent := { a with answerLost := 0 }

end Sys2Proof

namespace Sys2Proof.Machine
open Sys2Proof

/-- The bridge with its clock, phase, settings, monitors, allowances, carrier, feed states and link as they were. -/
structure Steady (b c : Bridge) : Prop where
  now : c.ctl.now = b.ctl.now
  phase : c.ctl.phase = b.ctl.phase
  settings : c.settings = b.settings
  mon : ∀ p, (c.port p).mon = (b.port p).mon
  allowance : ∀ p, (c.port p).allowance = (b.port p).allowance
  remainder : ∀ p, (c.port p).remainder = (b.port p).remainder
  carrier : ∀ p, (c.port p).carrier = (b.port p).carrier
  feed : ∀ i, (c.feed i).bare = (b.feed i).bare
  link : c.pair.link = b.pair.link
  toWrite : b.spool.toWrite = [] → c.spool.toWrite = []
  pairDown : b.pair.link = false → PairQuiet b.pair c.pair
  staging : c.dir.staging = b.dir.staging
  agent : c.agent.bare = b.agent.bare
  repeats : c.repeats = b.repeats
  exchanges : b.exchanges = [] → c.exchanges = []
  cause : c.ctl.cause = b.ctl.cause
  waiting : b.ctl.waiting = none → c.ctl.waiting = none

namespace Steady

theorem refl (b : Bridge) : Steady b b := ⟨rfl, rfl, rfl, fun _ => rfl, fun _ => rfl, fun _ => rfl, fun _ => rfl, fun _ => rfl,
  rfl, id, fun _ => PairQuiet.refl _, rfl, rfl, rfl, id, rfl, id⟩

theorem trans {b c d : Bridge} (h : Steady b c) (k : Steady c d) : Steady b d where
  now := k.now.trans h.now
  phase := k.phase.trans h.phase
  settings := k.settings.trans h.settings
  mon p := (k.mon p).trans (h.mon p)
  allowance p := (k.allowance p).trans (h.allowance p)
  remainder p := (k.remainder p).trans (h.remainder p)
  carrier p := (k.carrier p).trans (h.carrier p)
  feed i := (k.feed i).trans (h.feed i)
  link := k.link.trans h.link
  toWrite e := k.toWrite (h.toWrite e)
  pairDown e := (h.pairDown e).trans (k.pairDown (h.link.trans e))
  staging := k.staging.trans h.staging
  agent := k.agent.trans h.agent
  repeats := k.repeats.trans h.repeats
  exchanges e := k.exchanges (h.exchanges e)
  cause := k.cause.trans h.cause
  waiting e := k.waiting (h.waiting e)

/-- What the delivery unit's operations keep is steady. -/
theorem ofKept {b c : Bridge} (h : BridgeKept b c) : Steady b c where
  now := by rw [h.ctl]
  phase := by rw [h.ctl]
  settings := h.settings
  mon p := (h.port p).mon
  allowance p := (h.port p).allowance
  remainder p := (h.port p).remainder
  carrier p := (h.port p).carrier
  feed i := by simp [Bridge.feed, h.feeds]
  link := h.link
  toWrite := h.toWrite
  pairDown := h.pairDown
  staging := h.staging
  agent := by rw [h.agent]
  repeats := h.repeats
  exchanges e := by rw [h.exchanges, e]
  cause := by rw [h.ctl]
  waiting e := by rw [h.ctl, e]

theorem foldl {α : Type} (f : Bridge → α → Bridge) (hf : ∀ b x, Steady b (f b x)) :
    ∀ (l : List α) (b : Bridge), Steady b (l.foldl f b)
  | [], b => refl b
  | x :: l, b => (hf b x).trans (foldl f hf l (f b x))

/-- A change of a port that keeps its monitor, allowance and carrier. -/
theorem ofPort (b : Bridge) (p : Port) (f : PortState → PortState) (hm : (f (b.port p)).mon = (b.port p).mon)
    (ha : (f (b.port p)).allowance = (b.port p).allowance) (hr : (f (b.port p)).remainder = (b.port p).remainder)
    (hc : (f (b.port p)).carrier = (b.port p).carrier) : Steady b (b.modPort p f) := by
  have k : ∀ (α : Type) (g : PortState → α), g (f (b.port p)) = g (b.port p) →
      ∀ q, g ((b.modPort p f).port q) = g (b.port q) := by
    intro α g hg q
    rw [Bridge.port_modPort]
    split
    · rename_i e; subst e; exact hg
    · rfl
  exact { refl b with
    mon := k _ (·.mon) hm, allowance := k _ (·.allowance) ha, remainder := k _ (·.remainder) hr, carrier := k _ (·.carrier) hc }

theorem ofForwarding (b : Bridge) (x : Counters) : Steady b (b.setForwarding x) := { refl b with }
theorem ofExchanges (b : Bridge) (x : List (Nat × Exchange)) (h : b.exchanges = [] → x = []) : Steady b (b.setExchanges x) :=
  { refl b with exchanges := h }
theorem ofReporting (b : Bridge) (f : Reporting → Reporting) : Steady b (b.modReporting f) := { refl b with }
theorem ofAgent (b : Bridge) (f : Agent → Agent) (h : (f b.agent).bare = b.agent.bare) : Steady b (b.modAgent f) :=
  { refl b with agent := h }
theorem ofSpool (b : Bridge) (f : Spool → Spool) (h : b.spool.toWrite = [] → (f b.spool).toWrite = []) :
    Steady b (b.modSpool f) := { refl b with toWrite := h }
theorem ofDir (b : Bridge) (f : Directory → Directory) (h : (f b.dir).staging = b.dir.staging) : Steady b (b.modDir f) :=
  { refl b with staging := h }
theorem ofDelivery (b : Bridge) (f : DeliveryUnit → DeliveryUnit) : Steady b (b.modDelivery f) := { refl b with }

theorem ofPair (b : Bridge) (f : PairPort → PairPort) (h : (f b.pair).link = b.pair.link)
    (hd : b.pair.link = false → PairQuiet b.pair (f b.pair)) : Steady b (b.modPair f) :=
  { refl b with link := h, pairDown := hd }

/-- A change of the reset controller that keeps the clock and the phase. -/
theorem ofCtl (b : Bridge) (x : Control) (hn : x.now = b.ctl.now) (hp : x.phase = b.ctl.phase) (hc : x.cause = b.ctl.cause)
    (hw : b.ctl.waiting = none → x.waiting = none) : Steady b (b.setCtl x) :=
  { refl b with now := hn, phase := hp, cause := hc, waiting := hw }

/-- A count of a feed controller. -/
theorem ofFeed (b : Bridge) (i : PairNo) (f : Feed → Feed) (h : (f (b.feed i)).bare = (b.feed i).bare) : Steady b (b.modFeed i f) :=
  { refl b with
    feed := fun j => by
      by_cases e : i = j
      · subst e; rw [Bridge.feed_modFeed_self]; exact h
      · rw [Bridge.feed_modFeed_ne _ e] }

end Steady

namespace Bridge
open Steady

/-! ## Counts, captures and notices -/

theorem steady_modGroup (b : Bridge) (g : Fin 9) (f : ErrorGroup → ErrorGroup) : Steady b (b.modGroup g f) := ofReporting b _

theorem steady_count (b : Bridge) (g : Fin 9) (c : Ctr) : Steady b (b.count g c) := steady_modGroup b g _

theorem steady_countLine (b : Bridge) (p : Port) (c : Ctr) : Steady b (b.countLine p c) := steady_count b _ c

theorem steady_countForward (b : Bridge) (c : Ctr) : Steady b (b.countForward c) := ofForwarding b _

theorem steady_countFeed (b : Bridge) (i : PairNo) (c : Ctr) : Steady b (b.countFeed i c) := ofFeed b i _ rfl

theorem steady_notify (b : Bridge) (ev : NoticeEvent) : Steady b (b.notify ev) := ofKept (kept_notify b ev)

theorem steady_capture (b : Bridge) (g : Fin 9) (k : Ctr) (d : ErrorDetail) : Steady b (b.capture g k d) := by
  unfold capture
  split
  · exact steady_modGroup b g _
  · dsimp only
    split
    · exact (steady_modGroup b g _).trans (steady_notify _ _)
    · exact steady_modGroup b g _

theorem steady_countCapture (b : Bridge) (g : Fin 9) (k : Ctr) (d : ErrorDetail) : Steady b (b.countCapture g k d) :=
  (steady_count b g k).trans (steady_capture _ g k d)

/-! ## Offers and answers -/

theorem steady_offer0 (b : Bridge) (p : Port) (f : CoaxFrame) : Steady b (b.offer0 p f) := by
  unfold offer0
  split
  · exact ofPort b p _ rfl rfl rfl rfl
  · exact steady_countLine b p _

theorem steady_offer1 (b : Bridge) (p : Port) (f : CoaxFrame) : Steady b (b.offer1 p f) := ofKept (kept_offer1 b p f)

theorem steady_nextSerial (b : Bridge) : Steady b b.nextSerial := ofKept (kept_nextSerial b)

theorem steady_sendEach (b : Bridge) (ps : List Port) (x : Block) (o : Origin) (n : Option Port) :
    Steady b (b.sendEach ps x o n).2 :=
  ofKept (kept_sendEach b ps x o n)

theorem steady_sendPair (b : Bridge) (c : Carrier) (o : Origin) : Steady b (b.sendPair c o).2 := ofKept (kept_sendPair b c o)

theorem steady_answer (b : Bridge) (a : Asker) (x : Answer) (n : Bool) : Steady b (b.answer a x n) := by
  unfold answer
  split
  · dsimp only
    split
    · exact (steady_nextSerial b).trans (steady_offer0 _ _ _)
    · exact (steady_nextSerial b).trans (steady_offer1 _ _ _)
  · rename_i mac dst tag seq e
    have h := steady_sendPair b (answerFrame mac dst tag seq e x) .answer
    split
    · rename_i c hc
      rw [hc] at h
      exact h.trans (steady_count c _ _)
    · rename_i o c _ hc
      rw [hc] at h
      exact h

/-! ## The exchange table -/

theorem steady_closeExchange (b : Bridge) (t : Nat) : Steady b (b.closeExchange t) := by
  unfold closeExchange
  split
  · exact (ofExchanges b _ fun e => by rw [e]; rfl).trans ((ofKept (kept_unpin _ _)).trans (ofKept (kept_unpin _ _)))
  · exact Steady.refl b

theorem steady_failExchange (b : Bridge) (t : Nat) (r : FailReason) : Steady b (b.failExchange t r) := by
  unfold failExchange
  split
  · exact (steady_answer b _ _ _).trans (steady_closeExchange _ _)
  · exact Steady.refl b

theorem steady_modExchange (b : Bridge) (t : Nat) (f : Exchange → Exchange) : Steady b (b.modExchange t f) :=
  ofExchanges b _ fun e => by rw [e]; rfl

theorem steady_sendQuestion (b : Bridge) (t : Nat) : Steady b (b.sendQuestion t).2 := by
  unfold sendQuestion
  split
  · rename_i x _
    refine (steady_modExchange b t fun x => { x with state := .opened .queued, sending := b.serial }).trans ?_
    dsimp only
    split
    · rename_i mac _
      generalize b.modExchange t (fun x => { x with state := .opened .queued, sending := b.serial }) = c
      have h := steady_sendPair c (c.requestFrame t x mac) (.request t)
      split
      · rename_i d hd
        rw [hd] at h
        exact h
      · rename_i o d _ hd
        rw [hd] at h
        exact h
    · exact steady_sendEach _ _ _ _ _
  · exact Steady.refl b

theorem steady_resendQuestion (b : Bridge) (t : Nat) : Steady b (b.resendQuestion t) := by
  unfold resendQuestion
  have h := steady_sendQuestion b t
  split
  · rename_i c hc
    rw [hc] at h
    exact h
  · rename_i c hc
    rw [hc] at h
    exact h.trans (steady_failExchange c t _)

theorem steady_questionUnanswered (b : Bridge) (t : Nat) : Steady b (b.questionUnanswered t) := by
  unfold questionUnanswered
  split
  · split
    · exact (steady_modExchange b t _).trans (steady_resendQuestion _ t)
    · exact (steady_failExchange b t _).trans (steady_count _ _ _)
  · exact Steady.refl b

theorem steady_questionSent (b : Bridge) (t n : Nat) (p : Bool) : Steady b (b.questionSent t n p) := by
  unfold questionSent
  split
  · exact steady_modExchange b t _
  · exact Steady.refl b

theorem steady_questionNotSent (b : Bridge) (t n : Nat) : Steady b (b.questionNotSent t n) := by
  unfold questionNotSent
  split
  · exact steady_questionUnanswered b t
  · exact Steady.refl b

theorem steady_exchangeLoss (b : Bridge) (f : Route → Bool) (t : Nat) : Steady b (b.exchangeLoss f t) := by
  unfold exchangeLoss
  split
  · dsimp only
    split
    · refine Steady.trans ?_ (steady_count _ _ _)
      split
      · exact steady_failExchange b t _
      · exact steady_closeExchange b t
    · exact Steady.refl b
  · exact Steady.refl b

theorem steady_exchangeLosses (b : Bridge) (f : Route → Bool) : Steady b (b.exchangeLosses f) :=
  Steady.foldl (fun b t => b.exchangeLoss f t) (fun b t => steady_exchangeLoss b f t) _ b

/-! ## The delivery unit -/

theorem steady_deliveryLosses (b : Bridge) (f : Route → Bool) : Steady b (b.deliveryLosses f) :=
  Steady.foldl _ (fun b l => by
    split
    · exact ofKept (kept_stop b l)
    · exact Steady.refl b) _ b

theorem steady_deliveryNotSent (b : Bridge) (l : Lp) (n : Nat) : Steady b (b.deliveryNotSent l n) := by
  unfold deliveryNotSent
  split
  · exact ofKept (kept_tryEnds b l)
  · exact Steady.refl b

theorem steady_queryNotSent (b : Bridge) (n : DirNo) (k : Nat) : Steady b (b.queryNotSent n k) :=
  ofKept (kept_modPrinter b n _)

theorem steady_listedFlushed (b : Bridge) (p : Port) (l : Lp) : Steady b (b.listedFlushed p l) := by
  unfold listedFlushed
  split
  · exact ofKept (kept_tryEnds b l)
  · exact Steady.refl b

theorem steady_listedPairFlushed (b : Bridge) (l : Lp) : Steady b (b.listedPairFlushed l) := by
  unfold listedPairFlushed
  split
  · exact ofKept (kept_tryEnds b l)
  · exact Steady.refl b

theorem steady_offerPlace (b : Bridge) (p : Port) : ∀ l : List Lp, Steady b (b.offerPlace p l)
  | [] => ofPort b p _ rfl rfl rfl rfl
  | l :: rest => by
    unfold offerPlace
    split
    · refine Steady.trans ?_ (ofKept (kept_setRecord _ _ _))
      refine Steady.trans ?_ (steady_offer1 _ _ _)
      exact ofPort b p _ rfl rfl rfl rfl
    · exact steady_offerPlace b p rest

theorem steady_offerPairPlace (b : Bridge) (h : b.pair.link = true) : ∀ l : List Lp, Steady b (b.offerPairPlace l)
  | [] => ofPair b _ rfl fun e => by simp [h] at e
  | l :: rest => by
    unfold offerPairPlace
    split
    · refine Steady.trans ?_ (ofKept (kept_setRecord _ _ _))
      refine Steady.trans ?_ (ofKept (kept_offerPair _ _))
      exact ofPair b _ rfl fun e => by simp [h] at e
    · exact steady_offerPairPlace b h rest

/-! ## Reports -/

theorem steady_answerReported (b : Bridge) (n : Nat) : Steady b (b.answerReported n) :=
  ofCtl b _ rfl rfl rfl fun e => by simp [e]

theorem steady_lossReport (b : Bridge) (c : LossCause) (o : Origin) (n : Nat) : Steady b (b.lossReport c o n) := by
  unfold lossReport
  split
  · split
    · exact steady_countForward b _
    · exact Steady.refl b
  · exact steady_countFeed b _ _
  · exact steady_questionNotSent b _ _
  · exact steady_deliveryNotSent b _ _
  · exact steady_queryNotSent b _ _
  · exact (ofAgent b _ rfl).trans (steady_answerReported _ _)
  · exact ofReporting b _
  · exact steady_count b _ _
  · exact Steady.refl b

theorem steady_frameLost (b : Bridge) (c : LossCause) (f : CoaxFrame) : Steady b (b.frameLost c f) := by
  unfold frameLost
  split
  · exact Steady.refl b
  · exact steady_lossReport b c _ _

theorem steady_framesFlushed : ∀ (l : List CoaxFrame) (b : Bridge), Steady b (b.framesFlushed l)
  | [], b => Steady.refl b
  | f :: rest, b => by
    unfold framesFlushed
    split
    · exact steady_framesFlushed rest b
    · exact (steady_frameLost b _ f).trans (steady_framesFlushed rest _)

theorem steady_pairFrameLost (b : Bridge) (f : PairFrame) : Steady b (b.pairFrameLost f) := by
  unfold pairFrameLost
  split
  · exact Steady.refl b
  · exact steady_lossReport b _ _ _

theorem steady_reportFlush (b : Bridge) (l : List Flush) : Steady b (b.reportFlush l) :=
  (steady_framesFlushed _ b).trans
    (Steady.foldl (fun (b : Bridge) (x : Flush) => x.waiting.foldl (fun b w => b.listedFlushed x.port w) b)
      (fun b x => Steady.foldl (fun b w => b.listedFlushed x.port w) (fun b w => steady_listedFlushed b x.port w) _ b) _ _)

theorem steady_refreshReach (b : Bridge) : Steady b b.refreshReach := by
  unfold refreshReach
  exact (ofDelivery b _).trans (ofDir _ _ rfl)

theorem steady_feedNotice (b : Bridge) (i : PairNo) (s : FeedState) : Steady b (b.feedNotice i s) := by
  unfold feedNotice
  split
  · exact steady_notify b _
  · exact Steady.refl b

/-- The conclusion of a change leaves the change as it is: what it does is on the far side of the reports. -/
theorem steady_concludeChange (b before : Bridge) (l : List Flush) : Steady b (b.concludeChange before l) := by
  unfold concludeChange
  dsimp only
  refine Steady.trans ?_ (steady_reportFlush _ l)
  refine Steady.trans ?_ (steady_feedNotice _ 1 _)
  refine Steady.trans ?_ (steady_feedNotice _ 0 _)
  refine (steady_refreshReach b).trans ?_
  split
  · exact Steady.refl _
  · exact (steady_exchangeLosses _ _).trans (steady_deliveryLosses _ _)

theorem steady_settle (m : Store) (b : Bridge) : Steady b (b.settle m) := ofKept (kept_settle m b)

/-- A frame that leaves a class, but for its reports. -/
theorem steady_removeHead (b : Bridge) (p : Port) (c : Bool) : Steady b (b.removeHead p c) := by
  unfold removeHead
  split
  · exact ofPort b p _ rfl rfl rfl rfl
  · exact (ofPort b p _ rfl rfl rfl rfl).trans (steady_offerPlace _ p _)

theorem steady_sendReport (b : Bridge) (o : Origin) (n : Nat) (p : Bool) : Steady b (b.sendReport o n p) := by
  unfold sendReport
  dsimp only
  split
  · exact steady_questionSent b _ _ _
  · exact ofKept (kept_setRecord b _ _)
  · exact ofKept (kept_modPrinter b _ _)
  · exact steady_answerReported b _
  · exact Steady.refl b

end Bridge

end Sys2Proof.Machine
end

