-- ==== Sys2Proof/Laws/Line.lean ====
section
/-! SUPPORT. What the line monitors' and the feed controllers' operations keep: the clock, the phase, the settings, the allowances
within their caps, and nothing left to write; and what each does to the line monitors. One lemma per operation. -/

namespace Sys2Proof.Machine
open Sys2Proof

/-- The bridge with its clock, phase, settings, link, staging area, repeat memory and agent but for its lost answers as they were, no
allowance taken out of its cap, and nothing more to write. -/
structure Lawful (b c : Bridge) : Prop where
  now : c.ctl.now = b.ctl.now
  phase : c.ctl.phase = b.ctl.phase
  cause : c.ctl.cause = b.ctl.cause
  settings : c.settings = b.settings
  link : c.pair.link = b.pair.link
  staging : c.dir.staging = b.dir.staging
  agent : c.agent.bare = b.agent.bare
  repeats : c.repeats = b.repeats
  toWrite : b.spool.toWrite = [] → c.spool.toWrite = []
  allowance : ∀ p, (b.port p).allowance ≤ (b.portSettings p).cap → (c.port p).allowance ≤ (c.portSettings p).cap
  remainder : ∀ p, (b.port p).remainder < 100 → (c.port p).remainder < 100
  full : ∀ p, (b.port p).allowance = (b.portSettings p).cap ∧ (b.port p).remainder = 0 →
    (c.port p).allowance = (c.portSettings p).cap ∧ (c.port p).remainder = 0

namespace Lawful

theorem refl (b : Bridge) : Lawful b b := ⟨rfl, rfl, rfl, rfl, rfl, rfl, rfl, rfl, id, fun _ => id, fun _ => id, fun _ => id⟩

theorem trans {b c d : Bridge} (h : Lawful b c) (k : Lawful c d) : Lawful b d where
  now := k.now.trans h.now
  phase := k.phase.trans h.phase
  cause := k.cause.trans h.cause
  settings := k.settings.trans h.settings
  link := k.link.trans h.link
  staging := k.staging.trans h.staging
  agent := k.agent.trans h.agent
  repeats := k.repeats.trans h.repeats
  toWrite e := k.toWrite (h.toWrite e)
  allowance p e := k.allowance p (h.allowance p e)
  remainder p e := k.remainder p (h.remainder p e)
  full p e := k.full p (h.full p e)

/-- What is steady is lawful. -/
theorem ofSteady {b c : Bridge} (h : Steady b c) : Lawful b c where
  now := h.now
  phase := h.phase
  cause := h.cause
  settings := h.settings
  link := h.link
  staging := h.staging
  agent := h.agent
  repeats := h.repeats
  toWrite := h.toWrite
  allowance p e := by rw [h.allowance, Bridge.portSettings, h.settings]; exact e
  remainder p e := by rw [h.remainder]; exact e
  full p e := by rw [h.allowance, h.remainder, Bridge.portSettings, h.settings]; exact e

theorem ofKept {b c : Bridge} (h : BridgeKept b c) : Lawful b c := ofSteady (.ofKept h)

theorem foldl {α : Type} (f : Bridge → α → Bridge) (hf : ∀ b x, Lawful b (f b x)) :
    ∀ (l : List α) (b : Bridge), Lawful b (l.foldl f b)
  | [], b => refl b
  | x :: l, b => (hf b x).trans (foldl f hf l (f b x))

/-- A fold that carries a list beside the bridge. -/
theorem foldlPair {α β : Type} (f : β × Bridge → α → β × Bridge) (hf : ∀ y x, Lawful y.2 (f y x).2) :
    ∀ (l : List α) (y : β × Bridge), Lawful y.2 (l.foldl f y).2
  | [], y => refl y.2
  | x :: l, y => (hf y x).trans (foldlPair f hf l (f y x))

/-- A change of a port that keeps its allowance within its cap. -/
theorem ofPort (b : Bridge) (p : Port) (f : PortState → PortState)
    (ha : (b.port p).allowance ≤ (b.portSettings p).cap → (f (b.port p)).allowance ≤ (b.portSettings p).cap)
    (hr : (b.port p).remainder < 100 → (f (b.port p)).remainder < 100)
    (hf : (b.port p).allowance = (b.portSettings p).cap ∧ (b.port p).remainder = 0 →
      (f (b.port p)).allowance = (b.portSettings p).cap ∧ (f (b.port p)).remainder = 0) : Lawful b (b.modPort p f) :=
  { refl b with
    allowance := fun q e => by
      rw [Bridge.port_modPort]
      split
      · rename_i h; subst h; exact ha e
      · exact e
    remainder := fun q e => by
      rw [Bridge.port_modPort]
      split
      · rename_i h; subst h; exact hr e
      · exact e
    full := fun q e => by
      rw [Bridge.port_modPort]
      split
      · rename_i h; subst h; exact hf e
      · exact e }

theorem ofMon (b : Bridge) (p : Port) (f : Monitor → Monitor) : Lawful b (b.modMon p f) := ofPort b p _ id id id
theorem ofFeed (b : Bridge) (i : PairNo) (f : Feed → Feed) : Lawful b (b.modFeed i f) := { refl b with }
theorem ofEntries (b : Bridge) (f : Entries → Entries) : Lawful b (b.modEntries f) := { refl b with }
theorem ofAgent (b : Bridge) (f : Agent → Agent) (h : (f b.agent).bare = b.agent.bare) : Lawful b (b.modAgent f) :=
  { refl b with agent := h }
theorem ofPair (b : Bridge) (f : PairPort → PairPort) (h : (f b.pair).link = b.pair.link) : Lawful b (b.modPair f) :=
  { refl b with link := h }
theorem ofExchanges (b : Bridge) (x : List (Nat × Exchange)) : Lawful b (b.setExchanges x) := { refl b with }
theorem ofDelivery (b : Bridge) (f : DeliveryUnit → DeliveryUnit) : Lawful b (b.modDelivery f) := { refl b with }
theorem ofReporting (b : Bridge) (f : Reporting → Reporting) : Lawful b (b.modReporting f) := { refl b with }
theorem ofForwarding (b : Bridge) (x : Counters) : Lawful b (b.setForwarding x) := { refl b with }
theorem ofSpool (b : Bridge) (f : Spool → Spool) (h : b.spool.toWrite = [] → (f b.spool).toWrite = []) :
    Lawful b (b.modSpool f) := { refl b with toWrite := h }

/-- A change of the reset controller that keeps the clock, the phase and the cause. -/
theorem ofCtl (b : Bridge) (x : Control) (hn : x.now = b.ctl.now) (hp : x.phase = b.ctl.phase) (hc : x.cause = b.ctl.cause) :
    Lawful b (b.setCtl x) := { refl b with now := hn, phase := hp, cause := hc }

end Lawful

namespace Bridge
open Lawful

/-! ## Changes of port state and of feed state -/

theorem lawful_takeFlush (b : Bridge) (p : Port) : Lawful b (b.takeFlush p).2 := by
  unfold takeFlush
  dsimp only
  exact ofPort b p _ id id id

theorem lawful_fullAllowance (b : Bridge) (p : Port) : Lawful b (b.fullAllowance p) :=
  ofPort b p _ (fun _ => Nat.le_refl _) (fun _ => Nat.zero_lt_succ _) fun _ => ⟨rfl, rfl⟩

theorem lawful_clearEnds (b : Bridge) (p : Port) : Lawful b (b.clearEnds p) := by
  unfold clearEnds
  exact ofEntries b _

theorem lawful_changeFeed (b : Bridge) (i : PairNo) (g : Feed → Feed) : Lawful b (b.changeFeed i g).2 := by
  unfold changeFeed
  dsimp only
  refine Lawful.trans ?_ (foldlPair (fun (y : List Flush × Bridge) (p : Port) => (y.1 ++ [(y.2.takeFlush p).1], (y.2.takeFlush p).2))
    (fun y p => lawful_takeFlush y.2 p) _ ([], _))
  refine Lawful.trans ?_ (foldl _ (fun b p => lawful_fullAllowance b p) _ _)
  refine (ofFeed b i g).trans ?_
  split
  · split
    · exact foldl _ (fun b p => ofMon b p _) _ _
    · exact lawful_clearEnds _ _
  · exact Lawful.refl _

theorem lawful_follow (b : Bridge) (i : PairNo) : Lawful b (b.follow i).2 := by
  unfold follow
  dsimp only
  split
  · exact Lawful.refl b
  · split
    · split
      · exact Lawful.refl b
      · exact lawful_changeFeed b i _
    · split
      · exact Lawful.refl b
      · exact ofFeed b i _
      · exact ofFeed b i fun f => { f with window := .switch }
      · exact lawful_changeFeed b i _

theorem lawful_concludeChange (b before : Bridge) (l : List Flush) : Lawful b (b.concludeChange before l) :=
  ofSteady (steady_concludeChange b before l)

theorem lawful_changeState (b : Bridge) (p : Port) (s : PortMode) : Lawful b (b.changeState p s) := by
  unfold changeState
  dsimp only
  split
  · exact Lawful.refl b
  · refine Lawful.trans ?_ (lawful_concludeChange _ b _)
    refine Lawful.trans ?_ (lawful_follow _ (pairOf p))
    have h : Lawful b (if s = .active then (b.modMon p (Monitor.enter b.now s)).fullAllowance p else b.modMon p (Monitor.enter b.now s)) := by
      split
      · exact (ofMon b p _).trans (lawful_fullAllowance _ p)
      · exact ofMon b p _
    split
    · exact h.trans (lawful_takeFlush _ p)
    · exact h

theorem lawful_feedEvent (b : Bridge) (i : PairNo) (g : Feed → Feed) : Lawful b (b.feedEvent i g) :=
  (lawful_changeFeed b i g).trans (lawful_concludeChange _ b _)

theorem lawful_tellOpen (b : Bridge) (p : Port) : Lawful b (b.tellOpen p) := by
  unfold tellOpen
  dsimp only
  split
  · exact ofFeed b _ _
  · exact Lawful.refl b

theorem lawful_offerPlace (b : Bridge) (p : Port) (l : List Lp) : Lawful b (b.offerPlace p l) := ofSteady (steady_offerPlace b p l)

theorem lawful_redistribute (b : Bridge) (p q : Port) : Lawful b (b.redistribute p q).2 := by
  unfold redistribute
  dsimp only
  refine Lawful.trans ?_ (foldl _ (fun b _ => lawful_offerPlace b p _) _ _)
  exact (ofPort b p _ id id id).trans (ofPort _ q _ id id id)

theorem lawful_splitNow (b : Bridge) (i : PairNo) : Lawful b (b.splitNow i) := by
  unfold splitNow
  dsimp only
  refine Lawful.trans ?_ (lawful_concludeChange _ b _)
  exact ((lawful_changeFeed b i _).trans (lawful_redistribute _ _ _)).trans (ofFeed _ i _)

theorem lawful_refreshReach (b : Bridge) : Lawful b b.refreshReach := ofSteady (steady_refreshReach b)

/-! ## The two ends of a pair -/

theorem lowerOf_ne_upperOf (i : PairNo) : lowerOf i ≠ upperOf i := by revert i; decide
@[simp] theorem pairOf_lowerOf (i : PairNo) : pairOf (lowerOf i) = i := by revert i; decide
@[simp] theorem pairOf_upperOf (i : PairNo) : pairOf (upperOf i) = i := by revert i; decide

/-- A pair's ports are its two ends. -/
theorem end_of_pair (p : Port) (i : PairNo) (h : pairOf p = i) : p = lowerOf i ∨ p = upperOf i := by
  revert i p; decide

/-- What a port may do does not change with what its queues, timers and allowance hold. -/
theorem canTransmit_modPort (b : Bridge) (p q : Port) (f : PortState → PortState)
    (h : (f (b.port p)).mon.state = (b.port p).mon.state) : (b.modPort p f).canTransmit q = b.canTransmit q := by
  unfold canTransmit mon paired
  rw [port_modPort]
  split
  · rename_i e; subst e; rw [h]; rfl
  · rfl

theorem canTransmit_fullAllowance (b : Bridge) (p q : Port) : (b.fullAllowance p).canTransmit q = b.canTransmit q :=
  canTransmit_modPort _ _ _ _ rfl

theorem canTransmit_takeFlush (b : Bridge) (p q : Port) : (b.takeFlush p).2.canTransmit q = b.canTransmit q :=
  canTransmit_modPort _ _ _ _ rfl

theorem port_fullAllowance (b : Bridge) (p q : Port) :
    (b.fullAllowance p).port q =
      if p = q then { b.port p with allowance := (b.portSettings p).cap, remainder := 0 } else b.port q := by
  unfold fullAllowance
  rw [port_modPort]
  split
  · rename_i e; subst e; rfl
  · rfl

theorem port_takeFlush (b : Bridge) (p q : Port) :
    (b.takeFlush p).2.port q =
      if p = q then
        { b.port p with class0 := [], class1 := [], attempt := none, backoff := none, waiting := [],
                        quietFrom := if b.driving p then b.now else (b.port p).quietFrom }
      else b.port q := by
  unfold takeFlush
  dsimp only
  rw [port_modPort]
  split
  · rename_i e; subst e; rfl
  · rfl

/-- The entries after every end of a segment has become UNKNOWN (R174). -/
theorem entry_clearEnds (b : Bridge) (l : Port) (n : DirNo) :
    (b.clearEnds l).entry n = (b.entry n).map fun e =>
      match e.home with
      | .seg p _ => if p = l then { e with endField := some .unknown } else e
      | _ => e := by
  unfold clearEnds entry modEntries modDir setDir
  dsimp only
  induction b.dir.entries with
  | nil => rfl
  | cons x rest ih =>
    obtain ⟨k, e⟩ := x
    simp only [List.map]
    cases h : e.home <;> simp only [look, h]
    all_goals (try split)
    all_goals (by_cases hk : k = n <;> simp_all [look])

/-! ## What they do to the line monitors -/

theorem mon_fullAllowance (b : Bridge) (p q : Port) : (b.fullAllowance p).mon q = b.mon q := by
  unfold fullAllowance mon
  rw [port_modPort]
  split
  · rename_i h; subst h; rfl
  · rfl

theorem mon_takeFlush (b : Bridge) (p q : Port) : (b.takeFlush p).2.mon q = b.mon q := by
  unfold takeFlush mon
  dsimp only
  rw [port_modPort]
  split
  · rename_i h; subst h; rfl
  · rfl

/-- A change of feed state other than into SPLIT leaves the line monitors as they are. -/
theorem mon_changeFeed (b : Bridge) (i : PairNo) (g : Feed → Feed) (h : (g (b.feed i)).state ≠ .split) (q : Port) :
    (b.changeFeed i g).2.mon q = b.mon q := by
  have hf : ∀ (l : List Port) (y : List Flush × Bridge),
      (l.foldl (fun (y : List Flush × Bridge) p => let x := y.2.takeFlush p; (y.1 ++ [x.1], x.2)) y).2.mon q = y.2.mon q := by
    intro l
    induction l with
    | nil => intro y; rfl
    | cons p l ih => intro y; rw [List.foldl_cons, ih]; exact mon_takeFlush _ _ _
  have ha : ∀ (l : List Port) (c : Bridge), (l.foldl fullAllowance c).mon q = c.mon q := by
    intro l
    induction l with
    | nil => intro c; rfl
    | cons p l ih => intro c; rw [List.foldl_cons, ih]; exact mon_fullAllowance _ _ _
  unfold changeFeed
  dsimp only
  rw [hf]
  dsimp only
  rw [ha]
  simp only [feed_modFeed_self, h, if_false]
  split <;> rfl

/-- The feed controllers after a change of one of them. -/
theorem feed_changeFeed (b : Bridge) (i j : PairNo) (g : Feed → Feed) : (b.changeFeed i g).2.feed j = (b.modFeed i g).feed j := by
  have hf : ∀ (l : List Port) (y : List Flush × Bridge),
      (l.foldl (fun (y : List Flush × Bridge) p => let x := y.2.takeFlush p; (y.1 ++ [x.1], x.2)) y).2.feed j = y.2.feed j := by
    intro l
    induction l with
    | nil => intro y; rfl
    | cons p l ih => intro y; rw [List.foldl_cons, ih]; rfl
  have ha : ∀ (l : List Port) (c : Bridge), (l.foldl fullAllowance c).feed j = c.feed j := by
    intro l
    induction l with
    | nil => intro c; rfl
    | cons p l ih => intro c; rw [List.foldl_cons, ih]; rfl
  have hm : ∀ (l : List Port) (c : Bridge), (l.foldl (fun b p => b.modMon p fun m => { m with echo := 0 }) c).feed j = c.feed j := by
    intro l
    induction l with
    | nil => intro c; rfl
    | cons p l ih => intro c; rw [List.foldl_cons, ih]; rfl
  unfold changeFeed
  dsimp only
  rw [hf]
  dsimp only
  rw [ha]
  split
  · split
    · exact hm _ _
    · rfl
  · rfl

/-- No report of its ends takes a feed controller into SPLIT (R174, R176). -/
theorem feedMove_ne_split (f : Feed) (a c : Bool) : feedMove f a c ≠ .go .split := by
  unfold feedMove
  repeat' split
  all_goals simp

/-- A report of a pair's ends leaves the line monitors as they are. -/
theorem mon_follow (b : Bridge) (i : PairNo) (q : Port) : (b.follow i).2.mon q = b.mon q := by
  unfold follow
  dsimp only
  split
  · rfl
  · split
    · split
      · rfl
      · refine mon_changeFeed b i _ ?_ q
        unfold Feed.endWait Feed.enter
        dsimp only
        split
        · simp
        · split <;> simp
    · split
      · rfl
      · rfl
      · rfl
      · rename_i s h
        refine mon_changeFeed b i _ ?_ q
        rintro rfl
        exact feedMove_ne_split _ _ _ h

/-- The conclusion of a change leaves the line monitors as they are. -/
theorem mon_concludeChange (b before : Bridge) (l : List Flush) (q : Port) : (b.concludeChange before l).mon q = b.mon q :=
  (steady_concludeChange b before l).mon q

/-- The line monitors after a change of port state. -/
theorem mon_changeState (b : Bridge) (p : Port) (s : PortMode) (q : Port) :
    (b.changeState p s).mon q = if p = q ∧ s ≠ (b.mon p).state then Monitor.enter b.now s (b.mon p) else b.mon q := by
  unfold changeState
  dsimp only
  split
  · rename_i h; simp [h]
  · rename_i h
    rw [mon_concludeChange, mon_follow]
    have hc : (if s = .active then (b.modMon p (Monitor.enter b.now s)).fullAllowance p else b.modMon p (Monitor.enter b.now s)).mon q
        = (b.modMon p (Monitor.enter b.now s)).mon q := by
      split
      · exact mon_fullAllowance _ _ _
      · rfl
    have hd : (b.modMon p (Monitor.enter b.now s)).mon q
        = if p = q ∧ s ≠ (b.mon p).state then Monitor.enter b.now s (b.mon p) else b.mon q := by
      by_cases e : p = q
      · subst e; simp [h]
      · simp [e]
    split
    · dsimp only; rw [mon_takeFlush, hc, hd]
    · dsimp only; rw [hc, hd]

/-- A port that enters ACTIVE has its allowance at its cap (R96). -/
theorem full_changeState (b : Bridge) (p : Port) (h : (b.mon p).state ≠ .active) :
    ((b.changeState p .active).port p).allowance = ((b.changeState p .active).portSettings p).cap
      ∧ ((b.changeState p .active).port p).remainder = 0 := by
  unfold changeState
  dsimp only
  rw [if_neg (fun e => h e.symm)]
  refine (lawful_concludeChange _ _ _).full p ((lawful_follow _ _).full p ?_)
  simp only [if_true]
  split
  · exact (lawful_takeFlush _ p).full p ⟨by simp [fullAllowance, portSettings], by simp [fullAllowance]⟩
  · exact ⟨by simp [fullAllowance, portSettings], by simp [fullAllowance]⟩

theorem mon_tellOpen (b : Bridge) (p q : Port) : (b.tellOpen p).mon q = b.mon q := by
  unfold tellOpen
  dsimp only
  split <;> rfl

/-! ## The line monitor -/

theorem lawful_isolate (b : Bridge) (p : Port) (k : FaultKind) : Lawful b (b.isolate p k) :=
  (ofMon b p _).trans (lawful_changeState _ p _)

theorem lawful_latch (b : Bridge) (p : Port) (k : FaultKind) : Lawful b (b.latch p k) := by
  unfold latch
  split
  · exact Lawful.refl b
  · exact (ofMon b p _).trans (ofSteady (steady_capture _ _ _ _))

theorem lawful_notify (b : Bridge) (ev : NoticeEvent) : Lawful b (b.notify ev) := ofSteady (steady_notify b ev)

theorem lawful_detect (b : Bridge) (p : Port) (k : FaultKind) (f : Bridge → Bridge) (hf : ∀ b, Lawful b (f b)) :
    Lawful b (b.detect p k f) := by
  unfold detect
  dsimp only
  have h : Lawful b (f ((b.countLine p (faultCtr k)).latch p k)) :=
    ((ofSteady (steady_countLine b p _)).trans (lawful_latch _ p k)).trans (hf _)
  split
  · exact h.trans (lawful_notify _ _)
  · exact h

theorem lawful_recoveries (b : Bridge) (p : Port) (l : List FaultKind) : Lawful b (b.recoveries p l) := by
  unfold recoveries
  refine foldl _ (fun b k => ?_) l b
  split
  · exact lawful_notify _ _
  · exact Lawful.refl _

theorem lawful_leaveHold (b : Bridge) (p : Port) (l : List FaultKind) : Lawful b (b.leaveHold p l) := by
  unfold leaveHold
  dsimp only
  refine Lawful.trans ?_ (lawful_recoveries _ p l)
  have h := foldl (fun (b : Bridge) k => b.modMon p (Monitor.releases k (b.portSettings p).sampling)) (fun b k => ofMon b p _) l b
  split
  · exact h.trans (lawful_changeState _ p _)
  · exact h

theorem lawful_testOpen (b : Bridge) (p : Port) : Lawful b (b.testOpen p) := by
  unfold testOpen
  split
  · exact (lawful_changeState b p _).trans (lawful_tellOpen _ p)
  · split
    · exact lawful_isolate b p _
    · exact lawful_changeState b p _

theorem lawful_testResult (b : Bridge) (p : Port) (r : TestResult) : Lawful b (b.testResult p r) := by
  unfold testResult
  dsimp only
  refine (ofMon b p fun m => { m with testOwed := false }).trans ?_
  split
  · exact lawful_changeState _ p _
  · exact lawful_detect _ p _ _ fun b => lawful_isolate b p _
  · exact (ofFeed _ _ _).trans (lawful_detect _ p _ _ fun b => lawful_testOpen b p)

theorem lawful_interruptTest (b : Bridge) (p : Port) : Lawful b (b.interruptTest p) := by
  unfold interruptTest
  split
  · exact ofMon b p _
  · exact ((ofMon b p _).trans (ofSteady (steady_countCapture _ _ _ _))).trans (lawful_changeState _ p _)

theorem lawful_echoOpen (b : Bridge) (p : Port) : Lawful b (b.echoOpen p) := by
  unfold echoOpen
  split
  · exact lawful_tellOpen b p
  · split
    · exact lawful_isolate b p _
    · exact Lawful.refl b

theorem lawful_measureEcho (b : Bridge) (p : Port) (a : Nat) : Lawful b (b.measureEcho p a) := by
  unfold measureEcho
  dsimp only
  refine (ofMon b p fun m => { m with echoDue := false }).trans ?_
  split
  · exact ofMon _ p _
  · split
    · split
      · exact ofMon _ p _
      · exact (ofMon _ p _).trans (lawful_detect _ p _ _ fun b => lawful_echoOpen b p)
    · exact ofMon _ p _

theorem lawful_lowSignal (b : Bridge) (p : Port) : Lawful b (b.lowSignal p) := by
  unfold lowSignal
  refine (ofMon b p _).trans (lawful_detect _ p _ _ fun b => ?_)
  split
  · exact lawful_isolate b p _
  · exact Lawful.refl b

theorem lawful_runCount (b : Bridge) (p : Port) (n : Nat) : Lawful b (b.runCount p n) := by
  unfold runCount
  dsimp only
  split
  · split
    · exact lawful_lowSignal b p
    · exact ofMon b p _
  · split
    · exact (ofMon b p fun m => { m with lowRun := 0 }).trans (lawful_leaveHold _ p _)
    · exact ofMon b p fun m => { m with lowRun := 0 }

theorem lawful_degradedFlag (b : Bridge) (p : Port) : Lawful b (b.degradedFlag p) := by
  unfold degradedFlag
  dsimp only
  split
  · split
    · have h := (ofMon b p fun m => { m with degraded := true }).trans (ofSteady (steady_countLine _ p .degraded))
      split
      · exact h.trans (lawful_notify _ _)
      · exact h
    · split
      · exact ofMon b p _
      · exact Lawful.refl b
  · exact Lawful.refl b

theorem lawful_markSampled (b : Bridge) (p : Port) : Lawful b (b.markSampled p) := ofPort b p _ id id id

theorem lawful_takeSample (b : Bridge) (p : Port) (w : Option Nat) : Lawful b (b.takeSample p w) := by
  have h : Lawful b (if (b.wireAmplitude p w).isSome then b.markSampled p else b) := by
    split
    · exact lawful_markSampled b p
    · exact Lawful.refl b
  unfold takeSample
  dsimp only
  generalize (if (b.wireAmplitude p w).isSome then b.markSampled p else b) = c at h ⊢
  refine h.trans ((ofMon c p fun m => { m with lastAmp := none, lastSample := c.now }).trans ?_)
  split
  · exact ((ofMon _ p _).trans (lawful_runCount _ p _)).trans (lawful_degradedFlag _ p)
  · exact Lawful.refl _

theorem lawful_disablePort (b : Bridge) (p : Port) : Lawful b (b.disablePort p) := (ofMon b p _).trans (lawful_changeState _ p _)

theorem lawful_enablePort (b : Bridge) (p : Port) : Lawful b (b.enablePort p) := (ofMon b p _).trans (lawful_changeState _ p _)

theorem lawful_clearFaults (b : Bridge) (p : Port) (k : FaultSet) : Lawful b (b.clearFaults p k) := by
  unfold clearFaults
  dsimp only
  split
  · exact ofMon b p _
  · exact ((ofMon b p _).trans (ofMon _ p _)).trans (lawful_leaveHold _ p _)

/-! ## What the monitor's own operations do to the monitor -/

theorem mon_notify (b : Bridge) (ev : NoticeEvent) (q : Port) : (b.notify ev).mon q = b.mon q := (steady_notify b ev).mon q

theorem mon_latch (b : Bridge) (p : Port) (k : FaultKind) (q : Port) :
    (b.latch p k).mon q = (b.modMon p fun m => { m with latched := FaultSet.put m.latched k true }).mon q := by
  unfold latch
  split
  · rename_i h
    by_cases e : p = q
    · subst e
      rw [mon_modMon_self]
      have h' : FaultSet.put (b.mon p).latched k true = (b.mon p).latched := by
        revert h
        cases k <;> cases (b.mon p).latched <;> simp [FaultSet.has, FaultSet.put]
      rw [h']
    · simp [e]
  · exact (steady_capture _ _ _ _).mon q

/-- After a detection the monitors are those its response leaves. -/
theorem mon_detect (b : Bridge) (p : Port) (k : FaultKind) (f : Bridge → Bridge) (q : Port) :
    (b.detect p k f).mon q = (f ((b.countLine p (faultCtr k)).latch p k)).mon q := by
  unfold detect
  dsimp only
  split
  · exact mon_notify _ _ _
  · rfl

/-- An isolated port holds the cause and is ISOLATED (R157). -/
theorem mon_isolate (b : Bridge) (p : Port) (k : FaultKind) :
    (b.isolate p k).mon p = if (b.mon p).state = .isolated then Monitor.holds k (b.portSettings p).sampling (b.mon p)
      else Monitor.enter b.now .isolated (Monitor.holds k (b.portSettings p).sampling (b.mon p)) := by
  unfold isolate
  rw [mon_changeState]
  simp only [mon_modMon_self, true_and]
  have h : (Monitor.holds k (b.portSettings p).sampling (b.mon p)).state = (b.mon p).state := rfl
  rw [h]
  by_cases e : (b.mon p).state = .isolated
  · simp [e]
  · rw [if_neg e, if_pos (fun x => e x.symm)]; rfl

theorem mon_recoveries (b : Bridge) (p : Port) (l : List FaultKind) (q : Port) : (b.recoveries p l).mon q = b.mon q := by
  unfold recoveries
  refine (Steady.foldl _ (fun b k => ?_) l b).mon q
  split
  · exact steady_notify _ _
  · exact Steady.refl _

/-- The state in which a port stands once causes have left its hold set (R156). -/
theorem mon_leaveHold_one (b : Bridge) (p : Port) (k : FaultKind) :
    (b.leaveHold p [k]).mon p =
      let m := Monitor.releases k (b.portSettings p).sampling (b.mon p)
      if m.state = .isolated ∧ m.hold.isEmpty then Monitor.enter b.now (if m.testOwed then .testing else .active) m else m := by
  unfold leaveHold
  dsimp only [List.foldl]
  rw [mon_recoveries, mon_modMon_self]
  split
  · rename_i h
    rw [mon_changeState, mon_modMon_self, h.1]
    split <;> simp_all <;> rfl
  · rw [mon_modMon_self]

end Bridge

end Sys2Proof.Machine
end

