-- ==== Sys2Proof/Tests/Slice0.lean ====
section
/-! SUPPORT. Small tests: an ill-formed command for each check, figures that the manual works out, and for each statement with
hypotheses a concrete state and operands that meet them, at the boundary values of its clauses. -/

namespace Sys2Proof.Tests
open Sys2Proof Sys2Proof.Machine

set_option Elab.async false

/-! ## Ill-formed commands -/

theorem test_wf_amplitude : Instr.wf (.echoMeasurement 0 4096) = false ∧ Instr.wf (.echoMeasurement 0 4095) = true := by decide +kernel
theorem test_wf_burst : Instr.wf (.receiveBlock 0 { preamble := true, words := [], amplitude := 4096 }) = false := by decide +kernel
theorem test_wf_station : Instr.wf (.repeatMemoryExpire 0 256 1) = false ∧ Instr.wf (.repeatMemoryExpire 0 255 1) = true := by
  decide +kernel
theorem test_wf_field16 : Instr.wf (.pairFrameReceive ⟨true, 0, 0, 65536, []⟩) = false := by decide +kernel
theorem test_wf_dirNumber : Instr.wf (.statusQueryDue 385) = false ∧ Instr.wf (.statusQueryDue 0) = false := by decide +kernel
theorem test_wf_upset : Instr.wf (.paceRefill 0 [262144]) = false ∧ Instr.wf (.paceRefill 0 [262143]) = true := by decide +kernel
theorem test_wf_asker_coax : Instr.wf (.commit (.coax 0 255 1 false none)) = false ∧ Instr.wf (.commit (.coax 0 254 1 false none)) = true := by
  decide +kernel
theorem test_wf_asker_pair : Instr.wf (.commit (.pair 0 65536 0 0 none)) = false ∧ Instr.wf (.commit (.pair 0 1 0 0 (some 385))) = false := by
  decide +kernel
theorem test_wf_tag : Instr.wf (.exchangeTimeout 16) = false ∧ Instr.wf (.exchangeTimeout 15) = true := by decide +kernel
theorem test_wf_job : Instr.wf (.jobStall 0) = false ∧ Instr.wf (.jobStall 65536) = false := by decide +kernel
theorem test_wf_drive : Instr.wf (.shortDetection ⟨0, 4153⟩) = false ∧ Instr.wf (.shortDetection ⟨0, 4152⟩) = true := by decide +kernel
theorem test_wf_sample : Instr.wf (.levelSample ⟨0, some 4096⟩) = false ∧ Instr.wf (.levelSample ⟨0, some 4095⟩) = true
    ∧ Instr.wf (.levelSample ⟨0, none⟩) = true := by decide +kernel
theorem test_wf_selector : Instr.wf (.readEntry (.coax 0 1 1 false none) 65536) = false := by decide +kernel

/-! ## States the tests share -/

/-- The part in operation, long after reset, with ports and pair side as at reset. -/
def live : Bridge := { ctl := { now := 20000000, phase := .running } }

/-- A state of a bridge. -/
def on (b : Bridge) : State := { bridge := b }

/-- A port that can transmit. -/
def readyPort : PortState := { mon := { state := .active } }

/-- The part with four ports in one state. -/
def ports (x : PortState) : Bridge := live.setPorts (Vector.replicate 4 x)

/-- The part with the pair link UP. -/
def linked : Bridge := live.modPair fun x => { x with link := true }

/-- A FIXED manager on the coax, and its asker. -/
def managed (b : Bridge) : Bridge :=
  b.modEntries (put 10 { state := .fixed, kind := .station, home := .seg 0 5, reachable := true, rights := ⟨true, true⟩ })
def asker : Asker := .coax 0 5 1 false (some 10)

/-- A pair host, a printer on coax, and a station on segment 1 seen on segment 0 as 40. -/
def mac : Mac := 0x020000000101#48
def peopled : Bridge :=
  (managed (ports readyPort)).modEntries fun es =>
    put 11 { state := .fixed, kind := .station, home := .pair mac .swapped, reachable := true }
      (put 12 { state := .fixed, kind := .printer, home := .seg 1 9, reachable := true }
        (put 13 { state := .fixed, kind := .station, home := .seg 1 12, reachable := true, visible := some 40,
                  shown := PortSet.insert PortSet.none 0 } es))

/-- The part with two paired segments, their controllers in one state. -/
def fed (f : Feed) : Bridge := (ports readyPort).setFeeds (Vector.replicate 2 { f with paired := true })

/-- A frame of two payload words: cost 11. -/
def frame : CoaxFrame := { block := { dst := 2, src := 3, kind := .data, payload := [1, 2, 3, 4] }, origin := .forward, serial := 7 }

/-- A burst of a block's words. -/
def burstOf (b : Block) : Burst := { preamble := true, words := b.covered ++ [checkOf (bytesOf b.covered)], amplitude := 1000 }

/-! ## Figures from the manual -/

/-- R2: a block whose check word is changed by one bit is dropped BAD_CHECK. -/
theorem test_check :
    receive (burstOf frame.block) = .block frame.block ∧
    receive { burstOf frame.block with words := frame.block.covered ++ [checkOf (bytesOf frame.block.covered) ^^^ 1] }
      = .dropped .badCheck := by decide +kernel

/-- Section 0.6: header words 0 and 1, written out. -/
theorem test_header :
    ({ dst := 40, src := 5, kind := .request, seq := true, payload := [0xAB, 0x00], pad := true } : Block).covered
      = [0x2805#16, 0x1C01#16, 0xAB00#16] := by decide +kernel

/-- R29: the header of a carrier frame, written out. -/
theorem test_carrier :
    ({ mac, kind := .fail, reason := 7, seq := 3, tag := 0x0102, dst := 384, src := 1 } : Carrier).bytes.take 12
      = [1, 5, 7, 3, 1, 2, 1, 0x80, 0, 1, 0, 0] := by decide +kernel

/-- R36 and R35: three bytes cross under SWAPPED and back. -/
theorem test_swap :
    inOrder .swapped [1, 2, 3] = [2, 1, 3] ∧ (Block.build 2 3 .data false [2, 1, 3]).payload = [2, 1, 3, 0]
      ∧ (Block.build 2 3 .data false [2, 1, 3]).pad = true ∧ inOrder .swapped (Block.build 2 3 .data false [2, 1, 3]).content = [1, 2, 3] := by
  decide +kernel

/-- R97: a share of 50 refills 62 and then 63; a share of 33 refills 41, 41, 41, 42. -/
theorem test_refill :
    (Bridge.refill 50 8191 { allowance := 0 }).allowance = 62
      ∧ (Bridge.refill 50 8191 (Bridge.refill 50 8191 { allowance := 0 })).allowance = 125
      ∧ (Bridge.refill 33 8191 (Bridge.refill 33 8191 (Bridge.refill 33 8191 (Bridge.refill 33 8191 { allowance := 0 })))).allowance = 165 := by
  decide +kernel

/-- R168: levels of an amplitude at the default nominal amplitude. -/
theorem test_levels : levelOf 0 1000 = 0 ∧ levelOf 124 1000 = 0 ∧ levelOf 125 1000 = 1 ∧ levelOf 1000 1000 = 8 ∧ levelOf 4095 1000 = 15 := by
  decide +kernel

/-- R1, R9, R98: the least and the greatest cost of a frame. -/
theorem test_cost :
    ({ dst := 1, src := 1, kind := .data } : Block).cost = 9
      ∧ ({ dst := 1, src := 1, kind := .data, payload := List.replicate 1024 0 } : Block).cost = 521 := by decide +kernel

/-- R123: the job counter wraps from 65535 to 1. -/
theorem test_counter : Bridge.nextNumber 65535 = 1 ∧ Bridge.nextNumber 1 = 2 := by decide +kernel

/-- R63 and R71: the plan of a bad image passes every check. -/
theorem test_default_plan : Plan.check [0, 1, 2, 3] { entries := defaultEntries, bindings := Vector.replicate 8 {} } = none := by
  decide +kernel

/-- R67: an edit that gives an entry of the coax side a MAC is refused. -/
theorem test_edit :
    PlanFields.ok { state := .fixed, kind := .station, home := .port 0, number := some 254 } = true
      ∧ PlanFields.ok { state := .fixed, kind := .station, home := .port 0, number := some 255 } = false
      ∧ PlanFields.ok { state := .fixed, kind := .station, home := .port 0, number := some 5, mac := some 1 } = false
      ∧ PlanFields.ok { state := .fixed, kind := .station, home := .pair, mac := some 0x010000000000#48, order := some .asSent } = false := by
  decide +kernel

/-- R174: the feed state follows the ends available. -/
theorem test_feed_moves :
    feedMove { state := .feedA } false true = .go .feedB ∧ feedMove { state := .feedA } false false = .go .down
      ∧ feedMove { state := .feedB } true true = .openSwitch ∧ feedMove { state := .down } true true = .go .feedA := by decide +kernel

/-! ## Witnesses: steps and sound states -/

theorem witness_StepRunsFrontCommand : (on live).pending = [] := rfl

theorem witness_SoundStatesStaySound : State.reset.sound ∧ ∃ t, step State.reset = .next t := ⟨⟨rfl, rfl, rfl⟩, _, rfl⟩

theorem witness_RecordsStaySound : State.reset.recordsSound ∧ ∃ t, step State.reset = .next t :=
  ⟨⟨rfl, by decide, by decide, rfl, by decide, by decide, by decide, by decide, by decide +kernel⟩, _, rfl⟩

theorem witness_AllowanceStaysWithinCap : (∀ p, (State.reset.bridge.port p).allowance ≤ (State.reset.bridge.portSettings p).cap
    ∧ (State.reset.bridge.port p).remainder < 100) ∧ ∃ t, step State.reset = .next t := ⟨by decide +kernel, _, rfl⟩

theorem witness_StoreBytesAreKept :
    (on live).written ∧ (∃ t, exec .softReset (on live) = .next t) ∧ (∃ t, exec (.takeArrival .pair []) (on live) = .next t)
      ∧ 262143 ∉ ((on live).bridge.whenRunning (·.takeArrival .pair)).spool.toWrite.map (·.1) :=
  ⟨rfl, ⟨_, rfl⟩, ⟨_, rfl⟩, by decide +kernel⟩

theorem witness_NothingIsTakenBeforeTheLoadEnds :
    ¬ State.reset.takesTraffic ∧ ¬ (on { ctl := { phase := .heldPower } }).takesTraffic
      ∧ ¬ (on { ctl := { phase := .heldPin } }).takesTraffic ∧ (Instr.takeArrival .pair [1]).awaitsTraffic = true
      ∧ (Instr.probePulse 1 1000 false).awaitsTraffic = true ∧ (Instr.resetPort (.coax 0 5 1 false none) 3).awaitsTraffic = true := by
  decide +kernel

/-! ## Witnesses: coax -/

theorem witness_ReceiveChecksInOrder :
    ({ preamble := false, words := [1, 2, 3], amplitude := 0 } : Burst).preamble = false
      ∧ ({ preamble := true, words := [1, 2], amplitude := 0 } : Burst).words.length < 3 := by decide +kernel

/-- A port at each of its ways of hearing a burst: dropped, handed on, discarded, and while it drives itself. -/
theorem witness_BurstsAreReceived :
    (on live).bridge.ctl.phase = .running ∧ State.reset.bridge.ctl.phase = .loading
      ∧ receive { burstOf frame.block with preamble := false } = .dropped .fragment
      ∧ receive (burstOf frame.block) = .block frame.block ∧ (ports readyPort).canTransmit 3 = true ∧ live.canTransmit 3 = false
      ∧ (ports readyPort).driving 3 = false
      ∧ (ports { readyPort with attempt := some ⟨true, 0, frame.block.covered⟩ }).driving 3 = true
      ∧ (on { ctl := { phase := .heldPin } }).bridge.ctl.phase = .heldPin := by decide +kernel

/-- The longest block, from the highest numbers, and the shortest, from the lowest; the longest carrier frame, and the shortest. -/
theorem witness_WhatIsSentReadsBack :
    (let b : Block := { dst := 255, src := 254, kind := .data, pad := true, payload := List.replicate 1024 0 }
     1 ≤ b.dst ∧ b.dst ≤ 255 ∧ 1 ≤ b.src ∧ b.src ≤ 254 ∧ b.kind ≠ .hello ∧ b.payload.length % 2 = 0 ∧ b.payload.length ≤ 1024
       ∧ payloadOk b = true ∧ ¬ (b.pad = true ∧ b.payload = [])) ∧
    (let b : Block := { dst := 1, src := 1, kind := .busy }
     1 ≤ b.dst ∧ b.kind ≠ .hello ∧ b.payload.length % 2 = 0 ∧ payloadOk b = true ∧ ¬ (b.pad = true ∧ b.payload = [])) ∧
    (let c : Carrier := { mac, kind := .data, reason := 255, tag := 65535, dst := 65535, src := 65535, data := List.replicate 1024 7 }
     c.reason ≤ 255 ∧ c.tag ≤ 65535 ∧ c.dst ≤ 65535 ∧ c.src ≤ 65535 ∧ c.data.length ≤ 1024 ∧ carrierOk c = true) ∧
    carrierOk { mac, kind := .busy, dst := 0, src := 0 } = true := by decide +kernel

/-- Quiet for exactly 4 word times; the allowance exactly covers the cost, or is one short of it. -/
theorem witness_AttemptStartDrivesTheChosenFrame :
    (let b := ports { readyPort with class0 := [frame], quietFrom := 19999996 }
     (on b).takesTraffic ∧ b.mayAttempt 0 = true ∧ (b.port 0).class0 = [frame]) ∧
    (let b := ports { readyPort with class1 := [frame], allowance := 11 }
     b.mayAttempt 1 = true ∧ (b.port 1).class0 = [] ∧ (b.port 1).class1 = [frame] ∧ frame.block.payload.length / 2 + 9 ≤ (b.port 1).allowance) ∧
    (let b := ports { readyPort with class1 := [{ frame with charged := true }], allowance := 0 }
     b.mayAttempt 1 = true ∧ (b.port 1).class1 = [{ frame with charged := true }]) ∧
    (let b := ports { readyPort with class1 := [frame], allowance := 10 }
     frame.charged = false ∧ (b.port 1).allowance < frame.block.payload.length / 2 + 9) ∧
    (ports { readyPort with quietFrom := 19999997 }).mayAttempt 0 = false := by decide +kernel

def driven (c : Bool) (n : Nat) : Bridge :=
  ports { readyPort with attempt := some ⟨c, 0, frame.block.covered⟩, class0 := [{ frame with attempts := n }],
                         class1 := [{ frame with attempts := n }], backoff := some 20000000 }

theorem witness_CollisionBacksOffOrDiscards :
    (on (driven true 7)).takesTraffic ∧ ((driven true 7).port 0).attempt = some ⟨true, 0, frame.block.covered⟩
      ∧ ((driven true 7).port 0).class0 = [{ frame with attempts := 7 }] ∧ ((driven false 7).port 0).class1 = [{ frame with attempts := 7 }]
      ∧ ((driven true 8).port 0).class0 = [{ frame with attempts := 8 }] ∧ ((driven false 8).port 0).class1 = [{ frame with attempts := 8 }]
      ∧ (live.port 0).attempt = none ∧ ((driven true 8).port 0).backoff = some 20000000
      ∧ ((ports { backoff := some 20000001 }).port 0).backoff = some 20000001 := by decide +kernel

/-- A record of the exchange table whose question waits on segment 1. -/
def opened (phase : ExchangeState) : Exchange :=
  { state := phase, direction := .coaxCoax, requester := 10, requesterRoute := .port 0, requesterSrc := 5, numberAsked := 40,
    requesterSeq := .bit false, target := 13, targetRoute := .port 1, wireDst := 12, wireSrc := 1, usesBridge := true,
    outSeq := .bit true, tries := 3, deadline := 20000000, copy := [], copyPad := false, sending := 7 }

def asking (start : Time) : Bridge :=
  (ports { readyPort with attempt := some ⟨false, start, [1, 2, 3]⟩, class1 := [{ frame with origin := .request 15 }] }).setExchanges
    [(15, opened (.opened .queued))]

theorem witness_SendCompleteReportsTheFrame :
    (on (driven true 1)).takesTraffic ∧ ((driven true 1).port 0).attempt = some ⟨true, 0, frame.block.covered⟩
      ∧ 0 + frame.block.covered.length ≤ 20000000
      ∧ ((driven true 1).port 0).class0 = [{ frame with attempts := 1 }] ∧ ((driven false 1).port 0).class1 = [{ frame with attempts := 1 }]
      ∧ ((asking 19999997).port 0).attempt = some ⟨false, 19999997, [1, 2, 3]⟩
      ∧ ((asking 19999997).port 0).class1 = [{ frame with origin := .request 15 }]
      ∧ (asking 19999997).exchange 15 = some (opened (.opened .queued))
      ∧ ((asking 19999998).port 0).attempt = some ⟨false, 19999998, [1, 2, 3]⟩ ∧ 20000000 < 19999998 + 3 := by decide +kernel

/-- A record of the coax repeat memory, and one of the pair memory. -/
def asked (p : Port) (x : Answer) : Repeat :=
  { segment := p, asker := 5, dst := 3, kind := .printOpen, seq := false, answer := x, updated := 19875000 }
def pairAsked (dst : Nat) (x : Answer) : PairRepeat :=
  { asker := 11, dst, tag := 65535, kind := .printClose, seq := 255, answer := x, updated := 19875001 }

/-- The part with records in both memories. -/
def remembering (l : List Repeat) (m : List PairRepeat) : Bridge := (peopled.setRepeats l).modPair fun x => { x with repeats := m }

/-- A record that answers the repeat at once, one that does not, a memory without one and room, and a full memory without one. -/
theorem witness_RepeatMemoriesAnswerAndExpire :
    (on live).takesTraffic
      ∧ (remembering [asked 0 (.reply [0, 1])] []).repeats = [] ++ asked 0 (.reply [0, 1]) :: []
      ∧ (asked 0 (.fail .full 0)).segment = (remembering [] []).segmentOf 0
      ∧ (∀ r ∈ (remembering [asked 0 (.hold 10), asked 1 .busy] []).repeats, r.answer = .hold 10 ∨ r.answer = .busy)
      ∧ (remembering [] []).repeats.length < 16 ∧ 16 ≤ (remembering (List.replicate 16 (asked 1 .busy)) []).repeats.length
      ∧ (remembering [] [pairAsked 9 (.reply [])]).pair.repeats = [] ++ pairAsked 9 (.reply []) :: []
      ∧ (∀ r ∈ (remembering [] [pairAsked 9 .busy]).pair.repeats, r.answer = .busy)
      ∧ (remembering [] []).pair.repeats.length < 8 ∧ 8 ≤ (remembering [] (List.replicate 8 (pairAsked 2 .busy))).pair.repeats.length
      ∧ (asked 0 .busy).updated + 125000 ≤ live.ctl.now ∧ live.ctl.now < (pairAsked 2 .busy).updated + 125000
      ∧ (∀ d : List Byte, Answer.reply [1, 2, 3, 4] = .reply d → d.length ≤ 4) ∧ 4 < [(1 : Byte), 2, 3, 4, 5].length := by
  refine ⟨rfl, ?_, ?_, ?_, ?_, ?_, ?_, ?_, ?_, ?_, ?_, ?_, ?_, ?_⟩ <;> first | decide +kernel | skip
  rintro d ⟨⟩; decide

theorem witness_AllowanceIsRefilledEachMillisecond :
    State.reset.bridge.ctl.phase = .loading ∧ State.reset.bridge.ctl.now < State.reset.bridge.refillDue
      ∧ (on live).bridge.ctl.phase = .running ∧ (live.setRefillDue 20000000).refillDue ≤ (live.setRefillDue 20000000).ctl.now := by
  decide +kernel

/-! ## Witnesses: the pair port -/

theorem witness_LinkFollowsItsIndication :
    live.pair.link = false ∧ linked.pair.link = true ∧ (on live).takesTraffic ∧ live.pair.waitFrom = none
      ∧ ((live.modPair fun x => { x with waitFrom := some 19937500 }).pair.waitFrom = some 19937500 ∧ 19937500 + 62500 ≤ 20000000)
      ∧ ((live.modPair fun x => { x with waitFrom := some 19937501 }).pair.waitFrom = some 19937501 ∧ 20000000 < 19937501 + 62500) := by
  decide +kernel

theorem witness_ReachFollowsTheHome :
    live.paired 0 = false ∧ (live.modFeed 0 fun f => { f with paired := true }).paired (lowerOf 0) = true
      ∧ (live.modFeed 1 fun f => { f with paired := true }).paired (upperOf 1) = true := by decide +kernel

/-- A carrier frame as the PHY delivers it. -/
def delivered (c : Carrier) : EtherIn :=
  { fcsOk := true, dst := defaultPairAddress, src := c.mac, type := 0x6C4E, data := c.bytes }

/-- The header checks meet where the data just fills what is present. -/
theorem witness_PairFramesAreCheckedInOrder :
    (on live).takesTraffic ∧ (List.replicate 11 (0 : Byte)).length < 12
      ∧ (let l : List Byte := [1, 12, 0, 0, 0, 0, 0, 0, 0, 0, 0, 1, 9]
         12 ≤ l.length ∧ (l.getD 0 0).toNat = 1 ∧ (l.getD 10 0).toNat * 256 + (l.getD 11 0).toNat ≤ l.length - 12
           ∧ kindOf (l.getD 1 0).toNat = some .hello)
      ∧ kindOf 13 = none ∧ kindOf 255 = none ∧ kindOf 0 = some .data ∧ kindOf 12 = some .hello := by decide +kernel

def sent (k : Kind) (dst : Nat) : Carrier := { mac, kind := k, dst, src := 11, data := List.replicate 6 0 }

def knows (s : EntryState) : Bridge := linked.modEntries fun _ => [(11, { state := s, kind := .station, home := .pair mac .asSent })]

theorem witness_KnownHostFrameIsHandedOn :
    (on (knows .fixed)).takesTraffic ∧ (knows .fixed).carries (delivered (sent .data 13)) (sent .data 13) ∧ (sent .data 13).kind ≠ .hello
      ∧ (findMac (knows .fixed).dir.entries mac).isSome = true ∧ findMac linked.dir.entries mac = none
      ∧ linked.agent.setup = false ∧ (linked.modAgent fun a => { a with setup := true }).agent.setup = true
      ∧ linked.carries (delivered (sent .manage 1)) (sent .manage 1) := by
  unfold Bridge.carries; decide +kernel

theorem witness_HelloTakesTheLowestFreeEntry :
    (on linked).takesTraffic ∧ linked.carries (delivered (sent .hello 0)) (sent .hello 0)
      ∧ linked.pair.queue.length < 48 ∧ findMac linked.dir.entries mac = none ∧ retiringMac linked.dir.entries mac = false
      ∧ linked.settings.pairLearning = true ∧ linked.entry 10 = none
      ∧ (findMac (knows .learned).dir.entries mac).isSome = true ∧ (knows .learned).carries (delivered (sent .hello 0)) (sent .hello 0)
      ∧ findMac (knows .retiring).dir.entries mac = none ∧ retiringMac (knows .retiring).dir.entries mac = true
      ∧ (knows .retiring).carries (delivered (sent .hello 0)) (sent .hello 0) := by
  unfold Bridge.carries; decide +kernel

def handed (o : Origin) : Bridge :=
  (linked.modPair fun x =>
    { x with handing := some ⟨mac, 0, 0, []⟩, queue := [{ frame := sent .data 13, origin := o, serial := 7 }] }).setExchanges
    [(0, opened (.opened .queued))]

theorem witness_PairSendCompleteReportsTheFrame :
    (on (handed .forward)).takesTraffic ∧ (handed .forward).pair.handing = some ⟨mac, 0, 0, []⟩
      ∧ (handed .forward).pair.queue = [{ frame := sent .data 13, origin := .forward, serial := 7 }] ∧ linked.pair.handing = none
      ∧ (handed (.request 0)).pair.queue = [{ frame := sent .data 13, origin := .request 0, serial := 7 }]
      ∧ (handed (.request 0)).pair.waiting = [] ∧ (handed (.request 0)).exchange 0 = some (opened (.opened .queued)) := by decide +kernel

theorem witness_CoaxToPairConversion :
    (let b : Block := { dst := 1, src := 1, kind := .data, pad := true, payload := [1, 0] }
     b.payload.length % 2 = 0 ∧ b.payload.length ≤ 1024 ∧ (b.pad = true → b.payload ≠ []))
      ∧ (List.replicate 1024 (0 : Byte)).length ≤ 1024 := by decide +kernel

theorem witness_PairToCoaxConversion :
    (List.replicate 1024 (0 : Byte)).length ≤ 1024 ∧ (List.replicate 1023 (0 : Byte)).length % 2 = 1 := by decide +kernel

/-! ## Witnesses: the directory and forwarding -/

def full : Bridge :=
  live.modEntries fun _ => (List.range' 10 375).map fun n => (n, { state := .learned, kind := .station, home := .seg 3 n })

/-- A known source, one shown under its number, an unknown one; learning ON and OFF; the lowest FREE entry, and none. -/
theorem witness_ConflictAndLearning :
    (findHome peopled.dir.entries (peopled.segmentOf 0) 5).isSome = true
      ∧ findHome peopled.dir.entries 0 40 = none ∧ (findOn peopled.dir.entries 0 40).isSome = true
      ∧ findHome peopled.dir.entries 0 41 = none ∧ findOn peopled.dir.entries 0 41 = none
      ∧ (peopled.portSettings 0).learning = true ∧ (∀ m < 14, 10 ≤ m → peopled.entry m ≠ none) ∧ peopled.entry 14 = none
      ∧ (∀ m ∈ List.range' 10 375, full.entry m ≠ none) ∧ findHome full.dir.entries 0 41 = none
      ∧ ((live.setSettings (live.settings.modPort 0 fun x => { x with learning := false })).portSettings 0).learning = false := by
  decide +kernel

/-- An end of a segment in SPLIT, a set that auto-show gives, and the first of two entries that fit a lookup. -/
theorem witness_LearningOnPairedAndShownSegments :
    (fed { state := .split }).paired 1 = true ∧ ((fed { state := .split }).feed (pairOf 1)).state = .split
      ∧ (let b := peopled.setSettings { (peopled.settings.modPort 0 fun x => { x with autoShow := true }) with
           autoShowSet := PortSet.insert (PortSet.insert PortSet.none 1) 0 }
         ∀ q : Port, (PortSet.insert PortSet.none 1)[q] = true ↔ (b.portSettings 0).autoShow = true ∧ b.segmentOf q = q ∧ q ≠ 0 ∧
           b.settings.autoShowSet[q] = true ∧ findOn b.dir.entries q 41 = none)
      ∧ (let e : Entry := { state := .fixed, kind := .station, home := .seg 1 12 }
         ((13, e) :: (14, e) :: [] = [] ++ (13, e) :: [(14, e)]) ∧ numberOn e 1 = some 12)
      ∧ (∀ x ∈ ([] : Entries), numberOn x.2 1 ≠ some 12) := by decide +kernel

/-- A DATA block from station 5 of segment 0 to the station seen there as 40. -/
def data : Block := { dst := 40, src := 5, kind := .data, payload := [1, 2] }

/-- The part with that block waiting; `f` changes the entry of the station it goes to. -/
def arrived (f : Entry → Entry) : Bridge :=
  (peopled.modPort 0 fun x => { x with arrivals := [{ block := data, late := false }] }).modEntry 13 f

/-- The same with entry 1 present on every segment. -/
def bridged (f : Entry → Entry) : Bridge := (arrived f).modEntries (put 1 bridgeEntry)

def toPair (e : Entry) : Entry := { e with home := .pair (mac + 1) .asSent }

theorem witness_UnicastDataIsForwarded :
    (∀ b ∈ [arrived id, arrived fun e => { e with reachable := false }, bridged id, arrived toPair],
      (on b).takesTraffic ∧ (b.port 0).arrivals = [{ block := data, late := false }]
        ∧ (let c := ((b.modPort 0 fun x => { x with arrivals := [] }).sourceLookup 0 5).2
           findHome c.dir.entries (c.segmentOf 0) 40 = none ∧ (findOn c.dir.entries (c.segmentOf 0) 40).map (·.1) = some 13))
      ∧ data.dst ≠ 255 ∧ data.kind = .data
      ∧ ((arrived id).entry 13).map (·.reachable) = some true
      ∧ ((arrived fun e => { e with reachable := false }).entry 13).map (·.reachable) = some false
      ∧ (arrived id).numberOf 10 1 = none ∧ (arrived id).bridgeNumberOn 1 = none ∧ (bridged id).bridgeNumberOn 1 = some 254
      ∧ ((arrived toPair).entry 13).map (·.home) = some (.pair (mac + 1) .asSent)
      ∧ ((arrived toPair).modPair fun x => { x with link := true }).pair.link = true := by decide +kernel

/-- The pair queue with its 48 frames. -/
def crowded (b : Bridge) : Bridge :=
  b.modPair fun x => { x with link := true, queue := List.replicate 48 { frame := sent .data 13, origin := .forward, serial := 7 } }

/-- A copy with no end that can transmit, with no number, under a sender's number or the bridge number, and one that is refused. -/
theorem witness_BroadcastsAreCopied :
    Arrival.kind (.coax 0 { data with dst := 255 }) = .data ∧ Arrival.kind (.carrier (sent .data 0)) = .data
      ∧ Arrival.kind (.carrier (sent .notice 0)) ≠ .data
      ∧ live.segmentOf 1 = 1 ∧ [(1 : Port)].filter live.canTransmit = [] ∧ [(1 : Port)].filter peopled.canTransmit = [1]
      ∧ (((none : Option DirNo).bind fun m => peopled.numberOf m 1).or (peopled.bridgeNumberOn 1)) = none
      ∧ (((some 13 : Option DirNo).bind fun m => peopled.numberOf m 1).or (peopled.bridgeNumberOn 1)) = some 12
      ∧ (((none : Option DirNo).bind fun m => (bridged id).numberOf m 1).or ((bridged id).bridgeNumberOn 1)) = some 254
      ∧ (peopled.port 1).class1.length < 24
      ∧ 24 ≤ ((ports { readyPort with class1 := List.replicate 24 frame }).port 1).class1.length
      ∧ live.pair.link = false ∧ linked.pair.link = true ∧ linked.pair.queue.length < 48 ∧ 48 ≤ (crowded live).pair.queue.length := by
  decide +kernel

/-- The part with a frame from the pair host waiting, or a block of the coax. -/
def fromPair (c : Carrier) (source : DirNo) : Bridge :=
  peopled.modPair fun x => { x with arrivals := [{ frame := c, source, late := false }] }
def fromCoax (blk : Block) : Bridge := peopled.modPort 0 fun x => { x with arrivals := [{ block := blk, late := false }] }

/-- Every class of destination meets every kind the clauses name; the source entry stands, is gone, or now has another home. -/
theorem witness_ArrivalsAreDispatchedByClass :
    (∀ c ∈ [sent .data 0, sent .reply 11, sent .request 11, sent .manage 11, sent .data 11, sent .notice 11, sent .status 11,
        sent .data 13, sent .reply 14, sent .data 14, sent .request 14],
      (on (fromPair c 11)).takesTraffic ∧ (fromPair c 11).pair.arrivals = { frame := c, source := 11, late := false } :: [])
      ∧ (peopled.entry 11).map (·.state) = some .fixed ∧ peopled.entry 14 = none ∧ peopled.entry 384 = none
      ∧ ((peopled.modEntry 11 fun e => { e with state := .learned, home := .seg 0 11 }).entry 11).map (·.state) = some .learned
      ∧ (peopled.entry 13).map (·.home) = some (.seg 1 12) ∧ (peopled.entry 11).map (·.home) = some (.pair mac .swapped)
      ∧ ((peopled.modEntry 13 fun e => { e with state := .retiring }).entry 13).map (·.state) = some .retiring
      ∧ (∀ n ∈ [255, 5, 40, 41], (fromCoax { data with dst := n }).inSplit 0 = false
          ∧ ((fromCoax { data with dst := n }).port 0).arrivals = { block := { data with dst := n }, late := false } :: [])
      ∧ (findHome peopled.dir.entries 0 5).isSome = true ∧ findHome peopled.dir.entries 0 40 = none
      ∧ (findOn peopled.dir.entries 0 40).map (·.1) = some 13 ∧ findHome peopled.dir.entries 0 41 = none
      ∧ findOn peopled.dir.entries 0 41 = none := by decide +kernel

/-- Every kind is an answer or not, and dispatched by it. -/
theorem witness_ArrivalsAreDispatchedByKind :
    Arrival.isAnswer (.coax 0 { data with kind := .reply }) = true
      ∧ (∀ k ∈ [Kind.data, .request, .printOpen, .printData, .printClose, .manage, .status, .notice],
          Arrival.isAnswer (.coax 0 { data with kind := k, payload := [] }) = false ∧ Arrival.kind (.coax 0 { data with kind := k }) = k)
      ∧ Arrival.isAnswer (.carrier { sent .status 11 with reason := 4 }) = true
      ∧ Arrival.isAnswer (.carrier (sent .status 11)) = false
      ∧ Arrival.printerAnswer (.carrier { sent .status 11 with reason := 4 }) = some (.status .offline)
      ∧ (peopled.entry 13).map (·.kind) = some .station ∧ (peopled.entry 12).map (·.kind) = some .printer
      ∧ (peopled.entry 13).map (·.reachable) = some true := by decide +kernel

/-- A segment in SPLIT with a station on it, its end as given, and a block on end A. -/
def halves (e : Option EndField) (dst : Nat) : Bridge :=
  ((fed { state := .split }).modEntries fun _ =>
    [(13, { state := .fixed, kind := .station, home := .seg 0 12, endField := e, reachable := true }),
     (14, { state := .fixed, kind := .station, home := .seg 2 12, visible := some 40, shown := PortSet.insert PortSet.none 0 })]).modPort 0
    fun x => { x with arrivals := [{ block := { data with dst }, late := false }] }

/-- A broadcast, a block for the other half, for an end unknown, for this half, and for a station shown here; a relay that is taken,
refused, or finds the other end unable; and a controller in each state with the ends it may find. -/
theorem witness_SplitSegmentsRelayAndRedistribute :
    (∀ x ∈ [(some EndField.b, 255), (some .b, 12), (some .unknown, 12), (some .a, 12), (some .b, 40)],
      (on (halves x.1 x.2)).takesTraffic ∧ (halves x.1 x.2).paired 0 = true ∧ ((halves x.1 x.2).feed (pairOf 0)).state = .split
        ∧ ((halves x.1 x.2).port 0).arrivals = { block := { data with dst := x.2 }, late := false } :: []
        ∧ (findHome (halves x.1 x.2).dir.entries 0 12).map (·.2.endField) = some x.1)
      ∧ findHome (halves none 40).dir.entries 0 40 = none ∧ (findOn (halves none 40).dir.entries 0 40).map (·.1) = some 14
      ∧ (fed { state := .split }).canTransmit (partner 0) = true ∧ live.canTransmit (partner 0) = false
      ∧ ((fed {}).port (partner 0)).class1.length < 24
      ∧ 24 ≤ ((ports { readyPort with class1 := List.replicate 24 frame }).port (partner 0)).class1.length
      ∧ (fed { state := .feedA, window := .split }).driving ((fed { state := .feedA, window := .split }).feedingEnd 1) = false
      ∧ (∀ f ∈ [FeedState.feedA, .feedB, .split, .down], ((fed { state := f }).feed 0).startWait = false
          ∧ ((fed { state := f }).mon 0).state ≠ .isolated ∧ pairOf 0 = 0) := by decide +kernel

def aged (due : Time) : Bridge := peopled.modDir fun d => { d with ageingDue := due }

theorem witness_AgeingFreesSilentEntries :
    (on (aged 20000000)).takesTraffic ∧ (aged 20000000).dir.ageingDue ≤ (aged 20000000).ctl.now
      ∧ (aged 20000001).ctl.now < (aged 20000001).dir.ageingDue ∧ peopled.entry 13 ≠ none := by decide +kernel

/-! ## Witnesses: exchanges -/

def table (x : Exchange) : Bridge := peopled.setExchanges [(15, x)]

theorem witness_ExchangeTimersActOnTheRecord :
    (on (table (opened .held))).takesTraffic
      ∧ (table (opened (.opened (.window 20000000)))).exchange 15 = some (opened (.opened (.window 20000000)))
      ∧ 3 ≤ (opened (.opened (.window 20000000))).tries
      ∧ (table { opened (.opened (.window 20000000)) with tries := 2 }).exchange 15 = some { opened (.opened (.window 20000000)) with tries := 2 }
      ∧ (table (opened (.opened (.window 20000001)))).exchange 15 = some (opened (.opened (.window 20000001)))
      ∧ (table (opened (.opened (.busyDelay 20000000)))).exchange 15 = some (opened (.opened (.busyDelay 20000000)))
      ∧ (table (opened .held)).exchange 15 = some (opened .held) ∧ (opened .held).deadline ≤ (table (opened .held)).ctl.now
      ∧ (table { opened .held with deadline := 20000001 }).exchange 15 = some { opened .held with deadline := 20000001 } := by
  decide +kernel

/-- The table with all 16 tags in use, or all but the last. -/
def busyTable (n : Nat) : Bridge := peopled.setExchanges ((List.range n).map fun t => (t, { opened .held with target := 10 }))

/-- A repeat, a new sequence, and no record; a target of the wrong kind, unreachable, on the pair side and on coax; a full table and one
with a single free tag; a requester with a number on the target's segment, without one, and no number at all. -/
theorem witness_RequestsOpenExchanges :
    (table (opened .held)).sameParties 10 13 = some (15, opened .held)
      ∧ (opened .held).requesterSeq = (Asker.latched (.coax 0 5 40 false (some 10))).2.1
      ∧ (opened .held).requesterSeq ≠ (Asker.latched (.coax 0 5 40 true (some 10))).2.1 ∧ peopled.sameParties 10 13 = none
      ∧ (peopled.entry 12).map (·.kind) ≠ some .station ∧ (peopled.entry 13).map (·.reachable) = some true
      ∧ (peopled.entry 13).bind peopled.routeOf = some (.port 1) ∧ (peopled.entry 13).map (·.home) = some (.seg 1 12)
      ∧ (peopled.entry 11).map (·.home) = some (.pair mac .swapped)
      ∧ (∀ t < 16, (busyTable 16).exchange t ≠ none) ∧ (busyTable 15).exchange 15 = none ∧ (∀ t < 15, (busyTable 15).exchange t ≠ none)
      ∧ (busyTable 15).sameParties 10 13 = none
      ∧ peopled.numberOf 13 0 = some 40 ∧ peopled.numberOf 10 1 = none ∧ peopled.bridgeNumberOn 1 = none
      ∧ (bridged id).numberOf 10 1 = none ∧ (bridged id).bridgeNumberOn 1 = some 254
      ∧ (opened .held).target = 13 ∧ (opened .held).usesBridge = true
      ∧ (fed {}).paired 1 = true ∧ peopled.paired 1 = false := by decide +kernel

/-- A question on the pair side that waits for its answer. -/
def pairOpened (s : ExchangeState) : Exchange :=
  { opened s with direction := .coaxPair, target := 11, targetRoute := .pair mac, outSeq := .byte 255 }

/-- An answer that matches, on either side, one that does not; a record in each phase; a requester of either side; a route that is lost. -/
theorem witness_TargetAnswersActOnTheRecord :
    (table (opened .held)).exchanges = [] ++ (15, opened .held) :: []
      ∧ (opened .held).wireDst = 12 ∧ (opened .held).wireSrc = 1 ∧ (opened .held).outSeq = .bit true
      ∧ (opened .held).targetRoute = .port 1 ∧ (opened .held).outSeq ≠ .bit false
      ∧ (∃ z ∈ (table (pairOpened .held)).exchanges, z.1 = 15 ∧ z.2.targetRoute = .pair mac ∧ z.2.outSeq = .byte 255)
      ∧ (∀ s ∈ [ExchangeState.held, .opened .queued, .opened (.busyDelay 0), .opened .awaiting, .opened (.window 0)],
          (table (opened s)).exchange 15 = some (opened s))
      ∧ (opened .held).requesterRoute = .port 0 ∧ (opened .held).requesterSeq = .bit false
      ∧ (table { opened .held with requesterRoute := .pair mac, requesterSeq := .tagged 65535 255 }).exchange 15
          = some { opened .held with requesterRoute := .pair mac, requesterSeq := .tagged 65535 255 }
      ∧ (table (opened .held)).routeCan (.port 0) = true ∧ (table (opened .held)).routeCan (.pair mac) = false
      ∧ lostBy [0] (.port 0) = true ∧ onPair (.pair mac) = true ∧ onPair (.port 0) = false
      ∧ ((table (pairOpened .held)).modPair fun x => { x with link := true }).pair.link = true
      ∧ (∀ z ∈ (table (pairOpened .held)).exchanges, z.1 < 16) := by decide +kernel

/-! ## Witnesses: the spool and deliveries -/

/-- A job of owner 10 on L1. -/
def job : Job := { number := 65535, owner := 10, lp := 0, mode := .spool, urgent := false, copies := 1, lastActivity := 12500000 }

/-- The part with one job; its stall timeout of 60 s has just passed. -/
def spooled (j : Job) : Bridge := peopled.modSpool fun x => { x with jobs := [j] }

def record (phase : FramePhase) (tries : Nat) (due : Time) : Delivery :=
  { job := 65535, target := 12, route := .port 1, source := 254, pace := 16, refillDue := due, phase, tries }

/-- A delivery to the printer under 12. -/
def delivering (d : Delivery) (r : Printer) : Bridge :=
  ((spooled { job with state := .delivering }).setRecord 0 (some d)).modDelivery fun u => { u with printers := [(12, r)] }

/-- A job that is due, one that is not; a close of each kind; a cancel in each state; an end with its owner gone, unreachable, on the
pair side and on coax; a pin that frees its RETIRING entry and one that does not. -/
theorem witness_JobsStallCloseAndEnd :
    (on (spooled job)).takesTraffic ∧ (spooled job).job 65535 = some job ∧ job.input = .opened ∧ job.state ≠ .cancelling
      ∧ job.lastActivity + 125000 * (spooled job).settings.stallTimeout ≤ (spooled job).ctl.now
      ∧ (spooled { job with mode := .stream }).job 65535 = some { job with mode := .stream }
      ∧ (spooled { job with lastActivity := 12500001 }).job 65535 = some { job with lastActivity := 12500001 }
      ∧ 20000000 < 12500001 + 125000 * (spooled job).settings.stallTimeout
      ∧ (spooled job).job 1 = none ∧ job.owner ≠ 11 ∧ job.owner = 10 ∧ job.lp ≠ 1 ∧ job.lp = 0
      ∧ (∀ s ∈ [JobState.filling, .queued, .cancelling, .delivering],
          (spooled { job with state := s }).job 65535 = some { job with state := s })
      ∧ (∀ f ∈ [FramePhase.queued, .window 0, .paused],
          (delivering (record f 1 0) {}).record job.lp = some (record f 1 0) ∧ (record f 1 0).job = 65535
            ∧ (delivering (record f 1 0) {}).job 65535 = some { job with state := .delivering })
      ∧ peopled.entry 384 = none ∧ (peopled.entry 10).map (·.home) = some (.seg 0 5)
      ∧ (peopled.entry 10).map (·.reachable) = some true ∧ (peopled.entry 11).map (·.home) = some (.pair mac .swapped)
      ∧ ((peopled.modEntry 10 fun e => { e with reachable := false }).entry 10).map (·.reachable) = some false
      ∧ ((peopled.modEntry 10 fun e => { e with state := .retiring, pins := 1 }).entry 10).map (·.pins) = some 1
      ∧ ((peopled.modEntry 10 fun e => { e with state := .retiring, pins := 2 }).entry 10).map (·.pins) = some 2 := by decide +kernel

def bound (n : Nat) : Bridge :=
  (peopled.modLp 0 fun x => { x with binding := { x.binding with primary := some 12 } }).modSpool fun x =>
    { x with jobs := (List.range' 1 n).map fun k => { job with number := k, state := .filling }, jobCounter := 65535 }

def queued : Bridge :=
  (peopled.modSpool fun x =>
    { x with jobs := [{ job with number := 1, urgent := true }, { job with number := 2 }, { job with number := 3, urgent := true }] }).modLp 0
    fun x => { x with queue := [1, 2] }

/-- The counter's value is free, or is in use with the number after it free; the queue takes jobs of both classes. -/
theorem witness_PrintOpenIsJudgedAndQueued :
    (peopled.lp 0).binding.primary = none ∧ ((bound 32).lp 0).binding.primary ≠ none ∧ 32 ≤ (bound 32).spool.jobs.length
      ∧ (bound 2).spool.jobs.length < 32 ∧ 2 ≤ (bound 2).fillingJobs 10 ∧ (bound 1).fillingJobs 10 < 2
      ∧ 1 ≤ (bound 1).spool.jobCounter ∧ (bound 1).spool.jobCounter ≤ 65535 ∧ (bound 1).job 65535 = none
      ∧ ((bound 1).modSpool fun x => { x with jobCounter := 1 }).job 1 ≠ none ∧ (bound 1).job 2 = none
      ∧ queued.urgentJob 2 = false ∧ queued.urgentJob 3 = true ∧ (queued.lp 0).queue = [] ++ 1 :: [2] ∧ queued.urgentJob 1 = true
      ∧ (∀ m ∈ [2], queued.urgentJob m = false) ∧ (∀ m ∈ (queued.lp 1).queue, queued.urgentJob m = false) := by decide +kernel

/-- A chain of 128 blocks is full at 65536 bytes; one byte more is too much. -/
theorem witness_PrintDataIsJudgedInOrder :
    (spooled job).job 1 = none ∧ (spooled job).job 65535 = some job ∧ job.owner ≠ 11 ∧ job.lp ≠ 1 ∧ job.lastSeq ≠ some 0
      ∧ (0 : Nat) = job.nextSeq ∧ (1 : Nat) ≠ job.nextSeq
      ∧ (65536 + 0 + 511) / 512 ≤ 128 ∧ 128 < (65536 + 1 + 511) / 512
      ∧ (spooled { job with held := 65536 }).job 65535 = some { job with held := 65536 }
      ∧ (spooled { job with held := 65536, mode := .stream }).job 65535 = some { job with held := 65536, mode := .stream }
      ∧ ((spooled job).modSpool fun x => { x with freeList := [] }).spool.freeList.length < (0 + 1 + 511) / 512 - job.chain.length
      ∧ (0 + 1 + 511) / 512 - job.chain.length ≤ (spooled job).spool.freeList.length
      ∧ ({ job with lastSeq := some 0 } : Job).lastSeq = some 0 := by decide +kernel

theorem witness_DeliveryTimersActOnTheRecord :
    (on (delivering (record .none 1 20000000) {})).takesTraffic
      ∧ (delivering (record .none 1 20000000) {}).record 0 = some (record .none 1 20000000)
      ∧ (record .none 1 20000000).refillDue ≤ 20000000 ∧ (20000000 : Nat) < (record .none 1 20000001).refillDue
      ∧ (delivering (record .none 1 20000001) {}).record 0 = some (record .none 1 20000001) ∧ peopled.record 0 = none
      ∧ (delivering (record (.window 20000000) 2 0) {}).record 0 = some (record (.window 20000000) 2 0)
      ∧ (delivering (record (.window 20000000) 3 0) {}).record 0 = some (record (.window 20000000) 3 0)
      ∧ (delivering (record (.window 20000001) 3 0) {}).record 0 = some (record (.window 20000001) 3 0)
      ∧ (delivering (record (.holdWait 20000000) 3 0) {}).record 0 = some (record (.holdWait 20000000) 3 0)
      ∧ (delivering (record (.holdWait 20000001) 3 0) {}).record 0 = some (record (.holdWait 20000001) 3 0) := by decide +kernel

/-- A delivery with a frame of three bytes in hand, as its printer, route and job stand. -/
def handing (route : Route) (again : Bool) (q : Question) (j : Job → Job) : Bridge :=
  ((peopled.modSpool fun x => { x with jobs := [j { job with state := .delivering, chain := [511], held := 3 }] }).setRecord 0
    (some { record .pacing 1 0 with
            route, frame := some { start := 0, count := 3, first := true, endOfCopy := true, seq := 0, asked := again } })).modDelivery
    fun u => { u with printers := [(12, { question := q })] }

/-- A logical printer without a primary, with an empty queue, and with a head of each readiness, its printer available or not. -/
theorem witness_DeliveriesStartAndHandOver :
    (peopled.lp 0).binding.primary = none ∧ ((bound 1).lp 0).queue = []
      ∧ (let b := ((bound 1).modLp 0 fun x => { x with queue := [1] }).modDelivery fun u => { u with printers := [(12, {})] }
         (b.lp 0).queue = 1 :: [] ∧ (b.job 1).map (·.mode) = some .spool ∧ (b.lp 0).active = .primary
           ∧ (b.readyHead 0).map (·.number) = some 1 ∧ b.available 12 = false
           ∧ (b.modEntries (put 1 bridgeEntry)).available 12 = true
           ∧ (b.lp 0).binding.primary.toList ++ (b.lp 0).binding.alternate.toList = [] ++ 12 :: []
           ∧ (b.entry 12).bind b.routeOf = some (.port 1))
      ∧ (∀ r ∈ [Route.port 1, .unknownEnd 0, .pair mac], (handing r false .none id).record 0 =
          some { record .pacing 1 0 with
                 route := r, frame := some { start := 0, count := 3, first := true, endOfCopy := true, seq := 0 } })
      ∧ (handing (.port 1) false .none id).mayHandOver 0 = true
      ∧ (handing (.port 1) false .none fun j => { j with state := .cancelling }).job 65535
          = some { job with state := .cancelling, chain := [511], held := 3 }
      ∧ ([0, 1, 2].map fun i => (([511] : List BlockNo).getD ((0 + i) / 512) 0).val * 512 + (0 + i) % 512) = [261632, 261633, 261634]
      ∧ (∀ a ∈ [261632, 261633, 261634], a ∉ ([] : List Nat)) ∧ 261634 ∈ [261634] ∧ (∀ z ∈ [261632, 261633], z ∉ [261634])
      ∧ (handing (.port 1) true (.frame (.bit true)) id).question 12 = .frame (.bit true)
      ∧ (handing (.pair mac) true (.frame (.byte 255)) id).question 12 = .frame (.byte 255)
      ∧ (handing (.pair mac) false .none id).pair.link = false ∧ linked.pair.link = true ∧ linked.pair.queue.length < 48
      ∧ 48 ≤ (crowded live).pair.queue.length
      ∧ (peopled.port 1).class1.length < 24 ∧ 24 ≤ ((ports { readyPort with class1 := List.replicate 24 frame }).port 1).class1.length
      ∧ (∀ x ∈ [(JobInput.opened, 1021), (.opened, 1022), (.closed, 1021)],
          ((handing (.port 1) false .none fun j => { j with mode := .stream, input := x.1, held := x.2 }).job 65535).map (·.held)
            = some x.2) := by decide +kernel

/-- A printer whose poll timer has just reached 2 s, with a query in hand and a pause of just over the limit of 600 s behind it. -/
def silent : Printer :=
  { pollFrom := some 19750000, question := .query (.bit true) 7 (some 20000000), pauseStart := some 0, delivering := some 65535 }

def polled (f : Bridge → Bridge) : Bridge :=
  f (((peopled.modEntries (put 1 bridgeEntry)).modDelivery fun u => { u with printers := [(12, silent)] }).setCtl
    { live.ctl with now := 20000000 })

theorem witness_StatusQueriesAndPauses :
    (on (polled id)).takesTraffic ∧ (polled id).printer 12 = some silent ∧ 19750000 + 250000 ≤ (polled id).ctl.now
      ∧ (polled id).lpDelivering 12 = none ∧ ((polled id).entry 12).bind (polled id).routeOf = some (.port 1)
      ∧ ((polled id).entry 12).bind (polled id).querySource = some 254 ∧ ((polled id).entry 12).map (·.reachable) = some true
      ∧ (delivering (record .paused 1 0) silent).lpDelivering 12 = some 0
      ∧ (delivering (record .paused 1 0) silent).record 0 = some (record .paused 1 0)
      ∧ (delivering { record .paused 1 0 with route := .pair mac } silent).lpDelivering 12 = some 0
      ∧ linked.pair.link = true ∧ linked.pair.queue.length < 48
      ∧ (peopled.entry 12).bind peopled.querySource = none
      ∧ ({ silent with pollFrom := none } : Printer).pollFrom = none ∧ ({ silent with pollFrom := some 19750001 } : Printer).pollFrom = some 19750001
      ∧ (20000000 : Nat) < 19750001 + 250000 ∧ silent.question = .query (.bit true) 7 (some 20000000) := by decide +kernel

/-- A pause of exactly the limit does not exceed it, one of a word time more does; a limit of 0 never is exceeded. -/
theorem witness_PauseLimit :
    live.settings.pauseLimit ≠ 0 ∧ ¬ (0 + 125000 * (60 * live.settings.pauseLimit) < 75000000)
      ∧ 0 + 125000 * (60 * live.settings.pauseLimit) < 75000001
      ∧ (({ live.settings with pauseLimit := 0 } : Settings).pauseLimit = 0) := by decide +kernel

/-- A question of either kind in hand, or none; answers that match it and answers that do not; tries before the third and at it; copies
before the last and at it; and the printers a stop may turn to. -/
theorem witness_PrinterAnswersActOnTheDelivery :
    (handing (.port 1) true (.frame (.bit true)) id).question 12 = .frame (.bit true)
      ∧ (handing (.port 1) true (.frame (.bit true)) id).lpDelivering 12 = some 0
      ∧ (polled id).question 12 = .query (.bit true) 7 (some 20000000) ∧ (handing (.port 1) false .none id).question 12 = .none
      ∧ OutSeq.bit true ≠ .bit false
      ∧ ((handing (.port 1) true (.frame (.bit true)) id).setRecord 0 none).lpDelivering 12 = none
      ∧ (delivering (record .paused 1 0) silent).record 0 = some (record .paused 1 0)
      ∧ (delivering (record .queued 3 0) silent).record 0 = some (record .queued 3 0) ∧ (record .queued 3 0).tries = 3
      ∧ ((handing (.port 1) true .none id).record 0).map (·.tries) = some 1
      ∧ (∀ n ∈ [0, 1], ((handing (.port 1) true .none fun j => { j with copies := 2, copiesDone := n }).job 65535).map (·.copiesDone) = some n)
      ∧ ((handing (.port 1) true .none fun j => { j with state := .cancelling }).job 65535).map (·.state) = some .cancelling
      ∧ ((bound 1).lp 0).binding.primary = some 12 ∧ (peopled.lp 0).binding.primary ≠ some 12
      ∧ ((peopled.modLp 0 fun x => { x with binding := { x.binding with alternate := some 12 } }).lp 0).binding.alternate = some 12 := by
  decide +kernel

/-! ## Witnesses: management -/

/-- A manager, a station without the right, and a pair source before and in the setup state; a queue with room and a full one. -/
theorem witness_ManagementIsJudgedAndAnswered :
    (on peopled).takesTraffic ∧ peopled.mayManage asker = true ∧ peopled.mayManage (.coax 0 12 1 false (some 13)) = false
      ∧ live.mayManage (.pair mac 1 0 0 none) = false
      ∧ (live.modAgent fun a => { a with setup := true }).mayManage (.pair mac 1 0 0 none) = true
      ∧ asker = .coax 0 5 1 false (some 10) ∧ (peopled.port 0).class1.length < 24 ∧ linked.pair.queue.length < 48
      ∧ ¬ (crowded live).pair.queue.length < 48 := by decide +kernel

theorem witness_ReadsAnswerTheStoredRecords :
    (on (spooled job)).takesTraffic ∧ (spooled job).mayManage asker = true ∧ (spooled job).job 65535 = some job
      ∧ (spooled job).job 1 = none
      ∧ (delivering (record .none 1 0) silent).mayManage asker = true ∧ (delivering (record .none 1 0) silent).printer 12 = some silent
      ∧ (delivering (record .none 1 0) silent).printer 384 = none := by decide +kernel

theorem witness_SettingsAreStoredAndTakeEffect :
    (on peopled).takesTraffic ∧ peopled.mayManage asker = true ∧ settingPort 3 17 = some 3 ∧ settingPort 4 17 = none ∧ settingPort 4 1 = some 0
      ∧ (peopled.settings.store 3 17 (.onOff false)).isSome = true ∧ peopled.settings.store 0 30 (.number 0) = none
      ∧ peopled.settings.store 0 1 (.onOff true) = none ∧ (peopled.settings.fetch 0 29).isSome = true
      ∧ (peopled.settings.store 0 28 (.destination (some 10))).isSome = true ∧ (peopled.settings.store 0 28 (.destination (some 384))).isSome = true
      ∧ (mac ||| 0x010000000000#48).getLsbD 40 = true
      ∧ (peopled.portSettings 3).enable = true ∧ (peopled.mon 3).state ≠ .off
      ∧ ((peopled.setSettings (peopled.settings.modPort 3 fun x => { x with enable := false })).portSettings 3).enable = false
      ∧ ((peopled.modMon 3 fun m => { m with state := .off }).mon 3).state = .off := by decide +kernel

/-- A READ-SETTING's selector lies within 0 to 3, also for a setting that is not of a port (R183). -/
theorem test_read_setting_selector :
    (peopled.readSetting 4 1).1 = .malformed ∧ (peopled.readSetting 0 1).1 = .ok ∧ (peopled.readSetting 3 1).1 = .ok
      ∧ (peopled.readSetting 3 17).1 = .ok ∧ (peopled.readSetting 4 17).1 = .malformed
      ∧ (peopled.readSetting 0 30).1 = .malformed := by decide +kernel

/-- A STATION homed on segment 2 under 253. -/
def fields : PlanFields := { state := .fixed, kind := .station, home := .port 2, number := some 253 }

def staged (n : Nat) : Bridge :=
  peopled.modDir fun d => { d with staging := (List.range' 100 n).map fun k => .entry k .delete }

theorem witness_EditsAreStaged :
    (on (staged 31)).takesTraffic ∧ (staged 31).mayManage asker = true ∧ fields.ok = true ∧ (staged 32).dir.staging.length = 32
      ∧ (staged 31).dir.staging.length < 32 ∧ (staged 32).dir.staging.any (Edit.entry 384 (.fields fields)).sameItem = false
      ∧ (staged 32).dir.staging.any (Edit.entry 131 (.fields fields)).sameItem = true
      ∧ (staged 31).entry 384 = none ∧ ((staged 31).entry 13).any (·.state = .retiring) = false
      ∧ ({ fields with number := none } : PlanFields).ok = false
      ∧ learnedAsEdited ((peopled.modEntry 13 fun e => { e with state := .learned }).entry 13)
          { state := .learned, kind := .station, home := .port 1, number := some 12 } = true
      ∧ ((peopled.modEntry 13 fun e => { e with state := .retiring }).entry 13).any (·.state = .retiring) = true
      ∧ (staged 32).dir.staging.any (Edit.entry 13 .delete).sameItem = false ∧ ((staged 32).entry 13).map (·.state) = some .fixed
      ∧ (staged 32).dir.staging.any (Edit.printer 9 {}).sameItem = false
      ∧ (∀ n, (none : Option DirNo) = some n ∨ (some 384 : Option DirNo) = some n → 1 ≤ n ∧ n ≤ 384)
      ∧ (staged 32).dir.staging = (staged 31).dir.staging ++ Edit.entry 131 .delete :: [] := by
  refine ⟨?_, ?_, ?_, ?_, ?_, ?_, ?_, ?_, ?_, ?_, ?_, ?_, ?_, ?_, ?_, ?_, ?_⟩ <;> first | decide +kernel | skip
  rintro n (h | h) <;> cases h; decide

theorem witness_EditsAreDiscarded :
    (on (staged 32)).takesTraffic ∧ (staged 32).mayManage asker = true := by decide +kernel

/-- A plan that passes every check: that of a bad image with the manager. -/
def planned (l : List Edit) : Bridge :=
  (managed (ports readyPort)).modDir fun d => { d with entries := defaultEntries ++ d.entries, staging := l }

/-- No edit, a SAVE, an edit of a RETIRING entry, one that writes LEARNED where the entry is FIXED, none stale that fails a check, and none
stale that passes. -/
theorem witness_CommitIsDecidedInOrder :
    (on (planned [])).takesTraffic ∧ (planned []).mayManage asker = true ∧ (planned []).agent.saveState = .idle
      ∧ ((planned []).modAgent fun a => { a with saveState := .running }).agent.saveState = .running ∧ (planned []).dir.staging = []
      ∧ (((planned [.entry 10 .delete]).modEntry 10 fun e => { e with state := .retiring }).entry 10).map (·.state) = some .retiring
      ∧ ((planned [.entry 10 (.fields { fields with state := .learned })]).entry 10).map (·.state) = some .fixed
      ∧ ((planned [.entry 1 .delete]).entry 1).map (·.state) = some .fixed
      ∧ ((planned [.entry 1 .delete]).trial.check (planned []).segments).map (·.check) = some 6
      ∧ (planned [.entry 384 (.fields fields)]).entry 384 = none ∧ fields.state = .fixed
      ∧ (planned [.entry 384 (.fields fields)]).dir.staging ≠ []
      ∧ (planned [.entry 384 (.fields fields)]).trial.check (planned []).segments = none := by decide +kernel

/-- Staged edits that write a new entry, free one, make one RETIRING, and bind a logical printer. -/
def applied : Bridge :=
  (planned [.entry 384 (.fields fields), .entry 12 .delete, .entry 13 .delete, .printer 9 {}]).modEntries fun es =>
    put 12 { state := .fixed, kind := .printer, home := .seg 1 9 }
      (put 13 { state := .fixed, kind := .station, home := .seg 1 12, pins := 1 } es)

theorem witness_AppliedCommitWritesThePlan :
    applied.dir.staging.Pairwise (fun x y => x.sameItem y = false) ∧ Edit.entry 384 (.fields fields) ∈ applied.dir.staging
      ∧ ((applied.stopMoved applied.dir.staging).entry 12).map (·.pins) = some 0
      ∧ ((applied.stopMoved applied.dir.staging).entry 13).map (·.pins) = some 1
      ∧ applied.lpDelivering 12 = none ∧ applied.paired 2 = false ∧ Edit.printer 9 {} ∈ applied.dir.staging
      ∧ (∃ x ∈ applied.applyCommit.2.dir.entries, x.2.state = .fixed ∧ x.2.rights.manage = true)
      ∧ applied.applyCommit.1.freed = 1 ∧ applied.applyCommit.1.retiring = 1 := by decide +kernel

theorem witness_CheckedPlansObeyTheLaws : (planned []).plan.check [0, 1, 2, 3] = none := by decide +kernel

theorem witness_FaultsAreClearedAndJobsCancelled :
    (on (spooled job)).takesTraffic ∧ (spooled job).mayManage asker = true ∧ FaultSet.isEmpty ⟨true, false, false, false⟩ = false
      ∧ FaultSet.isEmpty {} = true
      ∧ (spooled { job with state := .queued }).job 65535 = some { job with state := .queued }
      ∧ (spooled { job with state := .cancelling }).job 65535 = some { job with state := .cancelling }
      ∧ (delivering (record .queued 1 0) silent).job 65535 = some { job with state := .delivering }
      ∧ (delivering (record .queued 1 0) silent).record 0 = some (record .queued 1 0)
      ∧ (delivering (record (.window 5) 1 0) silent).record 0 = some (record (.window 5) 1 0)
      ∧ (record .paused 1 0).phase ≠ .queued ∧ (delivering (record .paused 1 0) silent).record 0 = some (record .paused 1 0)
      ∧ (spooled job).job 1 = none := by decide +kernel

def saving : Bridge := peopled.modAgent fun a => { a with saveState := .running }

def armed (reported : Bool) (deadline : Time) (k : ArmedReset) : Bridge :=
  peopled.setCtl { peopled.ctl with waiting := some { kind := k, answer := 7, reported, deadline } }

theorem witness_SaveRunsToItsResult :
    (on peopled).takesTraffic ∧ peopled.agent.saveState = .idle ∧ peopled.ctl.waiting = none ∧ saving.agent.saveState = .running
      ∧ saving.mayManage asker = true ∧ (armed true 0 .soft).ctl.waiting ≠ none := by decide +kernel

theorem witness_ResetsWaitOrAreHeld :
    (on peopled).takesTraffic ∧ peopled.mayManage asker = true ∧ peopled.ctl.waiting = none ∧ peopled.agent.saveState = .idle
      ∧ saving.agent.saveState = .running ∧ (armed false 20000001 .soft).ctl.waiting = some ⟨.soft, 7, false, 20000001⟩
      ∧ (armed false 20000001 .soft).ctl.now < 20000001 ∧ (on (armed false 20000001 .soft)).takesTraffic
      ∧ State.reset.bridge.ctl.phase ≠ .heldPower ∧ (on { ctl := { phase := .heldPower } }).bridge.ctl.phase = .heldPower
      ∧ (on { ctl := { phase := .heldPin } }).bridge.ctl.phase = .heldPin ∧ (on live).bridge.ctl.phase = .running := by decide +kernel

/-- The part in its load with a GOOD image of the plan of a bad one. -/
def goodImage : Image :=
  { entries := (1, { kind := .bridge, home := .internal, visible := some 254, shown := PortSet.all }) ::
      (List.range' 2 8).map fun n => (n, { kind := .spool, home := .internal }) }
def loading : Bridge :=
  State.reset.bridge.modAgent fun a =>
    { a with configMem := { marker := true, image := goodImage, check := checkOf (Config.imageBytes goodImage) } }

theorem loading_image_good : loading.imageGood = true := by
  have plan : (((loading.loadImage goodImage).plan.check (loading.loadImage goodImage).segments).isNone) = true := by decide +kernel
  have memory : loading.agent.configMem = { marker := true, image := goodImage, check := checkOf (Config.imageBytes goodImage) } := rfl
  simp only [Bridge.imageGood, memory, plan, decide_true, Bool.and_self]

theorem reset_holds_power_on_values : PowerOnValues loading := by
  constructor <;> decide +kernel

theorem witness_LoadEndStartsThePart :
    State.reset.bridge.ctl.phase = .loading ∧ State.reset.bridge.imageGood = false ∧ live.ctl.phase ≠ .loading
      ∧ (on loading).bridge.ctl.phase = .loading ∧ loading.imageGood = true
      ∧ goodImage.entries.Pairwise (fun x y => x.1 ≠ y.1) ∧ PowerOnValues loading := by
  refine ⟨?_, ?_, ?_, ?_, loading_image_good, ?_, reset_holds_power_on_values⟩ <;> decide +kernel

theorem witness_SoftAndPortResets :
    (on (armed true 20000001 .soft)).takesTraffic ∧ (armed true 20000001 .soft).ctl.waiting = some ⟨.soft, 7, true, 20000001⟩
      ∧ (armed false 20000000 .soft).ctl.waiting = some ⟨.soft, 7, false, 20000000⟩ ∧ 20000000 ≤ (armed false 20000000 .soft).ctl.now
      ∧ (∀ x ∈ (armed true 0 .soft).exchanges, x.1 ≤ 15) ∧ (∀ x ∈ (table (opened .held)).exchanges, x.1 ≤ 15)
      ∧ (armed true 0 (.port 3)).ctl.waiting = some ⟨.port 3, 7, true, 0⟩
      ∧ (fed {}).resetPorts 3 = [2, 3] ∧ (armed true 0 (.port 3)).resetPorts 3 = [3] ∧ ((fed {}).feed 1).paired = true := by
  decide +kernel

/-! ## Witnesses: line monitors and feeds -/

/-- The part with the monitor of port 2 in a state. -/
def monitored (m : Monitor) : Bridge := live.setPorts (Vector.replicate 4 { mon := m })

def testing (t : Time) (n : Nat) : Monitor := { state := .testing, testOwed := true, runFrom := some t, restarts := n }

theorem witness_TerminationTestReachesItsResult :
    (on (monitored (testing 19997500 0))).takesTraffic ∧ ((monitored (testing 19997500 0)).mon 2).state = .testing
      ∧ ((monitored (testing 19997500 0)).mon 2).runFrom = some 19997500 ∧ 19997500 + 2500 ≤ (monitored (testing 19997500 0)).ctl.now
      ∧ ((monitored (testing 19997500 0)).port 2).carrier = none
      ∧ ((monitored (testing 19997501 0)).mon 2).runFrom = some 19997501 ∧ 20000000 < 19997501 + 2500
      ∧ ((monitored (testing 0 4)).mon 2).restarts < 5 ∧ 5 ≤ ((monitored (testing 0 5)).mon 2).restarts
      ∧ ((monitored { testing 0 0 with runFrom := none }).mon 2).runFrom = none
      ∧ (monitored (testing 0 0)).partnerActive 2 = false
      ∧ (((monitored (testing 0 0)).modMon 3 fun m => { m with state := .active }).modFeed 1 fun f => { f with paired := true }).partnerActive 2 = true
      ∧ ((monitored (testing 0 0)).portSettings 2).openResponse = .isolate := by decide +kernel

def bursting (start : Time) : Bridge := ports { readyPort with carrier := some { start } }

def jabbering (t : Time) : Bridge := monitored { state := .isolated, hold := ⟨false, false, true, false⟩, jabberFrom := some t }

/-- Driving since 160 µs (20 word times) ago: a current of the deglitch time of 20 µs, and of no more than the attempt has lasted. -/
def driving20 : Bridge := ports { readyPort with attempt := some ⟨false, 19999980, frame.block.covered⟩ }

theorem witness_DetectionsIsolateThePort :
    (on driving20).takesTraffic ∧ (driving20.mon 0).state = .active ∧ driving20.driving 0 = true
      ∧ (driving20.portSettings 0).deglitch ≤ 20 ∧ ¬ (driving20.portSettings 0).deglitch ≤ 19
      ∧ (driving20.port 0).attempt = some ⟨false, 19999980, frame.block.covered⟩ ∧ 160 ≤ 8 * (20000000 - 19999980)
      ∧ 8 * (20000000 - 19999980) < 161
      ∧ (ports readyPort).driving 0 = false ∧ ((bursting 19999359).port 0).carrier = some { start := 19999359 }
      ∧ 19999359 + 640 < (bursting 0).ctl.now ∧ (20000000 : Nat) ≤ 19999360 + 640 ∧ ((bursting 19999360).port 0).carrier = some { start := 19999360 }
      ∧ ((bursting 0).mon 0).state ≠ .off ∧ (live.mon 0).state = .off
      ∧ ((jabbering 19937500).mon 2).hold.jabber = true ∧ ((jabbering 19937500).port 2).carrier = none
      ∧ ((jabbering 19937500).mon 2).jabberFrom = some 19937500 ∧ 19937500 + 62500 ≤ (jabbering 0).ctl.now
      ∧ ((jabbering 19937501).mon 2).jabberFrom = some 19937501 ∧ (20000000 : Nat) < 19937501 + 62500
      ∧ (live.mon 0).hold.jabber = false := by decide +kernel

def sampled (last : Time) (run : Nat) (a : Option Nat) (m : SamplingMode) : Bridge :=
  monitored { state := .active, lastSample := last, lowRun := run, lastAmp := a, mode := m, echoDue := true }

theorem witness_LevelsAndEchoes :
    (on (sampled 19500000 3 none .spot)).takesTraffic ∧ ((sampled 19500000 3 none .spot).mon 1).state ≠ .off
      ∧ ((sampled 19500000 3 none .spot).mon 1).lastSample + 500000 ≤ 20000000 ∧ ((sampled 19500000 3 none .spot).mon 1).lastAmp = none
      ∧ 19992000 + 8000 ≤ (sampled 19992000 3 (some 0) .watch).ctl.now ∧ ((sampled 19992000 3 (some 0) .watch).mon 1).lastAmp = some 0
      ∧ (20000000 : Nat) < 19992001 + 8000 ∧ min 15 (8 * 124 / (live.portSettings 1).nominal) = 0 ∧ min 15 (8 * 125 / (live.portSettings 1).nominal) = 1
      ∧ ((sampled 0 2 none .spot).mon 1).lowRun < 3 ∧ 3 ≤ ((sampled 0 3 none .spot).mon 1).lowRun
      ∧ ((sampled 0 0 none .spot).mon 1).echoDue = true ∧ (sampled 0 0 none .spot).inSplit 1 = false
      ∧ (live.portSettings 1).nominal < 4 * 251 ∧ 4 * 250 ≤ (live.portSettings 1).nominal ∧ (live.mon 0).echoDue = false
      ∧ ((sampled 0 0 none .spot).modFeed 0 fun f => { f with paired := true, state := .split }).inSplit 1 = true := by decide +kernel

/-- A burst on the wire that a sample may take: its preamble has just ended; one that has been taken is not taken again. -/
theorem witness_LevelsOnTheWire :
    ((bursting 19999998).port 1).carrier = some { start := 19999998 } ∧ (19999998 : Nat) + 2 ≤ (bursting 0).ctl.now
      ∧ ((ports { readyPort with carrier := some { start := 0, sampled := true } }).port 1).carrier = some { start := 0, sampled := true }
      ∧ ((bursting 0).mon 1).lastSample + 500000 ≤ (bursting 0).ctl.now := by decide +kernel

/-- A probe in hand on ports in one state. -/
def fedOn (x : PortState) : Bridge := (ports x).setFeeds (Vector.replicate 2 { paired := true, state := .split, probing := true })

theorem witness_FeedEventsMoveTheFeed :
    (on (fed { state := .feedB, window := .switch })).takesTraffic ∧ ((fed {}).feed 1).paired = true
      ∧ ((fed { state := .feedB, window := .switch }).feed 1).window = .switch
      ∧ (fed { state := .feedB, window := .switch }).driving ((fed { state := .feedB, window := .switch }).feedingEnd 1) = false
      ∧ ((fed { state := .feedA, window := .split }).feed 1).window = .split
      ∧ (fed { state := .feedA, window := .split }).driving ((fed { state := .feedA, window := .split }).feedingEnd 1) = false
      ∧ ((fed { state := .split, probeFrom := some 18750000 }).feed 1).probeFrom = some 18750000
      ∧ 18750000 + 1250000 ≤ (fed {}).ctl.now ∧ (20000000 : Nat) < 18750001 + 1250000
      ∧ ((fed { state := .split }).mon (lowerOf 1)).state = .active ∧ (live.mon (lowerOf 1)).state ≠ .active
      ∧ (let b := fedOn { readyPort with quietFrom := 19999994 }
         (b.feed 1).probing = true ∧ (∀ p, pairOf p = 1 → b.driving p = false ∧ (b.port p).carrier = none ∧ (b.port p).quietFrom + 6 ≤ b.ctl.now))
      ∧ (let b := fedOn { readyPort with quietFrom := 19999994, carrier := some { start := 19999998 } }
         (b.feed 1).probing = true ∧ (∀ p, pairOf p = 1 → b.driving p = false ∧ (b.port p).quietFrom + 6 ≤ b.ctl.now
           ∧ (b.port p).carrier = some { start := 19999998 }) ∧ b.ctl.now ≤ 19999998 + 2)
      ∧ 8 ≤ min 15 (8 * 1000 / ((fed {}).portSettings (lowerOf 1)).nominal) ∧ min 15 (8 * 999 / ((fed {}).portSettings (lowerOf 1)).nominal) < 8 := by
  decide +kernel

/-! ## Witnesses: changes of port state and of feed state -/

/-- A number unknown on a segment in SPLIT, under each kind the clauses name. -/
theorem witness_SplitMeetsUnknownNumbers :
    ((halves (some .b) 41).port 0).arrivals = { block := { data with dst := 41 }, late := false } :: []
      ∧ findHome (halves (some .b) 41).dir.entries 0 41 = none ∧ findOn (halves (some .b) 41).dir.entries 0 41 = none
      ∧ Arrival.isAnswer (.coax 0 { data with dst := 41, kind := .reply }) = true
      ∧ Arrival.isAnswer (.coax 0 { data with dst := 41, kind := .notice }) = false := by decide +kernel

/-- Two ends of pair 0 in given states, their controller as given. -/
def endsIn (f : Feed) (a c : PortMode) : Bridge :=
  ((fed f).modMon 0 fun m => { m with state := a }).modMon 1 fun m => { m with state := c }

/-- A start-up wait that goes on, one that ends with both ends, one or none ACTIVE, an OPEN found in it or not. -/
theorem witness_StartUpWaitEnds :
    (∀ o ∈ [true, false], ∀ a ∈ [PortMode.testing, .active, .isolated, .off], ∀ c ∈ [PortMode.testing, .active, .isolated, .off],
        let b := endsIn { startWait := true, openInWait := o } a c
        (b.feed 0).paired = true ∧ (b.feed 0).startWait = true ∧ (b.feed 0).openInWait = o ∧ (b.mon (lowerOf 0)).state = a
          ∧ (b.mon (upperOf 0)).state = c) ∧ pairOf 1 = 0 ∧ pairOf 0 = 0 := by decide +kernel

/-- A controller in each state and window with the ends it may find. -/
theorem witness_FeedFollowsItsEnds :
    ∀ f ∈ [FeedState.feedA, .feedB, .split, .down], ∀ w ∈ [Window.none, .switch, .split], ∀ a ∈ [PortMode.active, .isolated],
      ∀ c ∈ [PortMode.active, .isolated],
        let b := endsIn { state := f, window := w } a c
        (b.feed 0).paired = true ∧ (b.feed 0).startWait = false ∧ (b.feed 0).state = f ∧ (b.feed 0).window = w
          ∧ (b.mon (lowerOf 0)).state = a ∧ (b.mon (upperOf 0)).state = c := by decide +kernel

/-- A change of feed state that takes its path from end A and gives it to end B, one that does the reverse, one into SPLIT, and one that
changes no state. -/
theorem witness_FeedChangesMoveThePath :
    (let b := fed { state := .feedA }
     let y := b.changeFeed 0 fun f => { f with state := .feedB }
     b.canTransmit 0 = true ∧ y.2.canTransmit 0 = false ∧ b.canTransmit 1 = false ∧ y.2.canTransmit 1 = true)
      ∧ (let b := fed { state := .feedB }
         let y := b.changeFeed 0 fun f => { f with state := .feedA }
         b.canTransmit 1 = true ∧ y.2.canTransmit 1 = false ∧ b.canTransmit 0 = false ∧ y.2.canTransmit 0 = true)
      ∧ (fed { state := .feedA }).canTransmit 0 = true
      ∧ ((fed { state := .feedA }).changeFeed 0 fun f => { f with state := .split }).2.canTransmit 0 = true
      ∧ pairOf 2 ≠ 0 := by decide +kernel

/-- Every pair of different port states, among them one left and one entered that flush. -/
theorem witness_PortStatesChange :
    ∀ a ∈ [PortMode.testing, .active, .isolated, .off], ((endsIn {} a .active).mon 0).state = a := by decide +kernel

/-- An OPEN told to a pair with the other end ACTIVE, in FEED_A and FEED_B, and where it is not, or the pair is in SPLIT. -/
theorem witness_OpenIsTold :
    (∀ f ∈ [FeedState.feedA, .feedB, .split], ((endsIn { state := f } .active .active).feed (pairOf 0)).state = f
        ∧ ((endsIn { state := f } .active .active).mon (partner 0)).state = .active)
      ∧ ((endsIn { state := .feedA } .active .isolated).mon (partner 0)).state ≠ .active
      ∧ (endsIn { state := .feedA } .active .active).partnerActive 0 = true ∧ (endsIn { state := .feedA } .active .active).canTransmit 0 = true
      ∧ (endsIn { state := .feedA } .active .active).canTransmit 1 = false := by decide +kernel

/-- A pulse on quiet ends, one that a burst of foreign carrier has disturbed and that has ended, and one with the carrier on the wire. -/
theorem witness_PulsesAreSent :
    (fedOn { readyPort with quietFrom := 19999994 }).mayPulse 1 false = true
      ∧ (fedOn { readyPort with quietFrom := 19999995 }).mayPulse 1 false = false
      ∧ (fedOn { readyPort with quietFrom := 19999998 }).mayPulse 1 true = true
      ∧ (fedOn { readyPort with quietFrom := 19999997 }).mayPulse 1 true = false
      ∧ (fedOn { readyPort with quietFrom := 19999994, carrier := some { start := 19999998 } }).mayPulse 1 false = true := by decide +kernel

/-- An empty history; smoothed levels of 3, 4 and 5 with the DEGRADED flag clear and set; and a hold set with LOW_SIGNAL. -/
theorem witness_SmoothedLevels :
    (live.mon 0).history = [] ∧ ([3] : List Nat).sum / [3].length ≤ 3 ∧ ¬ ([4] : List Nat).sum / [4].length ≤ 3
      ∧ ¬ 5 ≤ ([4] : List Nat).sum / [4].length ∧ 5 ≤ ([5] : List Nat).sum / [5].length
      ∧ ((monitored { history := [5], degraded := true }).mon 0).degraded = true
      ∧ ((monitored { hold := ⟨false, false, false, true⟩ }).mon 0).hold.lowSignal = true := by decide +kernel

/-- A query on the pair side that finds the link DOWN, and one that finds the pair queue full. -/
theorem witness_PairQueriesAreNotSent :
    let b := delivering { record .paused 1 0 with route := .pair mac } silent
    (on b).takesTraffic ∧ b.pair.link = false ∧ 48 ≤ (crowded b).pair.queue.length ∧ (crowded b).printer 12 = some silent
      ∧ (crowded b).lpDelivering 12 = some 0 ∧ (b.entry 12).isSome = true := by decide +kernel

/-- A lower and an upper port of a paired segment and a port of no pair; a probe timer that runs. -/
theorem witness_FeedRecordsAreRead :
    (fed {}).paired 2 = true ∧ (2 : Port) = lowerOf (pairOf 2) ∧ (3 : Port) = upperOf (pairOf 3) ∧ live.paired 2 = false
      ∧ ((fed { state := .split, probeFrom := some 18750000 }).feed (pairOf 2)).probeFrom = some 18750000 := by decide +kernel

/-- A port whose enable goes OFF and ON, with a cap below its allowance. -/
theorem witness_EnableChanges :
    (live.portSettings 0).enable = true ∧ ({ live.portSettings 0 with enable := false } : PortSettings).enable = false
      ∧ ({ live.portSettings 0 with cap := 521 } : PortSettings).cap < readyPort.allowance := by decide +kernel

/-- A plan that fails a check, with what it answers. -/
theorem witness_PlansFailChecks :
    (planned [.entry 1 .delete]).trial.check [0, 1, 2, 3] = some { check := 6, first := 1 } := by decide +kernel

/-- A soft and a port reset of a part with a paired segment in effect, which the setting unpairs. -/
theorem witness_PairedPartIsReset :
    (let b := (fed { state := .split }).setCtl (armed true 0 .soft).ctl
     (on b).takesTraffic ∧ b.ctl.waiting = some ⟨.soft, 7, true, 0⟩ ∧ (b.feed 0).paired = true)
      ∧ (let b := (fed { state := .split }).setCtl (armed true 0 (.port 3)).ctl
         (on b).takesTraffic ∧ b.ctl.waiting = some ⟨.port 3, 7, true, 0⟩ ∧ (b.feed (pairOf 3)).paired = true
           ∧ b.settings.pairing[pairOf 3] = false) := by decide +kernel

theorem witness_LineCommandsKeepTheRest : (∃ t, exec (.levelSample ⟨0, none⟩) (on live) = .next t) ∧ ∃ t, exec (.probeDue 0) (on live) = .next t :=
  ⟨⟨_, rfl⟩, ⟨_, rfl⟩⟩

theorem witness_FaultPinShowsItsConditions : ∃ t, exec .linkUp (on live) = .next t := ⟨_, rfl⟩

/-- A group without a first error and one with; a destination absent, FREE, unreachable, on the pair side with room and without, and on
coax with the bridge number there and without; a fault latched and not; and a HELLO that finds the directory full. -/
theorem witness_ErrorsAreCapturedAndNoticed :
    (live.group 8).first = none
      ∧ ((live.modGroup 8 fun x => { x with first := some { kind := .parity, time := 0, detail := .none } }).group 8).first
          = some { kind := .parity, time := 0, detail := .none }
      ∧ peopled.entry 384 = none ∧ (peopled.entry 11).map (·.reachable) = some true ∧ (peopled.entry 11).map (·.home) = some (.pair mac .swapped)
      ∧ ((peopled.modEntry 11 fun e => { e with reachable := false }).entry 11).map (·.reachable) = some false
      ∧ (peopled.entry 13).map (·.home) = some (.seg 1 12) ∧ peopled.bridgeNumberOn (peopled.segmentOf 1) = none
      ∧ (bridged id).bridgeNumberOn ((bridged id).segmentOf 1) = some 254 ∧ linked.pair.queue.length < 48
      ∧ ¬ (crowded live).pair.queue.length < 48 ∧ (peopled.port 1).class1.length < 24
      ∧ 24 ≤ ((ports { readyPort with class1 := List.replicate 24 frame }).port 1).class1.length
      ∧ (live.mon 2).latched.has .jabber = false
      ∧ ((live.modMon 2 fun m => { m with latched := FaultSet.put m.latched .jabber true }).mon 2).latched.has .jabber = true := by
  decide +kernel

def fullAndLinked : Bridge := full.modPair fun x => { x with link := true }

theorem witness_HelloFindsTheDirectoryFull :
    (on fullAndLinked).takesTraffic ∧ fullAndLinked.carries (delivered (sent .hello 0)) (sent .hello 0)
      ∧ findMac fullAndLinked.dir.entries mac = none ∧ retiringMac fullAndLinked.dir.entries mac = false
      ∧ fullAndLinked.settings.pairLearning = true ∧ (∀ n ∈ List.range' 10 375, fullAndLinked.entry n ≠ none)
      ∧ ((fullAndLinked.count 6 .mapFull).capture 6 .mapFull (.learnPair mac)).pair.queue.length < 48
      ∧ 48 ≤ (((crowded full).count 6 .mapFull).capture 6 .mapFull (.learnPair mac)).pair.queue.length := by
  unfold Bridge.carries; decide +kernel

/-! ## Witnesses: reports, losses and departures -/

/-- A delivery whose frame waits with a number, is listed, or waits for data. -/
def framed (phase : FramePhase) (route : Route) : Delivery :=
  { record phase 1 0 with route, frame := some { start := 0, count := 3, first := true, endOfCopy := true, seq := 0, serial := 7,
                                                 built := some (.bit true, []) } }

/-- A copy that waits, and one that does not; a question, a delivery's frame and a query that are the one reported, and one that is not;
two copies flushed together; a LISTED frame on either kind of route. -/
theorem witness_LossesAreReported :
    (∃ p, ∃ g ∈ ((ports { readyPort with class1 := [frame] }).port p).class0 ++ ((ports { readyPort with class1 := [frame] }).port p).class1,
        g.serial = frame.serial)
      ∧ (∀ p, ∀ g ∈ (live.port p).class0 ++ (live.port p).class1, g.serial ≠ frame.serial) ∧ frame.siblingSent = false
      ∧ (∀ n ∈ [2, 3], (table { opened (.opened .queued) with tries := n }).exchange 15 = some { opened (.opened .queued) with tries := n })
      ∧ (opened (.opened .queued)).sending = 7 ∧ peopled.exchange 15 = none
      ∧ (delivering (framed .queued (.port 1)) {}).record 0 = some (framed .queued (.port 1)) ∧ (framed .queued (.port 1)).job = 65535
      ∧ (polled id).printer 12 = some silent ∧ silent.question = .query (.bit true) 7 (some 20000000)
      ∧ (record .queued 2 0).tries < 3 ∧ 3 ≤ (record .queued 3 0).tries
      ∧ (∃ g ∈ [frame], g.serial = frame.serial) ∧ (∀ g ∈ ([] : List CoaxFrame), g.serial ≠ frame.serial)
      ∧ (∀ r ∈ [Route.port 1, .unknownEnd 0, .pair mac],
          (delivering (framed .listed r) {}).record 0 = some (framed .listed r)) ∧ pairOf 0 = pairOf 1
      ∧ (handed (.request 0)).pair.queue.map (·.origin) = [.request 0] := by decide +kernel

/-- A question, a delivery's frame, a query without a window and an answer of a waiting reset that are the one reported, and none. -/
theorem witness_SendReportsOpenWindows :
    (table (opened (.opened .queued))).exchange 15 = some (opened (.opened .queued)) ∧ (opened (.opened .queued)).sending = 7
      ∧ (opened .held).state ≠ .opened .queued
      ∧ (delivering (framed .queued (.pair mac)) {}).record 0 = some (framed .queued (.pair mac))
      ∧ ((polled fun b => b.modPrinter 12 fun r => { r with question := .query (.bit true) 7 none }).printer 12).map (·.question)
          = some (.query (.bit true) 7 none)
      ∧ silent.question ≠ .query (.bit true) 7 none
      ∧ (armed false 0 .soft).ctl.waiting = some ⟨.soft, 7, false, 0⟩ ∧ live.ctl.waiting = none := by decide +kernel

/-- A departed entry; a number that is taken, one that nobody withdrawn has, and a withdrawal that is lifted; a RETIRING entry, one at
home, one shown, one withdrawn. -/
def withdrawnFrom (s : Port) : Bridge := peopled.modEntry 13 fun e => { e with withdrawn := PortSet.insert e.withdrawn s }

theorem witness_DepartedEntriesLiftWithdrawals :
    peopled.entry 9 = none ∧ (peopled.entry 13).isSome = true ∧ (∃ x ∈ peopled.dir.entries, numberOn x.2 0 = some 40)
      ∧ (∀ x ∈ peopled.dir.entries, ¬ (x.2.state ≠ .retiring ∧ x.2.visible = some 40 ∧ x.2.withdrawn[(0 : Port)] = true))
      ∧ (∀ x ∈ (withdrawnFrom 0).dir.entries, numberOn x.2 0 ≠ some 40)
      ∧ (∃ x ∈ (withdrawnFrom 0).dir.entries, x.1 = 13 ∧ x.2.state ≠ .retiring ∧ x.2.visible = some 40 ∧ x.2.withdrawn[(0 : Port)] = true)
      ∧ (withdrawnFrom 0).dir.entries.map (·.1) = [10, 11, 12] ++ 13 :: []
      ∧ ((peopled.modEntry 13 fun e => { e with state := .retiring }).entry 13).map (·.state) = some .retiring
      ∧ (peopled.entry 13).map (·.home) = some (.seg 1 12) ∧ (peopled.entry 13).map (·.shown[(0 : Port)]) = some true := by decide +kernel

/-- A question to a pair host and one to a coax station, of an end unknown too. -/
theorem witness_QuestionsAreSentAgain :
    (table (pairOpened .held)).exchange 15 = some (pairOpened .held) ∧ (pairOpened .held).targetRoute = .pair mac
      ∧ (pairOpened .held).outSeq = .byte 255
      ∧ (table { opened .held with targetRoute := .unknownEnd 0 }).exchange 15 = some { opened .held with targetRoute := .unknownEnd 0 }
      ∧ (opened .held).outSeq = .bit true ∧ (0 : Port).val % 2 = 0 := by decide +kernel

/-- A RETIRING requester whose only pin is the old record's. -/
def leaving : Bridge := (table (opened .held)).modEntry 10 fun e => { e with state := .retiring, pins := 1 }

theorem witness_RequesterIsFreedByItsNewQuestion :
    leaving.sameParties 10 13 = some (15, opened .held)
      ∧ (opened .held).requesterSeq ≠ (Asker.latched (.pair mac 13 0 1 (some 10))).2.1
      ∧ (leaving.closeExchange 15).entry 10 = none ∧ ((table (opened .held)).closeExchange 15).entry 10 ≠ none := by decide +kernel

/-- A delivery that waits for data and one that does not; a waiting logical printer without a ready head, with one that starts, and with one
that finds no printer; an IDLE one, and one in another state. -/
theorem witness_WaitingPrintersAreOffered :
    ((delivering (record .dataWait 1 0) {}).record 0).map (·.phase) = some .dataWait ∧ (record .queued 1 0).phase ≠ .dataWait
      ∧ (let b := ((bound 1).modLp 0 fun x => { x with queue := [1] }).modDelivery fun u => { u with printers := [(12, {})] }
         (b.readyHead 0).map (·.number) = some 1 ∧ b.tryStart 0 = none ∧ (b.lp 0).state = .idle
           ∧ ((b.modEntries (put 1 bridgeEntry)).tryStart 0).isSome = true)
      ∧ (peopled.readyHead 0).isNone = true ∧ ((peopled.modLp 0 fun x => { x with state := .waiting }).lp 0).state ≠ .idle := by
  decide +kernel

/-- A sound state with jobs of each kind, and one with a pairing set but not in effect. -/
def resettable : Bridge :=
  (peopled.modSpool fun x => { x with jobs := [job, { job with number := 1, state := .delivering },
    { job with number := 2, state := .delivering, mode := .stream }, { job with number := 3, state := .queued }] }).setSettings
    { peopled.settings with pairing := Vector.replicate 2 true }

theorem witness_ResetsKeepTheRecords :
    (on resettable).takesTraffic ∧ (on resettable).recordsSound ∧ resettable.entry 9 = none ∧ (resettable.entry 13).isSome = true
      ∧ (resettable.feed 0).paired ≠ resettable.settings.pairing[(0 : PairNo)] ∧ resettable.resetPorts 1 = [0, 1]
      ∧ ((resettable.modEntry 13 fun e => { e with state := .learned }).entry 13).map (·.home) = some (.seg (upperOf 0) 12)
      ∧ (armed true 0 (.port 1)).ctl.waiting = some ⟨.port 1, 7, true, 0⟩ := by
  refine ⟨rfl, ⟨?_, ?_, ?_, ?_, ?_, ?_, ?_, ?_, ?_⟩, ?_, ?_, ?_, ?_, ?_, ?_⟩ <;> decide +kernel

theorem witness_CommitsLiftWithdrawals :
    rising applied.dir.entries = true ∧ applied.dir.staging.Pairwise (fun x y => x.sameItem y = false) := by decide +kernel

/-- R177: a relay that waits when the segment splits again is copied to the other end. -/
theorem test_relay_is_copied :
    let b := (fed { state := .split }).relay 0 data
    (b.port 1).class1.map (·.named) = [none] ∧ ((b.redistribute 1 0).2.port 0).class1.length = 1
      ∧ ((b.redistribute 1 0).2.port 1).class1.length = 1 := by decide +kernel

/-- R56, R100: the new question of a requester that has been freed is refused (log 53). -/
theorem test_freed_requester_is_refused :
    let b := leaving.takeRequest (.pair mac 13 0 1 (some 10)) 10 13
      { state := .fixed, kind := .station, home := .seg 1 12, reachable := true } [] false
    b.exchanges = [] ∧ countOf .refused b.forwarding = 1 := by decide +kernel

end Sys2Proof.Tests
end

/-! # The state after reset (O4). -/

namespace Sys2Proof.Machine
open Sys2Proof

/-! ## The state after reset -/

@[simp] theorem port_reset (p : Port) : State.reset.bridge.port p = {} := by
  simp [State.reset, Bridge.port]

@[simp] theorem mon_reset (p : Port) : State.reset.bridge.mon p = {} := by
  simp [Bridge.mon]

@[simp] theorem feed_reset (i : PairNo) : State.reset.bridge.feed i = {} := by
  simp [State.reset, Bridge.feed]

@[simp] theorem lp_reset (l : Lp) : State.reset.bridge.lp l = {} := by
  simp [State.reset, Bridge.lp]

@[simp] theorem record_reset (l : Lp) : State.reset.bridge.record l = none := by
  simp [State.reset, Bridge.record]

@[simp] theorem portSettings_reset (p : Port) : State.reset.bridge.portSettings p = {} := by
  simp [State.reset, Bridge.portSettings]

@[simp] theorem group_reset (g : Fin 9) : State.reset.bridge.group g = { counters := groupCounters g } := by
  simp [State.reset, Bridge.group]

/-- Every counter of every error group starts at 0 (R185). -/
theorem allZero_groupCounters : ∀ g : Fin 9, allZero (groupCounters g) := by decide

theorem allZero_feedCounters : allZero feedCounters := by decide

theorem powerOnValues_reset : PowerOnValues State.reset.bridge where
  queues p := by simp
  contention p := by simp
  allowance p := by simp
  monitor p := by simp
  feed i := by rw [feed_reset]; exact ⟨rfl, rfl, rfl, allZero_feedCounters⟩
  repeats := rfl
  pair := by decide
  directory := ⟨rfl, rfl⟩
  forwarding := by decide
  exchanges := rfl
  jobs := by simp [State.reset]
  printers := lp_reset
  delivery := ⟨rfl, rfl, by decide, fun l => ⟨record_reset l, by simp [State.reset]⟩⟩
  groups g := ⟨by simpa using allZero_groupCounters g, by simp⟩
  reporting := ⟨rfl, rfl⟩
  agent := ⟨rfl, rfl, rfl⟩
  waiting := rfl

theorem sound_reset : State.reset.sound := ⟨rfl, rfl, rfl⟩

theorem allowanceSound_reset : State.reset.allowanceSound := by
  intro p; simp

theorem recordsSound_reset : State.reset.recordsSound where
  entries := rfl
  staging := .nil
  stagingSize := Nat.zero_le _
  exchanges := rfl
  tags := by simp [State.reset]
  jobs := .nil
  jobCount := Nat.zero_le _
  targetEnd := by simp [State.reset]
  deliveryEnd := by simp

/-- Settles O4: each part of the soundness of the reset state, by its own lemma. -/
theorem resetStateIsSound : Obligations.ResetStateIsSound :=
  ⟨powerOnValues_reset, rfl, rfl, rfl, rfl, sound_reset, allowanceSound_reset, recordsSound_reset⟩

end Sys2Proof.Machine

/-! # Words, receive checks and frames read back (O9, O11). -/

namespace Sys2Proof
open Machine

/-! ## Words and bytes -/

@[simp] theorem length_bytesOf (ws : List Word) : (bytesOf ws).length = 2 * ws.length := by
  induction ws with
  | nil => rfl
  | cons w ws ih => simp [bytesOf] at ih ⊢; omega

theorem bytesOf_cons (w : Word) (ws : List Word) :
    bytesOf (w :: ws) = w.extractLsb' 8 8 :: w.extractLsb' 0 8 :: bytesOf ws := rfl

/-- Words read as bytes are the bytes they were made of, where these fill whole words (R1). -/
theorem bytesOf_wordsOf : ∀ l : List Byte, l.length % 2 = 0 → bytesOf (wordsOf l) = l
  | [], _ => rfl
  | [x], h => by simp at h
  | x :: y :: l, h => by
    have ih := bytesOf_wordsOf l (by simp only [List.length_cons] at h; omega)
    rw [wordsOf, bytesOf_cons, ih, BitVec.extractLsb'_append_eq_of_le (by omega), BitVec.extractLsb'_append_eq_of_add_le (by omega)]
    simp

theorem length_wordsOf (l : List Byte) (h : l.length % 2 = 0) : (wordsOf l).length = l.length / 2 := by
  have hb := congrArg List.length (bytesOf_wordsOf l h)
  rw [length_bytesOf] at hb
  omega

/-! ## The fields of the header words (section 0.6) -/

theorem toNat_highByte (w : Word) : (w.extractLsb' 8 8).toNat = w.toNat / 256 := by
  have := w.isLt
  simp [BitVec.extractLsb'_toNat, Nat.shiftRight_eq_div_pow]
  omega

theorem toNat_lowByte (w : Word) : (w.extractLsb' 0 8).toNat = w.toNat % 256 := by
  simp [BitVec.extractLsb'_toNat]

theorem toNat_lengthField (w : Word) : (w.extractLsb' 0 10).toNat = w.toNat % 1024 := by
  simp [BitVec.extractLsb'_toNat]

theorem toNat_kindField (w : Word) : (w.extractLsb' 12 4).toNat = w.toNat / 4096 := by
  have := w.isLt
  simp [BitVec.extractLsb'_toNat, Nat.shiftRight_eq_div_pow]
  omega

theorem getLsbD_eq_decide (w : Word) (i : Nat) : w.getLsbD i = decide (w.toNat / 2 ^ i % 2 = 1) := by
  rw [BitVec.getLsbD, Nat.testBit_eq_decide_div_mod_eq]

/-! ## The receive checks (R5, R6) -/

/-- The block that the fields of two header words and the payload words spell (section 0.6). -/
def blockOf (w0 w1 : Word) (rest : List Word) (kind : Kind) : Block :=
  { dst := w0.toNat / 256, src := w0.toNat % 256, kind, seq := w1.toNat / 2048 % 2 = 1, pad := w1.toNat / 1024 % 2 = 1,
    payload := bytesOf rest }

theorem length_blockOf (w0 w1 : Word) (rest : List Word) (kind : Kind) : (blockOf w0 w1 rest kind).length = rest.length := by
  simp [blockOf, Block.length]

theorem receive_fragment (burst : Burst) (h : burst.preamble = false ∨ burst.words.length < 3) :
    receive burst = .dropped .fragment := by
  obtain ⟨pre, words, amplitude⟩ := burst
  unfold receive
  match words with
  | [] => rfl
  | [w] => rfl
  | w0 :: w1 :: rest =>
    have hr : (!pre || rest.isEmpty) = true := by
      obtain h | h := h
      · simp_all
      · have : rest = [] := List.eq_nil_of_length_eq_zero (by simp at h; omega)
        simp [this]
    simp only [hr, if_true]

/-- The checks that follow the kind's: addresses, payload, padding (R3, R4, R6). -/
def judged (b : Block) : Reception :=
  if b.src = 0 ∨ b.src = 255 ∨ b.dst = 0 then .dropped .badAddress
  else if !payloadOk b then .dropped .badPayload
  else if b.pad ∧ b.length = 0 then .dropped .badPayload
  else .block b

/-- The receive checks on the words after a complete preamble, with the header's fields read. -/
theorem receive_eq_judged (w0 w1 last : Word) (rest : List Word) (amplitude : Nat) :
    receive { preamble := true, words := w0 :: w1 :: (rest ++ [last]), amplitude } =
      if checkOf (bytesOf (w0 :: w1 :: rest)) ≠ last then .dropped .badCheck
      else if 512 < w1.toNat % 1024 ∨ rest.length ≠ w1.toNat % 1024 then .dropped .badLength
      else
        match kindOf (w1.toNat / 4096) with
        | none => .dropped .badKind
        | some .hello => .dropped .badKind
        | some kind => judged (blockOf w0 w1 rest kind) := by
  have hdrop : (w0 :: w1 :: (rest ++ [last])).dropLast = w0 :: w1 :: rest := by
    rw [← List.cons_append, ← List.cons_append, List.dropLast_concat]
  have hlast : (w0 :: w1 :: (rest ++ [last])).getLast?.getD 0 = last := by
    rw [← List.cons_append, ← List.cons_append, List.getLast?_concat]; rfl
  have hlen : (w0 :: w1 :: (rest ++ [last])).length ≠ w1.toNat % 1024 + 3 ↔ rest.length ≠ w1.toNat % 1024 := by
    simp
  have hne : (!true || (rest ++ [last]).isEmpty) = false := by simp
  have hblk (kind : Kind) : Block.mk (w0.extractLsb' 8 8).toNat (w0.extractLsb' 0 8).toNat kind (w1.getLsbD 11) (w1.getLsbD 10)
      (bytesOf rest) = blockOf w0 w1 rest kind := by
    rw [toNat_highByte, toNat_lowByte, getLsbD_eq_decide, getLsbD_eq_decide]; rfl
  simp only [receive, hdrop, hlast, hne, List.dropLast_concat, toNat_lengthField, toNat_kindField, hlen, gt_iff_lt,
    Bool.false_eq_true, if_false]
  split
  · rfl
  split
  · rfl
  cases kindOf (w1.toNat / 4096) with
  | none => rfl
  | some kind => cases kind <;> simp only [← hblk, judged, Bool.and_eq_true, decide_eq_true_eq]

/-- Settles O9. -/
theorem receiveChecksInOrder : Obligations.ReceiveChecksInOrder := by
  refine ⟨receive_fragment, fun w0 w1 last rest amplitude => ?_⟩
  have hl (kind : Kind) : (blockOf w0 w1 rest kind).length = 0 ↔ rest = [] := by
    rw [length_blockOf, List.length_eq_zero_iff]
  rw [receive_eq_judged]
  split
  · rfl
  split
  · rfl
  cases kindOf (w1.toNat / 4096) with
  | none => rfl
  | some kind => cases kind <;> simp only [judged, hl] <;> rfl

/-! ## A block read back (R1, R2) -/

theorem kindOf_code (k : Kind) : kindOf k.code = some k := by cases k <;> rfl

theorem code_le (k : Kind) : k.code ≤ 12 := by cases k <;> decide

/-- Header word 1 as a number (section 0.6). -/
def word1 (b : Block) : Nat := b.kind.code * 4096 + b.seq.toNat * 2048 + b.pad.toNat * 1024 + b.length

theorem toNat_append_byte (x y : Byte) : (x ++ y : Word).toNat = x.toNat * 256 + y.toNat := by
  rw [BitVec.toNat_append, ← Nat.shiftLeft_add_eq_or_of_lt y.isLt, Nat.shiftLeft_eq]

theorem toNat_ofNat_byte (n : Nat) (h : n ≤ 255) : (BitVec.ofNat 8 n).toNat = n := by
  rw [BitVec.toNat_ofNat]; omega

theorem covered_eq (b : Block) : b.covered =
    (BitVec.ofNat 8 b.dst ++ BitVec.ofNat 8 b.src) :: BitVec.ofNat 16 (word1 b) :: wordsOf b.payload := rfl

theorem toNat_word1 (b : Block) (h : b.length ≤ 512) : (BitVec.ofNat 16 (word1 b)).toNat = word1 b := by
  have hk := code_le b.kind
  have hs := b.seq.toNat_le
  have hp := b.pad.toNat_le
  rw [BitVec.toNat_ofNat, word1]
  omega

/-- A block's header and payload words spell the block (section 0.6). -/
theorem blockOf_wordsOf (b : Block) (hd : b.dst ≤ 255) (hs : b.src ≤ 255) (hp : b.payload.length % 2 = 0)
    (hl : b.payload.length ≤ 1024) :
    blockOf (BitVec.ofNat 8 b.dst ++ BitVec.ofNat 8 b.src) (BitVec.ofNat 16 (word1 b)) (wordsOf b.payload) b.kind = b := by
  have hlen : b.length ≤ 512 := by unfold Block.length; omega
  have h0 : (BitVec.ofNat 8 b.dst ++ BitVec.ofNat 8 b.src : Word).toNat = b.dst * 256 + b.src := by
    rw [toNat_append_byte, toNat_ofNat_byte _ hd, toNat_ofNat_byte _ hs]
  rw [blockOf, h0, toNat_word1 b hlen, bytesOf_wordsOf _ hp]
  obtain ⟨dst, src, kind, seq, pad, payload⟩ := b
  simp only [Block.mk.injEq, true_and, and_true, word1] at *
  refine ⟨by omega, by omega, ?_, ?_⟩
  · cases seq <;> cases pad <;> simp <;> omega
  · cases seq <;> cases pad <;> simp <;> omega

/-- The words of a block less its preamble read back as the block. -/
theorem receive_wire (b : Block) (amplitude : Nat) (hd : 1 ≤ b.dst) (hd' : b.dst ≤ 255) (hs : 1 ≤ b.src) (hs' : b.src ≤ 254)
    (hk : b.kind ≠ .hello) (hp : b.payload.length % 2 = 0) (hl : b.payload.length ≤ 1024) (hok : payloadOk b = true)
    (hpad : ¬ (b.pad = true ∧ b.payload = [])) :
    receive { preamble := true, words := b.wire.drop 2, amplitude } = .block b := by
  have hlen : b.length ≤ 512 := by unfold Block.length; omega
  have hw : b.wire.drop 2 = (BitVec.ofNat 8 b.dst ++ BitVec.ofNat 8 b.src) :: BitVec.ofNat 16 (word1 b) ::
      (wordsOf b.payload ++ [checkOf (bytesOf b.covered)]) := by
    simp [Block.wire, covered_eq]
  have hkind : word1 b / 4096 = b.kind.code := by
    have := b.seq.toNat_le
    have := b.pad.toNat_le
    unfold word1; omega
  have hfield : word1 b % 1024 = b.payload.length / 2 := by
    have : word1 b % 1024 = b.length := by unfold word1; omega
    exact this
  have hj : judged b = .block b := by
    have h0 : ¬ (b.pad = true ∧ b.length = 0) := by
      rintro ⟨h1, h2⟩
      refine hpad ⟨h1, List.eq_nil_of_length_eq_zero ?_⟩
      unfold Block.length at h2; omega
    have ha : ¬ (b.src = 0 ∨ b.src = 255 ∨ b.dst = 0) := by omega
    simp [judged, ha, hok, h0]
  rw [hw, receive_eq_judged, toNat_word1 b hlen, hkind, kindOf_code, hfield, ← covered_eq, length_wordsOf _ hp,
    if_neg (by simp), if_neg (by omega)]
  have hb := blockOf_wordsOf b hd' (by omega) hp hl
  cases hc : b.kind with
  | hello => exact absurd hc hk
  | _ => rw [hc] at hb; dsimp only; rw [hb, hj]

theorem length_wire (b : Block) (hp : b.payload.length % 2 = 0) : b.wire.length = b.payload.length / 2 + 5 := by
  simp [Block.wire, covered_eq, length_wordsOf _ hp]

/-! ## A carrier frame read back (R25, R29) -/

/-- The header and data bytes of a carrier frame, before the padding (R29). -/
def carrierBytes (c : Carrier) : List Byte :=
  [1, BitVec.ofNat 8 c.kind.code, BitVec.ofNat 8 c.reason, c.seq] ++ bytes16 c.tag ++ bytes16 c.dst ++ bytes16 c.src
    ++ bytes16 c.data.length ++ c.data

theorem bytes_eq (c : Carrier) : c.bytes = carrierBytes c ++ List.replicate (46 - (carrierBytes c).length) 0 := rfl

/-- A 16-bit number read from its two bytes. -/
theorem value_bytes16 (n : Nat) (h : n ≤ 65535) : (BitVec.ofNat 8 (n / 256)).toNat * 256 + (BitVec.ofNat 8 n).toNat = n := by
  rw [BitVec.toNat_ofNat, BitVec.toNat_ofNat]; omega

/-- A carrier frame as it is sent: the header's bytes one by one, the data, the padding. -/
theorem bytes_cons (c : Carrier) : ∃ pad, c.bytes =
    1 :: BitVec.ofNat 8 c.kind.code :: BitVec.ofNat 8 c.reason :: c.seq :: BitVec.ofNat 8 (c.tag / 256) :: BitVec.ofNat 8 c.tag
      :: BitVec.ofNat 8 (c.dst / 256) :: BitVec.ofNat 8 c.dst :: BitVec.ofNat 8 (c.src / 256) :: BitVec.ofNat 8 c.src
      :: BitVec.ofNat 8 (c.data.length / 256) :: BitVec.ofNat 8 c.data.length :: (c.data ++ pad) :=
  ⟨List.replicate (34 - c.data.length) 0, by simp [bytes_eq, carrierBytes, bytes16]⟩

theorem length_bytes (c : Carrier) : 46 ≤ c.bytes.length := by
  rw [bytes_eq, List.length_append, List.length_replicate]; omega

theorem readCarrier_bytes (c : Carrier) (dst : Mac) (type : Nat) (hr : c.reason ≤ 255) (ht : c.tag ≤ 65535) (hd : c.dst ≤ 65535)
    (hs : c.src ≤ 65535) (hl : c.data.length ≤ 1024) (hok : carrierOk c = true) :
    readCarrier { fcsOk := true, dst, src := c.mac, type, data := c.bytes } = .frame c := by
  obtain ⟨pad, hb⟩ := bytes_cons c
  have hlen : read16 c.bytes 10 = c.data.length := by
    rw [hb]; exact value_bytes16 _ (by omega)
  have hcount : c.bytes.length = c.data.length + pad.length + 12 := by
    rw [hb]; simp
  have hkind : kindOf (c.bytes.getD 1 0).toNat = some c.kind := by
    rw [hb]
    refine (congrArg kindOf (toNat_ofNat_byte _ ?_)).trans (kindOf_code c.kind)
    have := code_le c.kind
    omega
  have hc : ({ mac := c.mac, kind := c.kind, reason := (c.bytes.getD 2 0).toNat, seq := c.bytes.getD 3 0, tag := read16 c.bytes 4,
               dst := read16 c.bytes 6, src := read16 c.bytes 8, data := (c.bytes.drop 12).take c.data.length } : Carrier) = c := by
    have h2 : (c.bytes.getD 2 0).toNat = c.reason := by rw [hb]; exact toNat_ofNat_byte _ hr
    have h3 : c.bytes.getD 3 0 = c.seq := by rw [hb]; rfl
    have h4 : read16 c.bytes 4 = c.tag := by rw [hb]; exact value_bytes16 _ ht
    have h6 : read16 c.bytes 6 = c.dst := by rw [hb]; exact value_bytes16 _ hd
    have h8 : read16 c.bytes 8 = c.src := by rw [hb]; exact value_bytes16 _ hs
    have hdata : (c.bytes.drop 12).take c.data.length = c.data := by
      rw [hb]; exact List.take_left
    rw [h2, h3, h4, h6, h8, hdata]
  have hfirst : c.bytes.getD 0 0 = 1 := by rw [hb]; rfl
  simp only [readCarrier, hlen, hcount, hkind, hfirst, hc, hok, if_true]
  rw [if_neg (by omega), if_neg (by simp), if_neg (by omega)]

/-- Settles O11. -/
theorem whatIsSentReadsBack : Obligations.WhatIsSentReadsBack :=
  ⟨fun b amplitude hd hd' hs hs' hk hp hl hok hpad =>
      ⟨length_wire b hp, receive_wire b amplitude hd hd' hs hs' hk hp hl hok hpad⟩,
    fun c dst type hr ht hd hs hl hok => ⟨length_bytes c, readCarrier_bytes c dst type hr ht hd hs hl hok⟩⟩

end Sys2Proof

/-! # The check word, codes, value checks and the filters of the pair side (O20). -/

namespace Sys2Proof
open Machine

/-! ## The check word, bit by bit (R2) -/

/-- One bit into the check (R2). -/
def checkBit (c : Word) (bit : Bool) : Word := if c.msb ≠ bit then (c <<< 1) ^^^ 0x1021#16 else c <<< 1

/-- A step of the check takes in the byte's highest bit and moves the others up. -/
theorem checkStep_xor_append (c : Word) (x : Byte) :
    checkStep (c ^^^ (x ++ (0 : Byte))) = checkBit c x.msb ^^^ ((x <<< 1) ++ (0 : Byte)) := by
  have hs : (x ++ (0 : Byte) : Word) <<< 1 = (x <<< 1) ++ (0 : Byte) := by revert x; decide
  have hm : (c ^^^ (x ++ (0 : Byte))).msb = (c.msb ^^ x.msb) := by
    rw [BitVec.msb_xor, BitVec.msb_append]; simp
  unfold checkStep checkBit
  rw [hm, BitVec.shiftLeft_xor_distrib, hs]
  cases c.msb <;> cases x.msb <;> simp [BitVec.xor_assoc, BitVec.xor_comm]

/-- A byte's bits, the most significant first, are the highest bits of its shifts. -/
theorem bits_eq_msb (x : Byte) : ((List.range 8).map fun i => x.getLsbD (7 - i)) =
    [x.msb, (x <<< 1).msb, (x <<< 1 <<< 1).msb, (x <<< 1 <<< 1 <<< 1).msb, (x <<< 1 <<< 1 <<< 1 <<< 1).msb,
      (x <<< 1 <<< 1 <<< 1 <<< 1 <<< 1).msb, (x <<< 1 <<< 1 <<< 1 <<< 1 <<< 1 <<< 1).msb,
      (x <<< 1 <<< 1 <<< 1 <<< 1 <<< 1 <<< 1 <<< 1).msb] := by
  revert x; decide

/-- The check takes a byte bit by bit, most significant bit first. -/
theorem checkByte_eq (c : Word) (x : Byte) :
    checkByte c x = ((List.range 8).map fun i => x.getLsbD (7 - i)).foldl checkBit c := by
  have h8 : (x <<< 1 <<< 1 <<< 1 <<< 1 <<< 1 <<< 1 <<< 1 <<< 1 ++ (0 : Byte) : Word) = 0 := by revert x; decide
  rw [bits_eq_msb]
  simp only [checkByte, checkStep_xor_append, h8, List.foldl]
  exact BitVec.xor_zero

theorem checkOf_eq_bits (l : List Byte) :
    checkOf l = (l.flatMap fun x => (List.range 8).map fun i => x.getLsbD (7 - i)).foldl checkBit 0xFFFF#16 := by
  unfold checkOf
  generalize 0xFFFF#16 = c
  induction l generalizing c with
  | nil => rfl
  | cons x l ih => rw [List.foldl_cons, ih, List.flatMap_cons, List.foldl_append, checkByte_eq]

/-! ## Codes (R3, R4, R25) -/

theorem kindOf_eq_getElem : ∀ n, kindOf n = [Kind.data, .request, .reply, .hold, .busy, .fail, .printOpen, .printData, .printClose,
    .status, .manage, .notice, .hello][n]?
  | 0 | 1 | 2 | 3 | 4 | 5 | 6 | 7 | 8 | 9 | 10 | 11 | 12 => rfl
  | _ + 13 => rfl

/-- A kind's code is the number it is found under. -/
theorem code_of_kindOf {n : Nat} {k : Kind} (h : kindOf n = some k) : k.code = n := by
  unfold kindOf at h
  split at h <;> cases h <;> rfl

theorem statusOf_eq_getElem : ∀ n, statusOf n =
    if n = 0 then none else [StatusCode.ready, .busy, .paperOut, .offline][n - 1]?
  | 0 | 1 | 2 | 3 | 4 => rfl
  | _ + 5 => rfl

/-! ## The value checks (R3, R4, R25) -/

theorem payloadOk_iff (b : Block) : payloadOk b = true ↔
    match b.kind with
    | .hold => 1 ≤ b.payload.length / 2
    | .fail => 1 ≤ b.payload.length / 2 ∧ 1 ≤ (b.content.getD 0 0).toNat ∧ (b.content.getD 0 0).toNat ≤ 11
    | .printOpen => 1 ≤ b.payload.length / 2 ∧ (b.content.getD 1 0).toNat ≤ 1
    | .printData | .printClose => 2 ≤ b.payload.length / 2
    | .manage => 3 ≤ b.payload.length / 2
    | .status => b.payload.length / 2 = 0 ∨ 1 ≤ (b.content.getD 0 0).toNat * 256 + (b.content.getD 1 0).toNat ∧
        (b.content.getD 0 0).toNat * 256 + (b.content.getD 1 0).toNat ≤ 4
    | _ => True := by
  rw [payloadOk, Bool.and_eq_true, decide_eq_true_eq, Block.length]
  cases b.kind <;> simp [minWords, read16]

theorem carrierOk_iff (c : Carrier) : carrierOk c = true ↔
    match c.kind with
    | .hold => 2 ≤ c.data.length
    | .fail => 1 ≤ c.reason ∧ c.reason ≤ 11
    | .printOpen => 2 ≤ c.data.length ∧ (c.data.getD 1 0).toNat ≤ 1
    | .printData | .printClose => 4 ≤ c.data.length
    | .manage => 6 ≤ c.data.length
    | .status => c.reason ≤ 4
    | _ => True := by
  rw [carrierOk, Bool.and_eq_true, decide_eq_true_eq]
  cases c.kind <;> simp [minBytes]

/-! ## The header checks of a carrier frame (R25) -/

theorem readCarrier_malformed (f : EtherIn) (h : f.data.length < 12 ∨ (f.data.getD 0 0).toNat ≠ 1 ∨ 1024 < read16 f.data 10 ∨
    f.data.length - 12 < read16 f.data 10) : readCarrier f = .dropped .malformed := by
  have h1 : f.data.getD 0 0 = 1 → (f.data.getD 0 0).toNat = 1 := fun e => by rw [e]; rfl
  unfold readCarrier
  dsimp only
  split
  · rfl
  split
  · rfl
  split
  · rfl
  · rename_i hl hv hn
    have := h1 (not_not.1 hv)
    omega

/-- The carrier frame that the header's fields spell (section 0.6). -/
def carrierOf (f : EtherIn) (kind : Kind) : Carrier :=
  { mac := f.src, kind, reason := (f.data.getD 2 0).toNat, seq := f.data.getD 3 0, tag := read16 f.data 4, dst := read16 f.data 6,
    src := read16 f.data 8, data := (f.data.drop 12).take (read16 f.data 10) }

/-- A frame whose header has the right form is judged by its kind and its values. -/
theorem readCarrier_formed (f : EtherIn) (hl : 12 ≤ f.data.length) (hv : (f.data.getD 0 0).toNat = 1)
    (hn : read16 f.data 10 ≤ 1024) (hn' : read16 f.data 10 ≤ f.data.length - 12) : readCarrier f =
      match kindOf (f.data.getD 1 0).toNat with
      | none => .dropped .badKind
      | some kind => if carrierOk (carrierOf f kind) then .frame (carrierOf f kind) else .dropped .badPayload := by
  have h1 : f.data.getD 0 0 = 1 := BitVec.eq_of_toNat_eq hv
  unfold readCarrier
  dsimp only
  rw [if_neg (by omega), if_neg (not_not.2 h1), if_neg (by omega)]
  rfl

end Sys2Proof

namespace Sys2Proof.Machine
open Sys2Proof

theorem exec_pairFrameReceive (s : State) (f : EtherIn) (h : s.takesTraffic) :
    exec (.pairFrameReceive f) s = .next (s.after [] (s.bridge.receiveFrame f)) := s.command_run [] _ h

/-- The filters of R24, in their order. -/
theorem Bridge.receiveFrame_eq (b : Bridge) (f : EtherIn) : b.receiveFrame f =
    (if b.pair.link = false then b
     else if f.fcsOk = false then b.count 4 .badFcs
     else if 1500 < f.data.length then b.count 4 .malformed
     else if f.dst ≠ b.settings.pairAddress ∧ f.dst ≠ BitVec.allOnes 48 then b
     else if f.type ≠ b.settings.carrierType then b
     else if f.src.getLsbD 40 = true ∨ f.src = b.settings.pairAddress then b.count 4 .badAddress
     else
       match readCarrier f with
       | .dropped c => b.count 4 c
       | .frame c => b.knowSender c) := by
  simp only [receiveFrame, Bool.not_eq_true'] <;> rfl

/-- Settles O20. -/
theorem pairFramesAreCheckedInOrder : Obligations.PairFramesAreCheckedInOrder := by
  refine ⟨fun s f hr => ?_, fun f => ⟨readCarrier_malformed f, fun hl hv hn hn' => ⟨fun hk => ?_, fun kind hk => ?_⟩⟩,
    kindOf_eq_getElem, fun n k => code_of_kindOf, rfl, statusOf_eq_getElem, payloadOk_iff, carrierOk_iff, checkOf_eq_bits⟩
  · exact (exec_pairFrameReceive s f hr).trans (congrArg (fun c => Host.Outcome.next (s.after [] c)) (Bridge.receiveFrame_eq _ f))
  · rw [readCarrier_formed f hl hv hn hn', hk]
  · rw [readCarrier_formed f hl hv hn hn', hk]
    rfl

end Sys2Proof.Machine

/-! # Attempts and received bursts (O10, O12). -/

namespace Sys2Proof.Machine
open Sys2Proof

/-! ## Beginning an attempt (R8, R98) -/

theorem exec_attemptStart (s : State) (p : Port) (h : s.takesTraffic) :
    exec (.attemptStart p) s = .next (s.after [] (s.bridge.startAttempt p)) := s.command_run [] _ h

namespace Bridge

theorem mayAttempt_iff (b : Bridge) (p : Port) : b.mayAttempt p = true ↔
    b.canTransmit p = true ∧ b.heldByFeed p = false ∧ (b.port p).attempt = none ∧ (b.port p).backoff = none
      ∧ (b.port p).carrier = none ∧ (b.port p).quietFrom + 4 ≤ b.ctl.now := by
  simp [mayAttempt, and_assoc]

theorem startAttempt_class0 (b : Bridge) (p : Port) {f : CoaxFrame} {rest : List CoaxFrame} (h : b.mayAttempt p = true)
    (hq : (b.port p).class0 = f :: rest) : b.startAttempt p = b.modPort p (startClass0 b.now f) := by
  simp [startAttempt, h, hq]

theorem startAttempt_class1 (b : Bridge) (p : Port) {f : CoaxFrame} {rest : List CoaxFrame} (h : b.mayAttempt p = true)
    (h0 : (b.port p).class0 = []) (h1 : (b.port p).class1 = f :: rest) (hp : passesTest (b.port p) f = true) :
    b.startAttempt p = b.modPort p (startClass1 b.now f rest) := by
  simp [startAttempt, h, h0, h1, hp]

/-- No frame is eligible: class 0 is empty, and so is class 1 or its head fails the test (R8, R98). -/
theorem startAttempt_none (b : Bridge) (p : Port) (h0 : (b.port p).class0 = [])
    (h1 : ∀ f rest, (b.port p).class1 = f :: rest → passesTest (b.port p) f = false) : b.startAttempt p = b := by
  unfold startAttempt
  split
  · rw [h0]
    cases hc : (b.port p).class1 with
    | nil => rfl
    | cons f rest => simp [h1 f rest hc]
  · rfl

theorem startAttempt_held (b : Bridge) (p : Port) (h : b.mayAttempt p = false) : b.startAttempt p = b := by
  simp [startAttempt, h]

theorem passesTest_iff (x : PortState) (f : CoaxFrame) :
    passesTest x f = true ↔ f.charged = true ∨ f.block.payload.length / 2 + 9 ≤ x.allowance := by
  rw [passesTest, Bool.or_eq_true, decide_eq_true_eq]
  rfl

end Bridge

/-- Settles O12. -/
theorem attemptStartDrivesTheChosenFrame : Obligations.AttemptStartDrivesTheChosenFrame := by
  intro s p hr
  refine ⟨s.bridge.mayAttempt_iff p, fun f rest hm hq => ?_, fun f rest hm h0 h1 hp => ?_, fun h => ?_⟩ <;>
    rw [exec_attemptStart s p hr]
  · rw [s.bridge.startAttempt_class0 p hm hq]; rfl
  · rw [s.bridge.startAttempt_class1 p hm h0 h1 ((Bridge.passesTest_iff _ f).2 hp)]; rfl
  · refine State.after_congr s [] ?_
    obtain h | ⟨h0, h1⟩ := h
    · exact s.bridge.startAttempt_held p h
    · refine s.bridge.startAttempt_none p h0 fun f rest hf => ?_
      obtain ⟨hc, ha⟩ := h1 f rest hf
      rw [← Bool.not_eq_true, Bridge.passesTest_iff]
      simp [hc, ha]

/-! ## Receiving a burst (R5 to R7, R163, R167) -/

theorem exec_foreignCarrierStart (s : State) (p : Port) :
    exec (.foreignCarrierStart p) s = .next (s.after [] (s.bridge.carrierStarts p)) := rfl

theorem exec_receiveBlock (s : State) (p : Port) (burst : Burst) :
    exec (.receiveBlock p burst) s = .next (s.after []
      (((s.bridge.whenPowered (·.keepAmplitude p burst)).carrierEnds p).whenPowered (·.receiveBurst p burst))) := rfl

namespace Bridge

theorem carrierStarts_eq (b : Bridge) (p : Port) : b.carrierStarts p = b.modPort p fun x =>
    { x with carrier := some (x.carrier.getD { start := b.ctl.now }), mon := { x.mon with jabberFrom := none } } := by
  refine modPort_congr b p ?_
  cases h : (b.port p).carrier <;> rfl

/-- What the wire shows of a burst's end, with the amplitude kept before it (R5, R8, R163, R167). -/
theorem carrierEnds_keepAmplitude (b : Bridge) (p : Port) (burst : Burst) :
    (b.keepAmplitude p burst).carrierEnds p = b.heard p burst := by
  have hs : (!(b.port p).carrier.any (·.sampled)) = true ↔ ∀ c, (b.port p).carrier = some c → c.sampled = false := by
    cases (b.port p).carrier <;> simp
  unfold keepAmplitude carrierEnds heard
  split
  · rename_i h
    rw [Bool.and_eq_true, hs] at h
    rw [modMon_eq, modPort_modPort]
    exact modPort_congr b p (by simp [now, h.1, if_pos h.2])
  · rename_i h
    rw [Bool.and_eq_true, hs] at h
    refine modPort_congr b p ?_
    simp [h]

/-- A burst without a complete preamble leaves the amplitude as it is. -/
theorem carrierEnds_eq_heard (b : Bridge) (p : Port) (burst : Burst) :
    b.carrierEnds p = b.heard p { burst with preamble := false } := by
  simp [carrierEnds, heard]

theorem whenPowered_on (b : Bridge) (f : Bridge → Bridge) (h : b.ctl.phase = .running ∨ b.ctl.phase = .loading) :
    b.whenPowered f = f b := by simp [whenPowered, h]

theorem whenPowered_held (b : Bridge) (f : Bridge → Bridge) (h : b.ctl.phase = .heldPower ∨ b.ctl.phase = .heldPin) :
    b.whenPowered f = b := by
  obtain h | h := h <;> simp [whenPowered, h]

/-- Hearing a burst leaves the clock and the ability to transmit, but ends no driving of the port's own. -/
theorem driving_heard (b : Bridge) (p : Port) (burst : Burst) : (b.heard p burst).driving p = b.driving p := by
  simp [driving, heard, now]

theorem canTransmit_heard (b : Bridge) (p : Port) (burst : Burst) : (b.heard p burst).canTransmit p = b.canTransmit p :=
  canTransmit_modPort b p p _ rfl

theorem receiveBurst_driving (b : Bridge) (p : Port) (burst : Burst) (h : b.driving p = true) : b.receiveBurst p burst = b := by
  simp [receiveBurst, h]

theorem receiveBurst_dropped (b : Bridge) (p : Port) {burst : Burst} {c : Ctr} (hd : b.driving p = false)
    (h : receive burst = .dropped c) : b.receiveBurst p burst = b.count (lineGroup p) c := by
  simp [receiveBurst, hd, h, countLine]

theorem receiveBurst_block (b : Bridge) (p : Port) {burst : Burst} {blk : Block} (hd : b.driving p = false)
    (h : receive burst = .block blk) : b.receiveBurst p burst = b.handOn p blk := by
  simp [receiveBurst, hd, h]

theorem handOn_able (b : Bridge) (p : Port) (blk : Block) (h : b.canTransmit p = true) : b.handOn p blk =
    b.modPort p fun x => { x with arrivals := x.arrivals ++ [{ block := blk, late := b.lateBlock p blk }] } := by
  simp [handOn, h]

theorem handOn_unable (b : Bridge) (p : Port) (blk : Block) (h : b.canTransmit p = false) : b.handOn p blk = b := by
  simp [handOn, h]

end Bridge

/-- RECEIVE_BLOCK while no reset holds the part. -/
theorem exec_receiveBlock_powered (s : State) (p : Port) (burst : Burst)
    (h : s.bridge.ctl.phase = .running ∨ s.bridge.ctl.phase = .loading) :
    exec (.receiveBlock p burst) s = .next (s.after [] ((s.bridge.heard p burst).receiveBurst p burst)) := by
  rw [exec_receiveBlock, s.bridge.whenPowered_on _ h, Bridge.carrierEnds_keepAmplitude, Bridge.whenPowered_on (s.bridge.heard p burst) _ h]

/-- Settles O10. -/
theorem burstsAreReceived : Obligations.BurstsAreReceived := by
  refine ⟨fun s p => ?_, fun s p burst h => ?_, fun s p burst h => ?_⟩
  · rw [exec_foreignCarrierStart, Bridge.carrierStarts_eq]
  · rw [exec_receiveBlock_powered s p burst h]
    have hd := s.bridge.driving_heard p burst
    have hc := s.bridge.canTransmit_heard p burst
    refine ⟨fun c hb he => ?_, fun blk hb he ht => ?_, fun blk hb ht => ?_, fun he => ?_⟩
    · rw [Bridge.receiveBurst_dropped _ p (hd.trans he) hb]
    · rw [Bridge.receiveBurst_block _ p (hd.trans he) hb, Bridge.handOn_able _ p blk (hc.trans ht)]
      exact ⟨_, rfl⟩
    · cases he : s.bridge.driving p
      · rw [Bridge.receiveBurst_block _ p (hd.trans he) hb, Bridge.handOn_unable _ p blk (hc.trans ht)]
      · rw [Bridge.receiveBurst_driving _ p burst (hd.trans he)]
    · rw [Bridge.receiveBurst_driving _ p burst (hd.trans he)]
  · rw [exec_receiveBlock, s.bridge.whenPowered_held _ h, Bridge.carrierEnds_eq_heard s.bridge p burst,
      Bridge.whenPowered_held (s.bridge.heard p _) _ h]

end Sys2Proof.Machine

/-! # Send reports and SEND_COMPLETE (O14). -/

namespace Sys2Proof.Machine
open Sys2Proof

/-! ## Keyed lists: a change is known by what it does to the value listed -/

theorem change_congr {α : Type} (k : Nat) {f g : α → α} : ∀ l : List (Nat × α), (∀ v, look k l = some v → f v = g v) →
    change k f l = change k g l
  | [], _ => rfl
  | (n, w) :: l, h => by
    by_cases e : n = k
    · have hw : f w = g w := h w (by simp [look, e])
      simp [change, e, hw]
    · have hl : ∀ v, look k l = some v → f v = g v := fun v hv => h v (by simpa [look, e] using hv)
      simp only [change, e, if_false, change_congr k l hl]

theorem change_id {α : Type} (k : Nat) : ∀ l : List (Nat × α), change k id l = l
  | [] => rfl
  | (n, w) :: l => by
    by_cases e : n = k <;> simp [change, e, change_id k l]

theorem change_change {α : Type} (k : Nat) (f g : α → α) : ∀ l : List (Nat × α),
    change k g (change k f l) = change k (g ∘ f) l
  | [] => rfl
  | (n, w) :: l => by
    by_cases e : n = k <;> simp [change, e, change_change k f g l]

namespace Bridge

theorem exchange_modExchange_self (b : Bridge) (tag : Nat) (f : Exchange → Exchange) :
    (b.modExchange tag f).exchange tag = (b.exchange tag).map f := look_change_self tag f b.exchanges

theorem modPrinter_congr (b : Bridge) (n : DirNo) {f g : Printer → Printer} (h : ∀ x, b.printer n = some x → f x = g x) :
    b.modPrinter n f = b.modPrinter n g := by
  simp only [modPrinter, modDelivery, change_congr n b.delivery.printers h]

theorem modPrinter_id (b : Bridge) (n : DirNo) {f : Printer → Printer} (h : ∀ x, b.printer n = some x → f x = x) :
    b.modPrinter n f = b := by
  rw [b.modPrinter_congr n (g := id) h]
  simp only [modPrinter, modDelivery, change_id]
  rfl

theorem modPrinter_modPrinter (b : Bridge) (n : DirNo) (f g : Printer → Printer) :
    (b.modPrinter n f).modPrinter n g = b.modPrinter n (g ∘ f) := by
  simp only [modPrinter, modDelivery, delivery_setDelivery, change_change]
  rfl

theorem modEntry_congr (b : Bridge) (n : DirNo) {f g : Entry → Entry} (h : ∀ x, b.entry n = some x → f x = g x) :
    b.modEntry n f = b.modEntry n g := by
  simp only [modEntry, modEntries, modDir, change_congr n b.dir.entries h]

theorem entry_modEntry_self (b : Bridge) (n : DirNo) (f : Entry → Entry) :
    (b.modEntry n f).entry n = (b.entry n).map f := look_change_self n f b.dir.entries

theorem setRecord_record (b : Bridge) (l : Lp) : b.setRecord l (b.record l) = b := by
  have h : b.delivery.records.set l (b.record l) = b.delivery.records := by simp [record]
  simp only [setRecord, modDelivery, h]
  rfl

/-- A change of a delivery record is known by what it does to the record in use. -/
theorem modRecord_some (b : Bridge) (l : Lp) {d : Delivery} (f : Delivery → Delivery) (h : b.record l = some d) :
    b.modRecord l f = b.setRecord l (some (f d)) := by
  simp only [modRecord, h, Option.map_some]

theorem modRecord_id (b : Bridge) (l : Lp) {f : Delivery → Delivery} (h : ∀ d, b.record l = some d → f d = d) :
    b.modRecord l f = b := by
  have e : (b.record l).map f = b.record l := by
    cases hr : b.record l with
    | none => rfl
    | some d => rw [Option.map_some, h d hr]
  rw [modRecord, e, setRecord_record]

/-! ## Send reports (R10, R32) -/

theorem awaitsReport_iff (b : Bridge) (tag k : Nat) : b.awaitsReport tag k = true ↔
    ∃ x, b.exchange tag = some x ∧ x.state = .opened .queued ∧ x.sending = k := by
  simp [awaitsReport, Option.any_eq_true]

theorem awaitsReport_false (b : Bridge) (tag k : Nat) (h : ∀ x, b.exchange tag = some x → x.state ≠ .opened .queued ∨ x.sending ≠ k) :
    b.awaitsReport tag k = false := by
  rw [← Bool.not_eq_true, awaitsReport_iff]
  rintro ⟨x, hx, hs, hk⟩
  exact (h x hx).elim (absurd hs) (absurd hk)

theorem questionSent_waits (b : Bridge) (tag k : Nat) (onPair : Bool) {x : Exchange} (hx : b.exchange tag = some x)
    (hs : x.state = .opened .queued) (hk : x.sending = k) : b.questionSent tag k onPair = b.modExchange tag fun y =>
      { y with state := .opened (if onPair then .awaiting else .window (b.ctl.now + 500)) } := by
  rw [questionSent, if_pos ((b.awaitsReport_iff tag k).2 ⟨x, hx, hs, hk⟩)]

theorem questionSent_ignored (b : Bridge) (tag k : Nat) (onPair : Bool)
    (h : ∀ x, b.exchange tag = some x → x.state ≠ .opened .queued ∨ x.sending ≠ k) : b.questionSent tag k onPair = b := by
  rw [questionSent, b.awaitsReport_false tag k h]; rfl

theorem deliverySent_waits (b : Bridge) (l : Lp) (k : Nat) (w : Time) {d : Delivery} {f : DeliveryFrame} (hd : b.record l = some d)
    (hp : d.phase = .queued) (hf : d.frame = some f) (hk : f.serial = k) :
    b.deliverySent l k w = b.setRecord l (some { d with phase := .window (b.ctl.now + w) }) := by
  rw [deliverySent, b.modRecord_some l _ hd]
  simp [hp, hf, hk, now]

theorem deliverySent_ignored (b : Bridge) (l : Lp) (k : Nat) (w : Time)
    (h : ∀ d f, b.record l = some d → d.frame = some f → d.phase ≠ .queued ∨ f.serial ≠ k) : b.deliverySent l k w = b := by
  refine b.modRecord_id l fun d hd => if_neg ?_
  rw [Option.any_eq_true]
  rintro ⟨hp, f, hf, hk⟩
  exact (h d f hd hf).elim (absurd hp) (absurd (of_decide_eq_true hk))

theorem querySent_waits (b : Bridge) (n : DirNo) (k : Nat) (w : Time) {r : Printer} {q : OutSeq} (hr : b.printer n = some r)
    (hq : r.question = .query q k none) :
    b.querySent n k w = b.modPrinter n fun y => { y with question := .query q k (some (b.ctl.now + w)) } := by
  refine b.modPrinter_congr n fun x hx => ?_
  obtain rfl : r = x := Option.some.inj (hr.symm.trans hx)
  simp [hq, now]

theorem querySent_ignored (b : Bridge) (n : DirNo) (k : Nat) (w : Time)
    (h : ∀ r q, b.printer n = some r → r.question ≠ .query q k none) : b.querySent n k w = b := by
  refine b.modPrinter_id n fun r hr => ?_
  split
  · rename_i q j hq
    exact if_neg fun e : j = k => h r q hr (e ▸ hq)
  · rfl

theorem answerReported_waits (b : Bridge) (k : Nat) {w : WaitingReset} (h : b.ctl.waiting = some w) (hk : w.answer = k) :
    b.answerReported k = b.setCtl { b.ctl with waiting := some { w with reported := true } } := by
  simp [answerReported, h, hk]

theorem answerReported_ignored (b : Bridge) (k : Nat) (h : ∀ w, b.ctl.waiting = some w → w.answer ≠ k) : b.answerReported k = b := by
  have e : (b.ctl.waiting.map fun w => if w.answer = k then { w with reported := true } else w) = b.ctl.waiting := by
    cases hw : b.ctl.waiting with
    | none => rfl
    | some w => simp [h w hw]
  rw [answerReported, e]
  rfl

/-! ## SEND_COMPLETE (R10) -/

theorem completeSend_class0 (b : Bridge) (p : Port) {a : Attempt} {f : CoaxFrame} {rest : List CoaxFrame}
    (ha : (b.port p).attempt = some a) (ht : a.start + a.words.length ≤ b.ctl.now) (hc : a.class0 = true)
    (hq : (b.port p).class0 = f :: rest) :
    b.completeSend p = (b.modPort p fun x =>
      { x with attempt := none, quietFrom := b.ctl.now, mon := { x.mon with echoDue := true }, class0 := rest }).frameSent f := by
  simp only [completeSend, ha, ht, attemptFrame, hc, hq, if_true, List.head?_cons, removeHead, modPort_modPort]
  rw [b.modPort_congr p]
  simp [hq]

theorem completeSend_class1 (b : Bridge) (p : Port) {a : Attempt} {f : CoaxFrame} {rest : List CoaxFrame}
    (ha : (b.port p).attempt = some a) (ht : a.start + a.words.length ≤ b.ctl.now) (hc : a.class0 = false)
    (hq : (b.port p).class1 = f :: rest) :
    b.completeSend p = ((b.modPort p fun x =>
      { x with attempt := none, quietFrom := b.ctl.now, mon := { x.mon with echoDue := true }, class1 := rest }).offerPlace p
        (b.port p).waiting).frameSent f := by
  simp only [completeSend, ha, ht, attemptFrame, hc, hq, if_true, List.head?_cons, removeHead, modPort_modPort, Bool.false_eq_true,
    if_false, port_modPort_self]
  rw [b.modPort_congr p]
  simp [hq]

theorem completeSend_driving (b : Bridge) (p : Port) {a : Attempt} (ha : (b.port p).attempt = some a)
    (ht : b.ctl.now < a.start + a.words.length) : b.completeSend p = b := by
  simp only [completeSend, ha]
  exact if_neg (by simpa using ht)

theorem kept_listedAccepted (b : Bridge) (l : Lp) : BridgeKept b (b.listedAccepted l) := kept_setRecord b l _

/-- A freed place of class 1 touches the waiting list, the tail of class 1 and a delivery record only (R18). -/
theorem kept_offerPlace (p : Port) : ∀ (l : List Lp) (b : Bridge), BridgeKept b (b.offerPlace p l)
  | [], b => .ofPort b p _ { PortKept.refl (b.port p) with }
  | l :: rest, b => by
    unfold offerPlace
    split
    · exact ((BridgeKept.ofPort b p _ { PortKept.refl (b.port p) with }).trans (kept_offer1 _ _ _)).trans (kept_listedAccepted _ _)
    · exact kept_offerPlace p rest b

end Bridge

theorem exec_sendComplete (s : State) (p : Port) (h : s.takesTraffic) :
    exec (.sendComplete p) s = .next (s.after [] (s.bridge.completeSend p)) := s.command_run [] _ h

theorem exchange_after (s : State) (u : List Nat) (b : Bridge) (tag : Nat) : (s.after u b).bridge.exchange tag = b.exchange tag :=
  congrArg (look tag) (Bridge.kept_settle _ b).exchanges

/-- The first report of a question that waits for it opens the answer window (R107). -/
theorem Bridge.exchange_frameSent (b : Bridge) (f : CoaxFrame) {tag : Nat} {x : Exchange} (ho : f.origin = .request tag)
    (hf : f.siblingSent = false) (hx : b.exchange tag = some x) (hs : x.state = .opened .queued) (hk : x.sending = f.serial) :
    (b.frameSent f).exchange tag = some { x with state := .opened (.window (b.ctl.now + 500)) } := by
  have hx' : (b.markSent f.serial).exchange tag = some x := hx
  simp only [frameSent, hf, ho, sendReport, Bool.false_eq_true, if_false]
  rw [questionSent_waits _ tag f.serial false hx' hs hk, exchange_modExchange_self, hx']
  rfl

/-- Settles O14. -/
theorem sendCompleteReportsTheFrame : Obligations.SendCompleteReportsTheFrame := by
  refine ⟨fun s p a hr ha => ?_, fun b f => rfl, fun b k onPair => ?_⟩
  · rw [exec_sendComplete s p hr]
    refine ⟨fun f rest ht hc hq => ?_, fun f rest ht hc hq => ?_, fun f rest tag x ht hc hq ho hf hx hs hk => ?_, fun ht => ?_⟩
    · rw [s.bridge.completeSend_class0 p ha ht hc hq]
    · rw [s.bridge.completeSend_class1 p ha ht hc hq]
    · refine ⟨_, rfl, ?_⟩
      rw [exchange_after, s.bridge.completeSend_class1 p ha ht hc hq]
      have kept := Bridge.kept_offerPlace p (s.bridge.port p).waiting (s.bridge.modPort p fun x =>
        { x with attempt := none, quietFrom := s.bridge.ctl.now, mon := { x.mon with echoDue := true }, class1 := rest })
      have hx' := (congrArg (look tag) kept.exchanges).trans hx
      rw [Bridge.exchange_frameSent _ f ho hf hx' hs hk, kept.ctl]
      rfl
    · rw [s.bridge.completeSend_driving p ha ht]
  · refine ⟨fun tag h => b.questionSent_ignored tag k onPair h, fun tag x hx hs hk => ?_, fun l h => b.deliverySent_ignored l k _ h,
      fun l d f hd hp hf hk => ?_, fun n h => b.querySent_ignored n k _ h, fun n r q hr hq => ?_,
      b.answerReported_ignored k, fun w hw hk => b.answerReported_waits k hw hk, rfl, fun _ => rfl, rfl, rfl, rfl⟩
    · cases onPair <;> exact b.questionSent_waits tag k _ hx hs hk
    · cases onPair <;> exact b.deliverySent_waits l k _ hd hp hf hk
    · cases onPair <;> exact b.querySent_waits n k _ hr hq

end Sys2Proof.Machine

/-! # Collisions, losses and flushes (O13). -/

namespace Sys2Proof.Machine
open Sys2Proof

/-! ## COLLISION and BACKOFF_END (R9) -/

theorem exec_collision (s : State) (p : Port) (h : s.takesTraffic) :
    exec (.collision p) s = .next (s.after [] (s.bridge.collide p)) := s.command_run [] _ h

theorem exec_backoffEnd (s : State) (p : Port) (h : s.takesTraffic) :
    exec (.backoffEnd p) s = .next (s.after [] (s.bridge.endBackoff p)) := s.command_run [] _ h

namespace Bridge

/-- The slots drawn after failed attempt `k` (R9; log 7). -/
def slots (b : Bridge) (k : Nat) : Nat := Config.backoffDraw b.drawCount % 2 ^ min k 6

theorem slots_lt (b : Bridge) (k : Nat) : b.slots k < 2 ^ min k 6 := Nat.mod_lt _ (Nat.two_pow_pos _)

theorem collide_none (b : Bridge) (p : Port) (h : (b.port p).attempt = none) : b.collide p = b := by
  simp [collide, h]

theorem collide_backoff0 (b : Bridge) (p : Port) {a : Attempt} {f : CoaxFrame} {rest : List CoaxFrame}
    (ha : (b.port p).attempt = some a) (hc : a.class0 = true) (hq : (b.port p).class0 = f :: rest) (hf : f.attempts < 8) :
    b.collide p = (b.modPort p fun x =>
      { x with attempt := none, quietFrom := b.ctl.now + 2, backoff := some (b.ctl.now + 2 + 32 * b.slots f.attempts),
               class0 := { f with attempts := f.attempts + 1 } :: rest }).setDrawCount (b.drawCount + 1) := by
  simp only [collide, ha, attemptFrame, hc, port_modPort_self, hq, if_true, List.head?_cons, hf, writeHead, modPort_modPort]
  rw [b.modPort_congr p]
  · rfl
  · simp only [hq, List.tail_cons]; rfl

theorem collide_backoff1 (b : Bridge) (p : Port) {a : Attempt} {f : CoaxFrame} {rest : List CoaxFrame}
    (ha : (b.port p).attempt = some a) (hc : a.class0 = false) (hq : (b.port p).class1 = f :: rest) (hf : f.attempts < 8) :
    b.collide p = (b.modPort p fun x =>
      { x with attempt := none, quietFrom := b.ctl.now + 2, backoff := some (b.ctl.now + 2 + 32 * b.slots f.attempts),
               class1 := { f with attempts := f.attempts + 1 } :: rest }).setDrawCount (b.drawCount + 1) := by
  simp only [collide, ha, attemptFrame, hc, port_modPort_self, hq, if_true, List.head?_cons, hf, writeHead, modPort_modPort,
    Bool.false_eq_true, if_false]
  rw [b.modPort_congr p]
  · rfl
  · simp only [hq, List.tail_cons]; rfl

theorem collide_discard0 (b : Bridge) (p : Port) {a : Attempt} {f : CoaxFrame} {rest : List CoaxFrame}
    (ha : (b.port p).attempt = some a) (hc : a.class0 = true) (hq : (b.port p).class0 = f :: rest) (hf : 8 ≤ f.attempts) :
    b.collide p = ((b.modPort p fun x => { x with attempt := none, quietFrom := b.ctl.now + 2, class0 := rest }).count (lineGroup p)
      .excessCollision).frameLost .collisions f := by
  simp only [collide, ha, attemptFrame, hc, port_modPort_self, hq, if_true, List.head?_cons, Nat.not_lt.2 hf, if_false, removeHead,
    countLine, modPort_count, modPort_modPort]
  rw [b.modPort_congr p]
  simp [hq]

theorem collide_discard1 (b : Bridge) (p : Port) {a : Attempt} {f : CoaxFrame} {rest : List CoaxFrame}
    (ha : (b.port p).attempt = some a) (hc : a.class0 = false) (hq : (b.port p).class1 = f :: rest) (hf : 8 ≤ f.attempts) :
    b.collide p = (((b.modPort p fun x => { x with attempt := none, quietFrom := b.ctl.now + 2, class1 := rest }).count (lineGroup p)
      .excessCollision).offerPlace p (b.port p).waiting).frameLost .collisions f := by
  simp only [collide, ha, attemptFrame, hc, port_modPort_self, hq, List.head?_cons, Nat.not_lt.2 hf, if_false, removeHead,
    countLine, modPort_count, modPort_modPort, Bool.false_eq_true, port_count]
  rw [b.modPort_congr p]
  simp [hq]

theorem endBackoff_ended (b : Bridge) (p : Port) {t : Time} (h : (b.port p).backoff = some t) (ht : t ≤ b.ctl.now) :
    b.endBackoff p = b.modPort p fun x => { x with backoff := none } := by
  simp [endBackoff, h, ht, now]

theorem endBackoff_waits (b : Bridge) (p : Port) {t : Time} (h : (b.port p).backoff = some t) (ht : b.ctl.now < t) :
    b.endBackoff p = b := by
  simp [endBackoff, h, now, Nat.not_le.2 ht]

/-! ## Losses (R11, R177) -/

theorem copyQueued_iff (b : Bridge) (k : Nat) : b.copyQueued k = true ↔
    ∃ p, ∃ g ∈ (b.port p).class0 ++ (b.port p).class1, g.serial = k := by
  simp [copyQueued, List.mem_append, or_and_right, exists_or]

theorem frameLost_copies (b : Bridge) (cause : LossCause) (f : CoaxFrame) (h : f.siblingSent = true ∨ b.copyQueued f.serial = true) :
    b.frameLost cause f = b := if_pos (by simpa using h)

theorem frameLost_last (b : Bridge) (cause : LossCause) (f : CoaxFrame) (hs : f.siblingSent = false)
    (hc : ¬ b.copyQueued f.serial = true) : b.frameLost cause f = b.lossReport cause f.origin f.serial :=
  if_neg (by simp [hs, hc])

theorem questionNotSent_ignored (b : Bridge) (tag k : Nat)
    (h : ∀ x, b.exchange tag = some x → x.state ≠ .opened .queued ∨ x.sending ≠ k) : b.questionNotSent tag k = b := by
  rw [questionNotSent, b.awaitsReport_false tag k h]; rfl

theorem questionNotSent_waits (b : Bridge) (tag k : Nat) {x : Exchange} (hx : b.exchange tag = some x)
    (hs : x.state = .opened .queued) (hk : x.sending = k) : b.questionNotSent tag k = b.questionUnanswered tag :=
  if_pos ((b.awaitsReport_iff tag k).2 ⟨x, hx, hs, hk⟩)

theorem questionUnanswered_again (b : Bridge) (tag : Nat) {x : Exchange} (hx : b.exchange tag = some x) (ht : x.tries < 3) :
    b.questionUnanswered tag = (b.modExchange tag fun y => { y with tries := y.tries + 1 }).resendQuestion tag := by
  simp only [questionUnanswered, hx, ht, if_true]

theorem questionUnanswered_last (b : Bridge) (tag : Nat) {x : Exchange} (hx : b.exchange tag = some x) (ht : 3 ≤ x.tries) :
    b.questionUnanswered tag =
      ((b.answer (Exchange.asker x) (.fail .noAnswer 0) true).closeExchange tag).count 5 .noAnswer := by
  simp only [questionUnanswered, hx, Nat.not_lt.2 ht, if_false, failExchange]

theorem deliveryNotSent_ignored (b : Bridge) (l : Lp) (k : Nat)
    (h : ∀ d f, b.record l = some d → d.frame = some f → d.phase ≠ .queued ∨ f.serial ≠ k) : b.deliveryNotSent l k = b := by
  refine if_neg ?_
  simp only [Option.any_eq_true, Bool.and_eq_true, decide_eq_true_eq]
  rintro ⟨d, hd, hp, f, hf, hk⟩
  exact (h d f hd hf).elim (absurd hp) (absurd hk)

theorem deliveryNotSent_waits (b : Bridge) (l : Lp) (k : Nat) {d : Delivery} {f : DeliveryFrame} (hd : b.record l = some d)
    (hp : d.phase = .queued) (hf : d.frame = some f) (hk : f.serial = k) : b.deliveryNotSent l k = b.tryEnds l := by
  simp [deliveryNotSent, hd, hp, hf, hk]

theorem queryNotSent_ignored (b : Bridge) (n : DirNo) (k : Nat)
    (h : ∀ r q w, b.printer n = some r → r.question ≠ .query q k w) : b.queryNotSent n k = b := by
  refine b.modPrinter_id n fun r hr => ?_
  split
  · rename_i q j w hq
    exact if_neg fun e : j = k => h r q w hr (e ▸ hq)
  · rfl

theorem queryNotSent_waits (b : Bridge) (n : DirNo) (k : Nat) {r : Printer} {q : OutSeq} {w : Option Time} (hr : b.printer n = some r)
    (hq : r.question = .query q k w) : b.queryNotSent n k = b.modPrinter n fun y => { y with question := .none } := by
  refine b.modPrinter_congr n fun x hx => ?_
  obtain rfl : r = x := Option.some.inj (hr.symm.trans hx)
  simp [hq]

/-! ## Tries of a delivery (R148) -/

theorem tryEnds_again (b : Bridge) (l : Lp) {d : Delivery} (hd : b.record l = some d) (ht : d.tries < 3) :
    b.tryEnds l = b.setRecord l
      (some { d with phase := .pacing, tries := d.tries + 1, frame := d.frame.map fun f => { f with built := none } }) := by
  simp only [tryEnds, hd, ht, if_true]
  exact b.modRecord_some l _ hd

theorem tryEnds_last (b : Bridge) (l : Lp) {d : Delivery} (hd : b.record l = some d) (ht : 3 ≤ d.tries) :
    b.tryEnds l = ((b.modPrinter d.target fun r =>
      { r with status := .notResponding,
               pollFrom := if (b.entry d.target).any (·.reachable) then some b.ctl.now else none }).countDelivery .noResponse).stop l := by
  simp only [tryEnds, hd, Nat.not_lt.2 ht, if_false]
  rfl

/-! ## Flushes (R19) -/

theorem driving_iff (b : Bridge) (p : Port) :
    b.driving p = true ↔ (b.port p).attempt ≠ none ∨ b.ctl.now < (b.port p).quietFrom := by
  simp [driving, Option.isSome_iff_ne_none, now]

theorem takeFlush_eq (b : Bridge) (p : Port) : b.takeFlush p =
    ({ port := p, frames := (b.port p).class1, waiting := (b.port p).waiting },
     b.modPort p fun x =>
       { x with class0 := [], class1 := [], attempt := none, backoff := none, waiting := [],
                quietFrom := if x.attempt ≠ none ∨ b.ctl.now < x.quietFrom then b.ctl.now else x.quietFrom }) := by
  simp only [takeFlush, driving_iff]
  exact congrArg (Prod.mk _) (b.modPort_congr p rfl)

theorem framesFlushed_again (b : Bridge) (f : CoaxFrame) (rest : List CoaxFrame) (h : ∃ g ∈ rest, g.serial = f.serial) :
    b.framesFlushed (f :: rest) = b.framesFlushed rest := by
  have h' : rest.any (·.serial = f.serial) = true := by simpa using h
  rw [framesFlushed, if_pos h']

theorem framesFlushed_last (b : Bridge) (f : CoaxFrame) (rest : List CoaxFrame) (h : ∀ g ∈ rest, g.serial ≠ f.serial) :
    b.framesFlushed (f :: rest) = (b.frameLost .flushed f).framesFlushed rest := by
  have h' : ¬ rest.any (·.serial = f.serial) = true := by simpa using h
  rw [framesFlushed, if_neg h']

theorem covers_iff (r : Route) (p : Port) :
    r.covers p = true ↔ r = .port p ∨ ∃ q, r = .unknownEnd q ∧ pairOf q = pairOf p := by
  cases r <;> simp [Route.covers]

/-- A waiting list holds a LISTED frame for a port (R18, R144). -/
theorem listedFor_isSome (b : Bridge) (l : Lp) (p : Port) : (b.listedFor l p).isSome = true ↔
    ∃ d f y, b.record l = some d ∧ d.phase = .listed ∧ d.frame = some f ∧ f.built = some y ∧
      (d.route = .port p ∨ ∃ q, d.route = .unknownEnd q ∧ pairOf q = pairOf p) := by
  constructor
  · intro h
    unfold listedFor at h
    split at h
    next d hd =>
      split at h
      next f hp hf =>
        split at h
        next seq bytes hb =>
          split at h
          next hc => exact ⟨d, f, _, hd, hp, hf, hb, (covers_iff d.route p).1 hc⟩
          next => cases h
        next => cases h
      next => cases h
    next => cases h
  · rintro ⟨d, f, y, hd, hp, hf, hb, hc⟩
    simp [listedFor, hd, hp, hf, hb, (covers_iff d.route p).2 hc]

end Bridge

/-- What a lost frame does to its originator (R11). -/
theorem lossReport_cases (b : Bridge) (cause : LossCause) (k : Nat) :
    let report := fun o => b.lossReport cause o k
    (cause = .flushed → report .forward = b.countForward .flushed) ∧ (cause = .collisions → report .forward = b) ∧
    (∀ i, report (.relay i) = b.countFeed i .relayLost) ∧
    (∀ tag, (∀ x, b.exchange tag = some x → x.state ≠ .opened .queued ∨ x.sending ≠ k) → report (.request tag) = b) ∧
    (∀ tag x, b.exchange tag = some x → x.state = .opened .queued → x.sending = k →
      (x.tries < 3 → report (.request tag) = (b.modExchange tag fun y => { y with tries := y.tries + 1 }).resendQuestion tag) ∧
      (3 ≤ x.tries → report (.request tag) =
        ((b.answer (Exchange.asker x) (.fail .noAnswer 0) true).closeExchange tag).count 5 .noAnswer)) ∧
    (∀ l, (∀ d f, b.record l = some d → d.frame = some f → d.phase ≠ .queued ∨ f.serial ≠ k) → report (.delivery l) = b) ∧
    (∀ l d f, b.record l = some d → d.phase = .queued → d.frame = some f → f.serial = k → report (.delivery l) = b.tryEnds l) ∧
    (∀ n, (∀ r q w, b.printer n = some r → r.question ≠ .query q k w) → report (.query n) = b) ∧
    (∀ n r q w, b.printer n = some r → r.question = .query q k w →
      report (.query n) = b.modPrinter n fun y => { y with question := .none }) := by
  refine ⟨fun h => if_pos h, fun h => if_neg (by rw [h]; decide), fun _ => rfl, fun tag h => b.questionNotSent_ignored tag k h,
    fun tag x hx hs hk => ⟨fun ht => ?_, fun ht => ?_⟩, fun l h => b.deliveryNotSent_ignored l k h,
    fun l d f hd hp hf hk => b.deliveryNotSent_waits l k hd hp hf hk, fun n h => b.queryNotSent_ignored n k h,
    fun n r q w hr hq => b.queryNotSent_waits n k hr hq⟩
  · exact (b.questionNotSent_waits tag k hx hs hk).trans (b.questionUnanswered_again tag hx ht)
  · exact (b.questionNotSent_waits tag k hx hs hk).trans (b.questionUnanswered_last tag hx ht)

/-- Settles O13. -/
theorem collisionBacksOffOrDiscards : Obligations.CollisionBacksOffOrDiscards := by
  refine ⟨fun s p hr => ?_, fun b cause f => ⟨fun h => ?_, fun hs hw => ?_⟩, fun b cause k => ?_,
    fun b l d hd => ⟨b.tryEnds_again l hd, b.tryEnds_last l hd⟩, Bridge.takeFlush_eq, fun b l => rfl,
    fun b f rest => ⟨rfl, b.framesFlushed_again f rest, b.framesFlushed_last f rest⟩, fun b p l => ⟨fun h => ?_, fun h => ?_⟩⟩
  · rw [exec_collision s p hr, exec_backoffEnd s p hr]
    refine ⟨fun a f rest ha hc hq hf => ⟨_, s.bridge.slots_lt f.attempts, ?_⟩,
      fun a f rest ha hc hq hf => ⟨_, s.bridge.slots_lt f.attempts, ?_⟩,
      fun a f rest ha hc hq hf => ?_, fun a f rest ha hc hq hf => ?_, fun ha => ?_, fun t h ht => ?_, fun t h ht => ?_⟩
    · rw [s.bridge.collide_backoff0 p ha hc hq hf]
    · rw [s.bridge.collide_backoff1 p ha hc hq hf]
    · rw [s.bridge.collide_discard0 p ha hc hq hf]
    · rw [s.bridge.collide_discard1 p ha hc hq hf]
    · rw [s.bridge.collide_none p ha]
    · rw [s.bridge.endBackoff_ended p h ht]
    · rw [s.bridge.endBackoff_waits p h ht]
  · rw [← b.copyQueued_iff] at h
    exact b.frameLost_copies cause f h
  · rw [← b.copyQueued_iff] at hw
    exact b.frameLost_last cause f hs hw
  · obtain ⟨h1, h2, h3, h4, h5, h6, h7, h8, h9⟩ := lossReport_cases b cause k
    exact ⟨h1, h2, h3, h4, h5, h6, h7, h8, h9, rfl, rfl, rfl, rfl⟩
  · exact if_pos ((b.listedFor_isSome l p).2 h)
  · exact if_neg (mt (b.listedFor_isSome l p).1 h)

end Sys2Proof.Machine

/-! # The pair handover, status queries and pauses (O24, O38). -/

namespace Sys2Proof.Machine
open Sys2Proof

/-! ## PAIR_SEND_COMPLETE (R32, R33) -/

theorem exec_pairSendComplete (s : State) (h : s.takesTraffic) :
    exec .pairSendComplete s = .next (s.after [] s.bridge.completeHandover) := s.command_run [] _ h

namespace Bridge

theorem completeHandover_handed (b : Bridge) {e : EtherOut} {f : PairFrame} {rest : List PairFrame}
    (he : b.pair.handing = some e) (hq : b.pair.queue = f :: rest) : b.completeHandover =
      ((b.modPair fun x => { x with handing := none, queue := rest }).offerPairPlace b.pair.waiting).sendReport f.origin f.serial true := by
  simp only [completeHandover, he, hq]
  rfl

theorem completeHandover_idle (b : Bridge) (h : b.pair.handing = none ∨ b.pair.queue = []) : b.completeHandover = b := by
  unfold completeHandover
  split
  · rename_i he hq
    rw [he, hq] at h
    simp at h
  · rfl

theorem pairFrameLost_request (b : Bridge) (f : PairFrame) {tag : Nat} (h : f.origin = .request tag) : b.pairFrameLost f = b := by
  simp only [pairFrameLost, h]

theorem pairFrameLost_other (b : Bridge) (f : PairFrame) (h : ∀ tag, f.origin ≠ .request tag) :
    b.pairFrameLost f = b.lossReport .flushed f.origin f.serial := by
  unfold pairFrameLost
  split
  · rename_i tag ho
    exact absurd ho (h tag)
  · rfl

/-- The report of a question on the pair side puts its record in AWAITING (R109). -/
theorem exchange_questionSent_pair (b : Bridge) (tag k : Nat) {x : Exchange} (hx : b.exchange tag = some x)
    (hs : x.state = .opened .queued) (hk : x.sending = k) :
    (b.questionSent tag k true).exchange tag = some { x with state := .opened .awaiting } := by
  rw [questionSent_waits _ tag k true hx hs hk, exchange_modExchange_self, hx]
  rfl

end Bridge

/-- Settles O24. -/
theorem pairSendCompleteReportsTheFrame : Obligations.PairSendCompleteReportsTheFrame := by
  refine ⟨fun s hr => ?_, fun b k => ⟨fun l d f hd hp hf hk => b.deliverySent_waits l k _ hd hp hf hk,
    fun n r q hn hq => b.querySent_waits n k _ hn hq⟩,
    fun b f => ⟨fun tag h => b.pairFrameLost_request f h, b.pairFrameLost_other f⟩⟩
  rw [exec_pairSendComplete s hr]
  refine ⟨fun e f rest he hq => ?_, fun h => ?_, fun e f tag x he hq hw ho hx hs hk => ⟨_, rfl, ?_⟩⟩
  · rw [s.bridge.completeHandover_handed he hq]
  · rw [s.bridge.completeHandover_idle h]
  · rw [exchange_after, s.bridge.completeHandover_handed he hq, hw, ho]
    exact Bridge.exchange_questionSent_pair
      ((s.bridge.modPair fun x => { x with handing := none, queue := [] }).offerPairPlace []) tag f.serial hx hs hk

/-! ## Status queries and pauses (R149, R150) -/

theorem exec_statusQueryDue (s : State) (n : DirNo) (h : s.takesTraffic) :
    exec (.statusQueryDue n) s = .next (s.after [] (s.bridge.pollDue n)) := s.command_run [] _ h

theorem exec_queryWindowClose (s : State) (n : DirNo) (h : s.takesTraffic) :
    exec (.queryWindowClose n) s = .next (s.after [] (s.bridge.queryWindowCloses n)) := s.command_run [] _ h

theorem exec_pauseLimit (s : State) (n : DirNo) (h : s.takesTraffic) :
    exec (.pauseLimit n) s = .next (s.after [] (s.bridge.pauseEnds n)) := s.command_run [] _ h

namespace Bridge

/-- A printer's poll timer starts again from 0. -/
abbrev restartPoll (b : Bridge) (n : DirNo) : Bridge := b.modPrinter n fun r => { r with pollFrom := some b.ctl.now }

theorem pollDue_due (b : Bridge) (n : DirNo) {r : Printer} {t : Time} (hr : b.printer n = some r) (ht : r.pollFrom = some t)
    (hd : t + 250000 ≤ b.ctl.now) : b.pollDue n = (b.restartPoll n).queryDue n := by
  have h : (r.pollFrom.any fun t => t + Config.pollTime ≤ b.now) = true := by simpa [ht] using hd
  simp only [pollDue, hr, h, if_true]

theorem pollDue_early (b : Bridge) (n : DirNo) {r : Printer} (hr : b.printer n = some r)
    (hd : ∀ t, r.pollFrom = some t → b.ctl.now < t + 250000) : b.pollDue n = b := by
  simp only [pollDue, hr]
  refine if_neg ?_
  rw [Option.any_eq_true]
  rintro ⟨t, ht, hle⟩
  exact Nat.not_le.2 (hd t ht) (of_decide_eq_true hle)

/-- A query due in a delivery goes on its route, from its source. -/
theorem queryDue_delivering (b : Bridge) (n : DirNo) {l : Lp} {d : Delivery} (hl : b.lpDelivering n = some l)
    (hd : b.record l = some d) : b.queryDue n = b.sendQuery n d.route d.source := by
  simp [queryDue, hl, hd]

theorem queryDue_own (b : Bridge) (n : DirNo) {e : Entry} {route : Route} {src : Nat} (hl : b.lpDelivering n = none)
    (he : b.entry n = some e) (hroute : b.routeOf e = some route) (hsrc : b.querySource e = some src) (hreach : e.reachable = true) :
    b.queryDue n = b.sendQuery n route src := by
  simp [queryDue, hl, he, hroute, hsrc, hreach]

theorem queryDue_not (b : Bridge) (n : DirNo) {e : Entry} (hl : b.lpDelivering n = none) (he : b.entry n = some e)
    (h : e.reachable = false ∨ b.querySource e = none) : b.queryDue n = b := by
  simp only [queryDue, hl, he, Option.bind_none]
  split
  · rename_i r src hr hs
    obtain h | h := h
    · simp [h]
    · rw [h] at hs; cases hs
  · rfl

theorem queryBlock_eq (dst src : Nat) (bit : Bool) :
    queryBlock dst src (.bit bit) = { dst, src, kind := .status, seq := bit } := by
  cases bit <;> rfl

/-- A query on coax: class 0 of each port of its route, with the printer's bit toggled (R13, R138, R149). -/
theorem sendQuery_coax (b : Bridge) (n : DirNo) {e : Entry} {p : Port} {num : Nat} (route : Route) (src : Nat)
    (he : b.entry n = some e) (hh : e.home = .seg p num) (hr : ∀ mac, route ≠ .pair mac) :
    b.sendQuery n route src = (b.routePorts route).foldl (fun c p => c.offer0 p
        { block := { dst := num, src, kind := .status, seq := !e.bridgeBit }, origin := .query n, serial := b.serial,
          named := route.named })
      ((b.modEntry n fun e => { e with bridgeBit := !e.bridgeBit }).modPrinter n fun r =>
        { r with question := .query (.bit (!e.bridgeBit)) b.serial none }).nextSerial := by
  have hbit : (b.entry n).any (·.bridgeBit) = e.bridgeBit := by rw [he]; rfl
  have hentry : (b.modEntry n fun x => { x with bridgeBit := !e.bridgeBit }) = b.modEntry n fun x => { x with bridgeBit := !x.bridgeBit } :=
    b.modEntry_congr n fun x hx => by rw [Option.some.inj (he.symm.trans hx)]
  have hnum : (b.modEntry n fun x => { x with bridgeBit := !x.bridgeBit }).homeNumber n = num := by
    rw [homeNumber, entry_modEntry_self, he, Option.map_some, Option.map_some, hh]
  have hq : b.newQuestion n route =
      (.bit (!e.bridgeBit), b.modEntry n fun x => { x with bridgeBit := !x.bridgeBit }) := by
    cases route with
    | pair mac => exact absurd rfl (hr mac)
    | port q => simp only [newQuestion, hbit, hentry]
    | unknownEnd q => simp only [newQuestion, hbit, hentry]
  have hn (c : Bridge) (f : Printer → Printer) : (c.modPrinter n f).homeNumber n = c.homeNumber n := rfl
  cases route with
  | pair mac => exact absurd rfl (hr mac)
  | port q => simp only [sendQuery, hq, hn, hnum, queryBlock_eq]; rfl
  | unknownEnd q => simp only [sendQuery, hq, hn, hnum, queryBlock_eq]; rfl

/-- The question that a query on the pair side puts in hand (R32, R138). -/
abbrev askPair (b : Bridge) (n : DirNo) : Bridge :=
  (b.modPair fun x => { x with question := x.question + 1 }).modPrinter n fun r =>
    { r with question := .query (.byte b.pair.question) b.serial none }

theorem sendQuery_pair (b : Bridge) (n : DirNo) (mac : Mac) (src : Nat) : b.sendQuery n (.pair mac) src =
    match (b.askPair n).sendPair { mac, kind := .status, seq := b.pair.question, tag := 1, dst := n, src := 1 } (.query n) with
    | (.accepted, c) => c
    | (_, c) => c.queryNotSent n b.serial := rfl

theorem sendPair_accepted (b : Bridge) (c : Carrier) (o : Origin) (hl : b.pair.link = true) (hq : b.pair.queue.length < 48) :
    b.sendPair c o = (.accepted, b.queuedPair c o) := by
  simp only [sendPair, offerPair, pair_nextSerial, hl, hq, Bool.not_true, Bool.false_eq_true, if_false, if_true]
  rfl

/-- A frame that the pair side does not take has used a number and nothing else (R32). -/
theorem sendPair_not (b : Bridge) (c : Carrier) (o : Origin) (h : b.pair.link = false ∨ 48 ≤ b.pair.queue.length) :
    ∃ x, x ≠ .accepted ∧ b.sendPair c o = (x, b.setSerial (b.serial + 1)) := by
  cases hl : b.pair.link with
  | false => exact ⟨.notSent, nofun, by simp [sendPair, offerPair, hl, nextSerial]⟩
  | true =>
    have hq : ¬ b.pair.queue.length < 48 := by
      rcases h with h | h
      · rw [hl] at h; cases h
      · omega
    exact ⟨.refused, nofun, by simp [sendPair, offerPair, hl, hq, nextSerial]⟩

theorem sendQuery_pair_accepted (b : Bridge) (n : DirNo) (mac : Mac) (src : Nat) (hl : b.pair.link = true)
    (hq : b.pair.queue.length < 48) : b.sendQuery n (.pair mac) src =
      (b.askPair n).queuedPair { mac, kind := .status, seq := b.pair.question, tag := 1, dst := n, src := 1 } (.query n) := by
  rw [sendQuery_pair, sendPair_accepted (b.askPair n) _ _ hl hq]

theorem sendQuery_pair_not (b : Bridge) (n : DirNo) (mac : Mac) (src : Nat)
    (h : b.pair.link = false ∨ 48 ≤ b.pair.queue.length) : b.sendQuery n (.pair mac) src =
      ((b.modPair fun x => { x with question := x.question + 1 }).modPrinter n fun r => { r with question := .none }).setSerial
        (b.serial + 1) := by
  obtain ⟨x, hx, he⟩ := sendPair_not (b.askPair n)
    { mac, kind := .status, seq := b.pair.question, tag := 1, dst := n, src := 1 } (.query n) h
  have hs : ((b.askPair n).setSerial ((b.askPair n).serial + 1)).queryNotSent n b.serial =
      ((b.modPair fun x => { x with question := x.question + 1 }).modPrinter n fun r => { r with question := .none }).setSerial
        (b.serial + 1) := by
    have hm := ((b.modPair fun x => { x with question := x.question + 1 }).modPrinter_modPrinter n
      (fun r => { r with question := .query (.byte b.pair.question) b.serial none })
      (fun r => match r.question with
        | .query _ k _ => if k = b.serial then { r with question := .none } else r
        | _ => r))
    have hc := congrArg (Bridge.setSerial · (b.serial + 1)) hm
    simp only [Function.comp_def, if_true] at hc
    exact hc
  rw [sendQuery_pair, he]
  cases x with
  | accepted => exact absurd rfl hx
  | refused => exact hs
  | notSent => exact hs

theorem queryWindowCloses_closed (b : Bridge) (n : DirNo) {r : Printer} {q : OutSeq} {k : Nat} {w : Time} (hr : b.printer n = some r)
    (hq : r.question = .query q k (some w)) (hw : w ≤ b.ctl.now) :
    b.queryWindowCloses n = b.modPrinter n fun r => { r with question := .none } := by
  simp only [queryWindowCloses, question, hr, hq]
  exact if_pos hw

theorem queryWindowCloses_open (b : Bridge) (n : DirNo) {r : Printer} {q : OutSeq} {k : Nat} {w : Time} (hr : b.printer n = some r)
    (hq : r.question = .query q k (some w)) (hw : b.ctl.now < w) : b.queryWindowCloses n = b := by
  simp only [queryWindowCloses, question, hr, hq]
  exact if_neg (Nat.not_le.2 hw)

theorem pauseTooLong_iff (b : Bridge) (n : DirNo) {r : Printer} {t : Time} (hr : b.printer n = some r) (ht : r.pauseStart = some t) :
    b.pauseTooLong n = true ↔
      b.settings.pauseLimit ≠ 0 ∧ t + 125000 * (60 * b.settings.pauseLimit) < b.ctl.now := by
  simp [pauseTooLong, hr, ht, now]

theorem pauseEnds_over (b : Bridge) (n : DirNo) {l : Lp} (h : b.pauseTooLong n = true) (hl : b.lpDelivering n = some l) :
    b.pauseEnds n = ((b.modPrinter n fun r =>
      { r with status := .notResponding,
               pollFrom := if (b.entry n).any (·.reachable) then some b.ctl.now else none }).countDelivery .pauseLimit).stop l := by
  have hl' : ((b.setNotResponding n).countDelivery .pauseLimit).lpDelivering n = some l := hl
  simp only [pauseEnds, h, if_true, hl']
  rfl

theorem pauseEnds_within (b : Bridge) (n : DirNo) (h : ¬ b.pauseTooLong n = true) : b.pauseEnds n = b := if_neg h

end Bridge

/-- Settles O38. -/
theorem statusQueriesAndPauses : Obligations.StatusQueriesAndPauses := by
  refine ⟨fun s n r t e route src hr hn ht hd he hroute => ?_, fun s n r hr hn => ⟨fun h => ?_, fun t e ht hd hl he h => ?_⟩,
    fun s n r q k w hr hn hq => ⟨fun hw => ?_, fun hw => ?_⟩, fun s n r t hr hn ht => ⟨fun l h0 hlim hl => ?_, fun h => ?_⟩⟩
  · have hsend : s.bridge.pollDue n = (s.bridge.restartPoll n).sendQuery n route src := by
      rw [s.bridge.pollDue_due n hn ht hd]
      obtain ⟨l, d, hl, hrec, rfl, rfl⟩ | ⟨hl, hro, hsrc, hreach⟩ := hroute
      · exact Bridge.queryDue_delivering (s.bridge.restartPoll n) n hl hrec
      · exact Bridge.queryDue_own (s.bridge.restartPoll n) n hl he hro hsrc hreach
    rw [exec_statusQueryDue s n hr, hsend]
    refine ⟨fun p num hh hp => ?_, fun mac hm hl hq => ?_, fun mac hm h => ?_⟩
    · rw [Bridge.sendQuery_coax (s.bridge.restartPoll n) n route src he hh hp]
      rfl
    · rw [hm, Bridge.sendQuery_pair_accepted (s.bridge.restartPoll n) n mac src hl hq]
      rfl
    · rw [hm, Bridge.sendQuery_pair_not (s.bridge.restartPoll n) n mac src h]
      rfl
  · rw [exec_statusQueryDue s n hr, s.bridge.pollDue_early n hn h]
  · rw [exec_statusQueryDue s n hr, s.bridge.pollDue_due n hn ht hd,
      Bridge.queryDue_not (s.bridge.restartPoll n) n hl he h]
  · rw [exec_queryWindowClose s n hr, s.bridge.queryWindowCloses_closed n hn hq hw]
  · rw [exec_queryWindowClose s n hr, s.bridge.queryWindowCloses_open n hn hq hw]
  · rw [exec_pauseLimit s n hr, s.bridge.pauseEnds_over n ((s.bridge.pauseTooLong_iff n hn ht).2 ⟨h0, hlim⟩) hl]
  · have hle : ¬ s.bridge.pauseTooLong n = true := by
      rw [s.bridge.pauseTooLong_iff n hn ht]
      rintro ⟨h0, hlim⟩
      exact h.elim h0 (Nat.not_le.2 hlim)
    rw [exec_pauseLimit s n hr, s.bridge.pauseEnds_within n hle]

end Sys2Proof.Machine

/-! # Management answers and the repeat memories (O15, O39). -/

namespace Sys2Proof.Answer

theorem final_iff (x : Answer) : x.final = true ↔ (∃ d, x = .reply d) ∨ ∃ f d, x = .fail f d := by
  cases x <;> simp [final]

theorem not_final (x : Answer) (h : x = .busy ∨ ∃ t, x = .hold t) : x.final = false := by
  obtain rfl | ⟨t, rfl⟩ := h <;> rfl

theorem short_iff (x : Answer) : x.short = true ↔ ∀ d, x = .reply d → d.length ≤ 4 := by
  cases x <;> simp [short]

end Sys2Proof.Answer

namespace Sys2Proof.Machine
open Sys2Proof

/-! ## Who may manage, and a management answer's way back (R181, R182) -/

namespace Bridge

theorem mayManage_iff (b : Bridge) (a : Asker) : b.mayManage a = true ↔
    (∃ n e, a.entry = some n ∧ b.entry n = some e ∧ e.state = .fixed ∧ e.rights.manage = true) ∨
      (b.agent.setup = true ∧ a.onPair = true) := by
  simp [mayManage, Option.any_eq_true]

theorem request_denied (b : Bridge) (a : Asker) (r : ManageReq) (h : b.mayManage a = false) :
    b.request a r = (b.manageAnswer a (answerRecord r.code r.selector .denied .none)).2 := by
  simp only [request, takeManage, h, Bool.false_eq_true, if_false]
  rfl

/-- One port's offer: at the tail of class 1 where it has room, refused otherwise (R17). -/
theorem sendEach_one (b : Bridge) (p : Port) (blk : Block) (o : Origin) (named : Option Port) :
    b.sendEach [p] blk o named =
      if (b.port p).class1.length < 24 then
        ([], (b.modPort p fun x =>
          { x with class1 := x.class1 ++ [{ block := blk, origin := o, serial := b.serial, named }] }).setSerial (b.serial + 1))
      else ([p], b.setSerial (b.serial + 1)) := by
  have hp : b.nextSerial.hasPlace p = decide ((b.port p).class1.length < 24) := rfl
  simp only [sendEach, offerEach, List.filter_cons, List.filter_nil, List.foldl_cons, List.foldl_nil, offer1, hp]
  by_cases h : (b.port p).class1.length < 24 <;> simp only [h, decide_true, decide_false] <;> rfl

theorem manageAnswer_coax (b : Bridge) (p : Port) (src dst : Nat) (seq : Bool) (e : Option DirNo) (bytes : List Byte) :
    (b.manageAnswer (.coax p src dst seq e) bytes).2 =
      if (b.port p).class1.length < 24 then (b.modPort p fun x =>
        { x with class1 := x.class1 ++
            [{ block := Block.build src dst .manage seq bytes, origin := .agent, serial := b.serial }] }).setSerial (b.serial + 1)
      else (b.modAgent fun x => { x with answerLost := min 65535 (x.answerLost + 1) }).setSerial (b.serial + 1) := by
  rw [manageAnswer, sendEach_one]
  split <;> rfl

theorem manageAnswer_pair (b : Bridge) (mac : Mac) (dst tag : Nat) (seq : Byte) (e : Option DirNo) (bytes : List Byte) :
    (b.manageAnswer (.pair mac dst tag seq e) bytes).2 =
      if b.pair.link = true ∧ b.pair.queue.length < 48 then
        b.queuedPair { mac, kind := .manage, seq, tag, dst := e.getD 0, src := dst, data := bytes } .agent
      else (b.modAgent fun x => { x with answerLost := min 65535 (x.answerLost + 1) }).setSerial (b.serial + 1) := by
  split
  · rename_i h
    simp only [manageAnswer, sendPair_accepted b _ _ h.1 h.2]
  · rename_i h
    obtain ⟨x, hx, he⟩ := sendPair_not b { mac, kind := .manage, seq, tag, dst := e.getD 0, src := dst, data := bytes } .agent
      (by rw [← Bool.not_eq_true, ← Nat.not_lt]; exact not_and_or.1 h)
    simp only [manageAnswer, he]
    cases x with
    | accepted => exact absurd rfl hx
    | refused => rfl
    | notSent => rfl

end Bridge

/-- A management command without the right is answered DENIED and changes nothing else (R181). -/
theorem manage_denied (s : State) (a : Asker) (r : ManageReq) (hr : s.takesTraffic) (h : s.bridge.mayManage a = false) :
    s.manage a r = .next (s.answered a r.code r.selector .denied .none s.bridge) := by
  rw [s.manage_run a r hr, s.bridge.request_denied a r h]
  rfl

/-- Settles O39. -/
theorem managementIsJudgedAndAnswered : Obligations.ManagementIsJudgedAndAnswered := by
  refine ⟨fun s a hr => ⟨s.bridge.mayManage_iff a, fun h sel id v ed x k y => ?_⟩, fun s a code sel r body b => ⟨?_, ?_⟩⟩
  · have denied := fun r => manage_denied s a r hr h
    exact ⟨denied .readStatus, denied (.setSetting sel id v), denied (.readSetting sel id), denied (.readEntry sel),
      denied (.editEntry sel ed), denied (.editPrinter sel x), denied .discardEdits, denied .commit, denied (.readPort sel),
      denied (.clearFaults sel k y), denied (.readSpool sel), denied (.readJob sel), denied (.cancelJob sel),
      denied (.readPrinter sel y), denied (.readErrors sel), denied (.clearErrors sel y), denied (.readForwarding y), denied .save,
      denied .resetBridge, denied (.resetPort sel)⟩
  · rintro p src dst seq e rfl
    rw [State.answered, Bridge.manageAnswer_coax]
  · rintro mac dst tag seq e rfl
    rw [State.answered, Bridge.manageAnswer_pair]

/-! ## The repeat memories (R15, R16, R30, R31) -/

/-- The first of the records with the least stamp, cut out of its list. -/
theorem dropOldest_split {α : Type} (key : α → Nat) (l : List α) (h : l ≠ []) :
    ∃ front y back, l = front ++ y :: back ∧ (∀ z ∈ front, key y < key z) ∧ (∀ z ∈ back, key y ≤ key z) ∧
      dropOldest key l = front ++ back := by
  obtain ⟨t, ht⟩ : ∃ t, (l.map key).min? = some t := Option.isSome_iff_exists.1 (by simpa [List.isSome_min?_iff] using h)
  obtain ⟨hmem, hle⟩ := List.min?_eq_some_iff.1 ht
  obtain ⟨z, hz, hzt⟩ := List.mem_map.1 hmem
  have hlt : l.findIdx (fun x => key x = t) < l.length := List.findIdx_lt_length_of_exists ⟨z, hz, by simpa using hzt⟩
  obtain ⟨i, hi⟩ : ∃ i, i = l.findIdx fun x => key x = t := ⟨_, rfl⟩
  rw [← hi] at hlt
  have hkey : key l[i] = t := by
    have := List.findIdx_getElem (w := hi ▸ hlt)
    subst hi
    simpa using this
  refine ⟨l.take i, l[i], l.drop (i + 1), ?_, fun y hy => ?_, fun y hy => ?_, ?_⟩
  · rw [List.getElem_cons_drop, List.take_append_drop]
  · obtain ⟨j, hj, rfl⟩ := List.mem_take_iff_getElem.1 hy
    have hne : key l[j] ≠ t := by
      have := List.not_of_lt_findIdx (p := fun x => decide (key x = t)) (xs := l) (i := j) (by omega)
      simpa using this
    have : t ≤ key l[j] := hle _ (List.mem_map_of_mem (List.getElem_mem _))
    omega
  · rw [hkey]
    exact hle _ (List.mem_map_of_mem (List.mem_of_mem_drop hy))
  · have hfind : l.findIdx? (fun x => decide (key x = t)) = some i := by
      rw [hi]
      exact List.findIdx?_eq_some_of_exists ⟨z, hz, by simpa using hzt⟩
    simp only [dropOldest, ht, hfind, Option.getD_some]
    exact List.eraseIdx_eq_take_drop_succ l i

theorem memoryWritten_remember {α : Type} (size : Nat) (hsize : 0 < size) (same : α → Bool) (key : α → Time) (x : α) (l : List α) :
    MemoryWritten size same key x l (remember size same key x l) := by
  refine ⟨fun h => ?_, fun h hl => ?_, fun h hl => ?_⟩
  · exact if_pos (List.any_eq_true.2 h)
  · have hn : ¬ l.any same = true := by simpa using h
    rw [remember, if_neg hn, if_pos hl]
  · have hn : ¬ l.any same = true := by simpa using h
    have he : l ≠ [] := by rintro rfl; exact absurd hl (Nat.not_le.2 hsize)
    obtain ⟨front, y, back, hs, hf, hb, hd⟩ := dropOldest_split key l he
    exact ⟨front, y, back, hs, hf, hb, by rw [remember, if_neg hn, if_neg (Nat.not_lt.2 hl), hd]⟩

/-- The first record of some parties is the one found, where it is the one asked for. -/
theorem find?_of_first {α : Type} {p q : α → Bool} {front back : List α} {r : α} (hf : ∀ z ∈ front, p z = false)
    (hpq : ∀ z, q z = true → p z = true) (hr : q r = true) : (front ++ r :: back).find? q = some r := by
  have h0 : front.find? q = none :=
    List.find?_eq_none.2 fun z hz hq => Bool.false_ne_true ((hf z hz).symm.trans (hpq z hq))
  simp [List.find?_append, h0, hr]

/-- The pairing in effect does not change with a feed controller's counters. -/
theorem Steady.paired {b c : Bridge} (h : Steady b c) (p : Port) : c.paired p = b.paired p :=
  show (c.feed (pairOf p)).bare.paired = (b.feed (pairOf p)).bare.paired from congrArg Feed.paired (h.feed (pairOf p))

theorem Steady.segmentOf {b c : Bridge} (h : Steady b c) (p : Port) : c.segmentOf p = b.segmentOf p := by
  simp only [Bridge.segmentOf, h.paired]

namespace Bridge

/-- An answer leaves the pair repeat memory as it is. -/
theorem pairRepeats_answer (b : Bridge) (a : Asker) (x : Answer) (named : Bool) :
    (b.answer a x named).pair.repeats = b.pair.repeats := by
  cases a with
  | coax p src dst seq e =>
    unfold answer
    dsimp only
    split
    · unfold offer0; split <;> rfl
    · unfold offer1; split <;> rfl
  | pair mac dst tag seq e =>
    have h (c : Carrier) (o : Origin) : (b.sendPair c o).2.pair.repeats = b.pair.repeats := by
      unfold sendPair offerPair
      split
      · rfl
      · split <;> rfl
    unfold answer
    dsimp only
    split
    · rename_i c hc
      exact (congrArg (·.2.pair.repeats) hc).symm.trans (h _ _)
    · rename_i c hn hc
      exact (congrArg (·.2.pair.repeats) hc).symm.trans (h _ _)

theorem printRequest_kept (b : Bridge) (a : Asker) (owner : DirNo) (l : Lp) (k : Kind) (order : Order) (data : List Byte) {x : Answer}
    (h : b.keptAnswer a k = some x) : b.printRequest a owner l k order data = b.answer a x := by
  simp only [printRequest, h]

theorem printRequest_judged (b : Bridge) (a : Asker) (owner : DirNo) (l : Lp) (k : Kind) (order : Order) (data : List Byte)
    (h : b.keptAnswer a k = none) : b.printRequest a owner l k order data =
      (b.judgePrint owner l k order data).2 ((b.answer a (b.judgePrint owner l k order data).1).rememberAnswer a k
        (b.judgePrint owner l k order data).1) := by
  simp only [printRequest, h]

/-- Whether a record of the coax repeat memory is of the parties of a question (R15). -/
abbrev sameCoax (b : Bridge) (p : Port) (src dst : Nat) (r : Repeat) : Bool :=
  r.segment = b.segmentOf p && r.asker = src && r.dst = dst

/-- Whether a record of the pair repeat memory is of the parties of a question (R30). -/
abbrev samePair (owner : DirNo) (dst tag : Nat) (r : PairRepeat) : Bool := r.asker = owner && r.dst = dst && r.tag = tag

theorem keptAnswer_coax (b : Bridge) (p : Port) (src dst : Nat) (seq : Bool) (e : Option DirNo) (k : Kind) :
    b.keptAnswer (.coax p src dst seq e) k =
      (b.repeats.find? fun r => b.sameCoax p src dst r && r.kind = k && r.seq = seq && r.answer.final).map (·.answer) := rfl

theorem keptAnswer_pair (b : Bridge) (mac : Mac) (dst tag : Nat) (seq : Byte) (owner : DirNo) (k : Kind) :
    b.keptAnswer (.pair mac dst tag seq (some owner)) k =
      (b.pair.repeats.find? fun r => samePair owner dst tag r && r.kind = k && r.seq = seq && r.answer.final).map (·.answer) := by
  simp only [keptAnswer, samePair, Option.some.injEq]

/-- What writing the coax repeat memory does (R16). -/
theorem rememberAnswer_coax (b : Bridge) (p : Port) (src dst : Nat) (seq : Bool) (e : Option DirNo) (k : Kind) (x : Answer) :
    (b.answer (.coax p src dst seq e) x).rememberAnswer (.coax p src dst seq e) k x =
      (b.answer (.coax p src dst seq e) x).setRepeats (remember 16 (b.sameCoax p src dst) (·.updated)
        { segment := b.segmentOf p, asker := src, dst, kind := k, seq, answer := x, updated := b.ctl.now } b.repeats) := by
  have st := steady_answer b (.coax p src dst seq e) x false
  simp only [rememberAnswer, st.segmentOf, st.repeats, now, st.now]

/-- What writing the pair repeat memory does (R31). -/
theorem rememberAnswer_pair (b : Bridge) (mac : Mac) (dst tag : Nat) (seq : Byte) (owner : DirNo) (k : Kind) (x : Answer) :
    (b.answer (.pair mac dst tag seq (some owner)) x).rememberAnswer (.pair mac dst tag seq (some owner)) k x =
      (b.answer (.pair mac dst tag seq (some owner)) x).modPair fun y =>
        { y with
          repeats := remember 8 (samePair owner dst tag) (·.updated)
            { asker := owner, dst, tag, kind := k, seq, answer := x, updated := b.ctl.now } b.pair.repeats } := by
  have st := steady_answer b (.pair mac dst tag seq (some owner)) x false
  simp only [rememberAnswer, modPair, pairRepeats_answer, now, st.now]

/-! ## Expiry (R16, R31) -/

theorem expireRepeat_eq (b : Bridge) (segment : Port) (asker dst : Nat) : b.expireRepeat segment asker dst =
    b.setRepeats (b.repeats.filter fun r =>
      ¬ (r.segment = segment ∧ r.asker = asker ∧ r.dst = dst ∧ r.updated + 125000 ≤ b.ctl.now)) := by
  refine congrArg b.setRepeats (List.filter_congr fun r _ => ?_)
  simp only [decide_not, Bool.decide_and, Bool.and_assoc, now]

theorem expirePairRepeat_eq (b : Bridge) (asker : DirNo) (dst tag : Nat) : b.expirePairRepeat asker dst tag =
    b.modPair fun x =>
      { x with
        repeats := x.repeats.filter fun r =>
          ¬ (r.asker = asker ∧ r.dst = dst ∧ r.tag = tag ∧ r.updated + 125000 ≤ b.ctl.now) } := by
  have h (l : List PairRepeat) :
      (l.filter fun r => !(r.asker = asker && r.dst = dst && r.tag = tag && r.updated + Time.sec 1 ≤ b.now)) =
        l.filter fun r => ¬ (r.asker = asker ∧ r.dst = dst ∧ r.tag = tag ∧ r.updated + 125000 ≤ b.ctl.now) :=
    List.filter_congr fun r _ => by simp only [decide_not, Bool.decide_and, Bool.and_assoc, now]
  simp only [expirePairRepeat, h]

/-! ## Answers (R12, R13, R17, R32) -/

theorem answer_class0 (b : Bridge) (p : Port) (src dst : Nat) (seq : Bool) (e : Option DirNo) (x : Answer) (route : Bool)
    (h : x.short = true) : b.answer (.coax p src dst seq e) x route =
      if (b.port p).class0.length < 8 then (b.setSerial (b.serial + 1)).modPort p fun y =>
        { y with class0 := y.class0 ++ [{ block := Block.build src dst x.kind seq x.content, origin := .answer, serial := b.serial,
                                           named := if route then some p else none }] }
      else (b.setSerial (b.serial + 1)).count (lineGroup p) .answerDropped := by
  simp only [answer, h, if_true]
  rfl

theorem answer_class1 (b : Bridge) (p : Port) (src dst : Nat) (seq : Bool) (e : Option DirNo) (x : Answer) (route : Bool)
    (h : x.short = false) : b.answer (.coax p src dst seq e) x route =
      if (b.port p).class1.length < 24 then (b.setSerial (b.serial + 1)).modPort p fun y =>
        { y with class1 := y.class1 ++ [{ block := Block.build src dst x.kind seq x.content, origin := .answer, serial := b.serial,
                                           named := if route then some p else none }] }
      else b.setSerial (b.serial + 1) := by
  simp only [answer, h, Bool.false_eq_true, if_false]
  have hp : b.nextSerial.hasPlace p = decide ((b.port p).class1.length < 24) := rfl
  simp only [offer1, hp, decide_eq_true_eq]
  rfl

theorem sendPair_refused (b : Bridge) (c : Carrier) (o : Origin) (hl : b.pair.link = true) (hq : 48 ≤ b.pair.queue.length) :
    b.sendPair c o = (.refused, b.setSerial (b.serial + 1)) := by
  simp [sendPair, offerPair, hl, Nat.not_lt.2 hq, nextSerial]

theorem sendPair_down (b : Bridge) (c : Carrier) (o : Origin) (hl : b.pair.link = false) :
    b.sendPair c o = (.notSent, b.setSerial (b.serial + 1)) := by
  simp [sendPair, offerPair, hl, nextSerial]

theorem answer_pair (b : Bridge) (mac : Mac) (dst tag : Nat) (seq : Byte) (e : Option DirNo) (x : Answer) (route : Bool) :
    let c := b.offeredPair { mac, kind := x.kind, reason := x.reason, seq, tag, dst := e.getD 0, src := dst, data := x.data } .answer
    b.answer (.pair mac dst tag seq e) x route =
      if b.pair.link = true ∧ 48 ≤ b.pair.queue.length then c.count 4 .answerDropped else c := by
  cases hl : b.pair.link with
  | false => simp [answer, sendPair_down b _ _ hl, offeredPair, hl]
  | true =>
    by_cases hq : b.pair.queue.length < 48
    · simp [answer, sendPair_accepted b _ _ hl hq, offeredPair, hl, hq, Nat.not_le.2 hq, answerFrame]
    · simp [answer, sendPair_refused b _ _ hl (Nat.not_lt.1 hq), offeredPair, hl, hq, Nat.not_lt.1 hq]

/-! ## A repeat, and a question that is none (R15, R30) -/

theorem keptAnswer_coax_hit (b : Bridge) (p : Port) (src dst : Nat) (seq : Bool) (e : Option DirNo) (k : Kind)
    {front back : List Repeat} {r : Repeat} (hs : b.repeats = front ++ r :: back) (hf : ∀ z ∈ front, b.sameCoax p src dst z = false)
    (hr : b.sameCoax p src dst r = true) (hk : r.kind = k) (hq : r.seq = seq) (ha : r.answer.final = true) :
    b.keptAnswer (.coax p src dst seq e) k = some r.answer := by
  rw [keptAnswer_coax, hs, find?_of_first hf (fun z hz => ?_) (by simp only [hr, hk, hq, ha, decide_true, Bool.and_self])]
  · rfl
  · simp only [Bool.and_eq_true] at hz ⊢
    exact hz.1.1.1

theorem keptAnswer_coax_miss (b : Bridge) (p : Port) (src dst : Nat) (seq : Bool) (e : Option DirNo) (k : Kind)
    (h : ∀ r ∈ b.repeats, b.sameCoax p src dst r = true → r.kind = k → r.seq = seq → r.answer.final = false) :
    b.keptAnswer (.coax p src dst seq e) k = none := by
  rw [keptAnswer_coax, List.find?_eq_none.2, Option.map_none]
  intro r hr hz
  rw [Bool.and_eq_true, Bool.and_eq_true, Bool.and_eq_true, decide_eq_true_eq, decide_eq_true_eq] at hz
  obtain ⟨⟨⟨hs, hk⟩, hq⟩, ha⟩ := hz
  exact Bool.false_ne_true ((h r hr hs hk hq).symm.trans ha)

theorem keptAnswer_pair_hit (b : Bridge) (mac : Mac) (dst tag : Nat) (seq : Byte) (owner : DirNo) (k : Kind)
    {front back : List PairRepeat} {r : PairRepeat} (hs : b.pair.repeats = front ++ r :: back)
    (hf : ∀ z ∈ front, samePair owner dst tag z = false) (hr : samePair owner dst tag r = true) (hk : r.kind = k) (hq : r.seq = seq)
    (ha : r.answer.final = true) : b.keptAnswer (.pair mac dst tag seq (some owner)) k = some r.answer := by
  rw [keptAnswer_pair, hs, find?_of_first hf (fun z hz => ?_) (by simp only [hr, hk, hq, ha, decide_true, Bool.and_self])]
  · rfl
  · simp only [Bool.and_eq_true] at hz ⊢
    exact hz.1.1.1

theorem keptAnswer_pair_miss (b : Bridge) (mac : Mac) (dst tag : Nat) (seq : Byte) (owner : DirNo) (k : Kind)
    (h : ∀ r ∈ b.pair.repeats, samePair owner dst tag r = true → r.kind = k → r.seq = seq → r.answer.final = false) :
    b.keptAnswer (.pair mac dst tag seq (some owner)) k = none := by
  rw [keptAnswer_pair, List.find?_eq_none.2, Option.map_none]
  intro r hr hz
  rw [Bool.and_eq_true, Bool.and_eq_true, Bool.and_eq_true, decide_eq_true_eq, decide_eq_true_eq] at hz
  obtain ⟨⟨⟨hs, hk⟩, hq⟩, ha⟩ := hz
  exact Bool.false_ne_true ((h r hr hs hk hq).symm.trans ha)

end Bridge

theorem exec_repeatMemoryExpire (s : State) (segment : Port) (asker dst : Nat) (h : s.takesTraffic) :
    exec (.repeatMemoryExpire segment asker dst) s = .next (s.after [] (s.bridge.expireRepeat segment asker dst)) :=
  s.command_run [] _ h

theorem exec_pairRepeatExpire (s : State) (asker : DirNo) (dst tag : Nat) (h : s.takesTraffic) :
    exec (.pairRepeatExpire asker dst tag) s = .next (s.after [] (s.bridge.expirePairRepeat asker dst tag)) :=
  s.command_run [] _ h

/-- Settles O15. -/
theorem repeatMemoriesAnswerAndExpire : Obligations.RepeatMemoriesAnswerAndExpire := by
  refine ⟨fun s segment asker dst hr => ?_, fun s asker dst tag hr => ?_,
    fun b p src dst seq owner l k order data => ⟨fun front r back hs hf hsame hk hq hfin => ?_, fun hall => ?_⟩,
    fun b mac dst tag seq owner l k order data => ⟨fun front r back hs hf hsame hk hq hfin => ?_, fun hall => ?_⟩,
    fun b p src dst seq e x route => ⟨fun h => ?_, fun d hx hd => ?_⟩, Bridge.answer_pair,
    fun d t k r => ⟨⟨rfl, rfl, rfl, rfl⟩, ⟨rfl, rfl, rfl, rfl⟩, ⟨rfl, rfl, rfl, rfl⟩, ⟨rfl, rfl, rfl, rfl⟩⟩⟩
  · rw [exec_repeatMemoryExpire s segment asker dst hr, Bridge.expireRepeat_eq]
  · rw [exec_pairRepeatExpire s asker dst tag hr, Bridge.expirePairRepeat_eq]
  · exact b.printRequest_kept _ owner l k order data
      (b.keptAnswer_coax_hit p src dst seq _ k hs hf hsame hk hq (r.answer.final_iff.2 hfin))
  · refine ⟨_, memoryWritten_remember 16 (by decide) (b.sameCoax p src dst) (·.updated) _ _, ?_⟩
    rw [b.printRequest_judged _ owner l k order data, b.rememberAnswer_coax]
    exact b.keptAnswer_coax_miss p src dst seq _ k fun r hr hs hk hq => r.answer.not_final (hall r hr hs hk hq)
  · exact b.printRequest_kept _ owner l k order data
      (b.keptAnswer_pair_hit mac dst tag seq owner k hs hf hsame hk hq (r.answer.final_iff.2 hfin))
  · refine ⟨_, memoryWritten_remember 8 (by decide) (Bridge.samePair owner dst tag) (·.updated) _ _, ?_⟩
    rw [b.printRequest_judged _ owner l k order data, b.rememberAnswer_pair]
    exact b.keptAnswer_pair_miss mac dst tag seq owner k fun r hr hs hk hq => r.answer.not_final (hall r hr hs hk hq)
  · exact b.answer_class0 p src dst seq e x route (x.short_iff.2 h)
  · subst hx
    exact b.answer_class1 p src dst seq e (.reply d) route (decide_eq_false (Nat.not_le.2 hd))

end Sys2Proof.Machine

/-! # Entries that are kept. -/

namespace Sys2Proof.Machine
open Sys2Proof

/-! ## What operations on entries keep -/

theorem look_map {α β : Type} (f : Nat → α → β) (n : Nat) : ∀ l : List (Nat × α),
    look n (l.map fun x => (x.1, f x.1 x.2)) = (look n l).map (f n)
  | [] => rfl
  | (k, v) :: l => by
    by_cases h : k = n
    · subst h; simp [look]
    · simp [look, h, look_map f n l]

/-- An entry of which only the pins have changed and withdrawals have been lifted (R53, R56). -/
structure EntryKept (e x : Entry) : Prop where
  same : { x with pins := e.pins, withdrawn := e.withdrawn } = e
  withdrawn : ∀ q : Port, x.withdrawn[q] = true → e.withdrawn[q] = true

namespace EntryKept

theorem refl (e : Entry) : EntryKept e e := ⟨rfl, fun _ h => h⟩

theorem trans {e x y : Entry} (h : EntryKept e x) (k : EntryKept x y) : EntryKept e y where
  same := by rw [← h.same, ← k.same]
  withdrawn q hq := h.withdrawn q (k.withdrawn q hq)

theorem ofPins (e : Entry) (n : Nat) : EntryKept e { e with pins := n } := ⟨rfl, fun _ h => h⟩

theorem ofErase (e : Entry) (s : Port) : EntryKept e { e with withdrawn := PortSet.erase e.withdrawn s } where
  same := rfl
  withdrawn q hq := by
    by_cases h : s.val = q.val
    · simp [PortSet.erase, h] at hq
    · simpa [PortSet.erase, h] using hq

variable {e x : Entry}

theorem state (h : EntryKept e x) : x.state = e.state := by rw [← h.same]
theorem kind (h : EntryKept e x) : x.kind = e.kind := by rw [← h.same]
theorem home (h : EntryKept e x) : x.home = e.home := by rw [← h.same]
theorem endField (h : EntryKept e x) : x.endField = e.endField := by rw [← h.same]
theorem visible (h : EntryKept e x) : x.visible = e.visible := by rw [← h.same]
theorem shown (h : EntryKept e x) : x.shown = e.shown := by rw [← h.same]
theorem rights (h : EntryKept e x) : x.rights = e.rights := by rw [← h.same]
theorem age (h : EntryKept e x) : x.age = e.age := by rw [← h.same]
theorem bridgeBit (h : EntryKept e x) : x.bridgeBit = e.bridgeBit := by rw [← h.same]
theorem reachable (h : EntryKept e x) : x.reachable = e.reachable := by rw [← h.same]

end EntryKept

/-- An entry is kept as what is found under its number, or it is a RETIRING one and nothing is found there any more (R57). -/
def KeptAs (e : Entry) (o : Option Entry) : Prop := e.state = .retiring ∧ o = none ∨ ∃ x, o = some x ∧ EntryKept e x

namespace KeptAs

theorem self (e : Entry) : KeptAs e (some e) := .inr ⟨e, rfl, .refl e⟩

theorem trans {e : Entry} {o o' : Option Entry} (h : KeptAs e o) (hn : o = none → o' = none) (k : ∀ x, o = some x → KeptAs x o') :
    KeptAs e o' := by
  obtain ⟨hr, ho⟩ | ⟨x, hx, hex⟩ := h
  · exact .inl ⟨hr, hn ho⟩
  · obtain ⟨hr, ho⟩ | ⟨y, hy, hxy⟩ := k x hx
    · exact .inl ⟨hex.state ▸ hr, ho⟩
    · exact .inr ⟨y, hy, hex.trans hxy⟩

theorem kept {e x : Entry} (h : KeptAs e (some x)) : EntryKept e x := by
  obtain ⟨_, ho⟩ | ⟨y, hy, hey⟩ := h
  · cases ho
  · exact Option.some.inj hy ▸ hey

/-- An entry that is not RETIRING is still there. -/
theorem used {e : Entry} {o : Option Entry} (h : KeptAs e o) (hr : e.state ≠ .retiring) : ∃ x, o = some x ∧ EntryKept e x :=
  h.resolve_left fun ⟨h', _⟩ => hr h'

end KeptAs

/-- The directory's entries after operations that pin, unpin and lift only: each entry is kept, or is a RETIRING one that has been
freed, and none has come into use (R53, R55 to R57). -/
structure EntriesKept (b c : Bridge) : Prop where
  free : ∀ n, b.entry n = none → c.entry n = none
  used : ∀ n e, b.entry n = some e → KeptAs e (c.entry n)

namespace EntriesKept

theorem ofDir {b c : Bridge} (h : c.dir = b.dir) : EntriesKept b c where
  free n hn := by rw [Bridge.entry, h]; exact hn
  used n e he := .inr ⟨e, by rw [Bridge.entry, h]; exact he, .refl e⟩

theorem refl (b : Bridge) : EntriesKept b b := ofDir rfl

theorem trans {b c d : Bridge} (h : EntriesKept b c) (k : EntriesKept c d) : EntriesKept b d where
  free n hn := k.free n (h.free n hn)
  used n e he := (h.used n e he).trans (k.free n) (k.used n)

theorem foldl {α : Type} (f : Bridge → α → Bridge) (hf : ∀ b x, EntriesKept b (f b x)) :
    ∀ (l : List α) (b : Bridge), EntriesKept b (l.foldl f b)
  | [], b => refl b
  | x :: l, b => (hf b x).trans (foldl f hf l (f b x))

end EntriesKept

namespace Bridge
open EntriesKept

/-! ## Entries one by one -/

theorem entry_modEntry (b : Bridge) (n m : DirNo) (f : Entry → Entry) :
    (b.modEntry n f).entry m = if n = m then (b.entry m).map f else b.entry m := by
  split
  · rename_i h; subst h; exact look_change_self n f _
  · rename_i h; exact look_change_ne (Ne.symm h) f _

theorem entry_freeQuiet_self (b : Bridge) (n : DirNo) : (b.freeQuiet n).entry n = none := look_drop_self n _

theorem entry_freeQuiet_ne (b : Bridge) {n m : DirNo} (h : m ≠ n) : (b.freeQuiet n).entry m = b.entry m := look_drop_ne h _

theorem entriesKept_modEntry (b : Bridge) (n : DirNo) (f : Entry → Entry) (hf : ∀ e, EntryKept e (f e)) :
    EntriesKept b (b.modEntry n f) where
  free m hm := by rw [entry_modEntry, hm]; split <;> rfl
  used m e he := by
    rw [entry_modEntry, he]
    refine .inr ?_
    split
    · exact ⟨_, rfl, hf e⟩
    · exact ⟨_, rfl, .refl e⟩

theorem entriesKept_pin (b : Bridge) (n : DirNo) : EntriesKept b (b.pin n) := entriesKept_modEntry b n _ fun e => .ofPins e _

theorem entriesKept_lift (b : Bridge) (s : Port) (n : Nat) : EntriesKept b (b.lift s n) := by
  unfold lift
  split
  · split
    · exact entriesKept_modEntry b _ _ fun e => .ofErase e s
    · exact refl b
  · exact refl b

theorem entriesKept_liftAll (b : Bridge) (l : List (Port × Nat)) : EntriesKept b (b.liftAll l) :=
  foldl (fun (b : Bridge) (x : Port × Nat) => b.lift x.1 x.2) (fun b x => entriesKept_lift b x.1 x.2) l b

/-- What freeing an entry does to the entries: it is gone, and the others are kept. -/
theorem entry_freeEntry_self (b : Bridge) (n : DirNo) : (b.freeEntry n).entry n = none := by
  unfold freeEntry
  split
  · exact (entriesKept_liftAll _ _).free n (b.entry_freeQuiet_self n)
  · assumption

theorem free_freeEntry (b : Bridge) (n m : DirNo) (h : b.entry m = none) : (b.freeEntry n).entry m = none := by
  by_cases hm : m = n
  · subst hm; exact b.entry_freeEntry_self m
  · unfold freeEntry
    split
    · exact (entriesKept_liftAll _ _).free m ((b.entry_freeQuiet_ne hm).trans h)
    · exact h

theorem used_freeEntry (b : Bridge) {n m : DirNo} (hm : m ≠ n) {e : Entry} (h : b.entry m = some e) :
    KeptAs e ((b.freeEntry n).entry m) := by
  unfold freeEntry
  split
  · exact (entriesKept_liftAll _ _).used m e ((b.entry_freeQuiet_ne hm).trans h)
  · exact .inr ⟨e, h, .refl e⟩

theorem entriesKept_freeEntry (b : Bridge) (n : DirNo) (h : ∀ e, b.entry n = some e → e.state = .retiring) :
    EntriesKept b (b.freeEntry n) where
  free m hm := b.free_freeEntry n m hm
  used m e he := by
    by_cases hm : m = n
    · subst hm; exact .inl ⟨h e he, b.entry_freeEntry_self m⟩
    · exact b.used_freeEntry hm he

theorem entriesKept_unpin (b : Bridge) (n : DirNo) : EntriesKept b (b.unpin n) := by
  unfold unpin
  refine (entriesKept_modEntry b n (fun e => { e with pins := e.pins - 1 }) fun e => .ofPins e _).trans ?_
  dsimp only
  split
  · rename_i e he
    split
    · rename_i hr
      refine entriesKept_freeEntry _ n fun x hx => ?_
      rw [he] at hx
      exact Option.some.inj hx ▸ hr.1
    · exact refl _
  · exact refl _

/-! ## Offers, notices and counts: the directory is as it was -/

theorem dir_offer1 (b : Bridge) (p : Port) (f : CoaxFrame) : (b.offer1 p f).dir = b.dir := by
  unfold offer1; split <;> rfl

theorem dir_offer0 (b : Bridge) (p : Port) (f : CoaxFrame) : (b.offer0 p f).dir = b.dir := by
  unfold offer0; split <;> rfl

theorem dir_sendEach (b : Bridge) (ps : List Port) (x : Block) (o : Origin) (n : Option Port) : (b.sendEach ps x o n).2.dir = b.dir := by
  have h (f : CoaxFrame) : ∀ (l : List Port) (c : Bridge), (l.foldl (fun c p => c.offer1 p f) c).dir = c.dir := by
    intro l
    induction l with
    | nil => intro c; rfl
    | cons p l ih => intro c; rw [List.foldl_cons, ih, dir_offer1]
  exact h _ ps b.nextSerial

theorem dir_sendPair (b : Bridge) (c : Carrier) (o : Origin) : (b.sendPair c o).2.dir = b.dir := by
  unfold sendPair offerPair
  split
  · rfl
  · split <;> rfl

theorem dir_placeNotice (b : Bridge) (o : Origin) (n : DirNo) (e : Entry) (src : Port → Option Nat) (k : Nat) (l : List Byte) :
    (b.placeNotice o n e src k l).2.dir = b.dir := by
  unfold placeNotice
  split
  · split
    · exact dir_sendEach b _ _ _ _
    · rfl
  · exact dir_sendPair b _ _
  · rfl

theorem dir_noticeTo (b : Bridge) (d : Option DirNo) (ev : NoticeEvent) : (b.noticeTo d ev).dir = b.dir := by
  unfold noticeTo
  split
  · rfl
  · split
    · rename_i n _ e _
      split
      · have h := b.dir_placeNotice .notice n e b.bridgeNumberOn 1 (b.noticeRecord ev)
        split <;> rename_i c hc <;> rw [hc] at h <;> exact h
      · rfl
    · rfl

theorem dir_notify (b : Bridge) (ev : NoticeEvent) : (b.notify ev).dir = b.dir :=
  (dir_noticeTo _ _ ev).trans (dir_noticeTo b _ ev)

theorem dir_jobNotice (b : Bridge) (j : Job) (o : JobOutcome) (r : JobReason) : (b.jobNotice j o r).dir = b.dir := by
  unfold jobNotice
  dsimp only
  split
  · rename_i e _
    have h := b.dir_placeNotice .jobNotice j.owner e
      (fun s => (b.numberOf (lpEntry j.lp) s).orElse fun _ => b.bridgeNumberOn s) (lpEntry j.lp)
      (b.noticeRecord (.job j.number (lpEntry j.lp) o r j.total j.copiesDone))
    split
    · split <;> rename_i c hc <;> rw [hc] at h <;> exact h
    · rfl
  · rfl

theorem dir_answer (b : Bridge) (a : Asker) (x : Answer) (named : Bool) : (b.answer a x named).dir = b.dir := by
  cases a with
  | coax p src dst seq e =>
    unfold answer
    dsimp only
    split
    · exact dir_offer0 _ _ _
    · exact dir_offer1 _ _ _
  | pair mac dst tag seq e =>
    unfold answer
    have h := b.dir_sendPair (answerFrame mac dst tag seq e x) .answer
    dsimp only
    split <;> rename_i hc <;> rw [hc] at h <;> exact h

/-! ## The exchange table -/

theorem entriesKept_count (b : Bridge) (g : Fin 9) (c : Ctr) : EntriesKept b (b.count g c) := ofDir rfl

theorem entriesKept_closeExchange (b : Bridge) (t : Nat) : EntriesKept b (b.closeExchange t) := by
  unfold closeExchange
  split
  · refine .trans ?_ (entriesKept_unpin _ _)
    refine .trans ?_ (entriesKept_unpin _ _)
    exact ofDir (dir_setExchanges b _)
  · exact refl b

theorem entriesKept_failExchange (b : Bridge) (t : Nat) (r : FailReason) : EntriesKept b (b.failExchange t r) := by
  unfold failExchange
  split
  · exact (ofDir (dir_answer b _ _ _)).trans (entriesKept_closeExchange _ _)
  · exact refl b

theorem dir_sendQuestion (b : Bridge) (t : Nat) : (b.sendQuestion t).2.dir = b.dir := by
  unfold sendQuestion
  split
  · rename_i x _
    dsimp only
    split
    · rename_i mac _
      generalize hd : b.modExchange t (fun x => { x with state := .opened .queued, sending := b.serial }) = d
      have h := d.dir_sendPair (d.requestFrame t x mac) (.request t)
      have hb : d.dir = b.dir := by rw [← hd]; rfl
      split <;> rename_i hc <;> rw [hc] at h <;> exact h.trans hb
    · exact dir_sendEach _ _ _ _ _
  · rfl

theorem entriesKept_resendQuestion (b : Bridge) (t : Nat) : EntriesKept b (b.resendQuestion t) := by
  unfold resendQuestion
  have h := dir_sendQuestion b t
  split <;> rename_i c hc <;> rw [hc] at h
  · exact ofDir h
  · exact (ofDir h).trans (entriesKept_failExchange c t _)

theorem entriesKept_questionUnanswered (b : Bridge) (t : Nat) : EntriesKept b (b.questionUnanswered t) := by
  unfold questionUnanswered
  split
  · split
    · exact (ofDir rfl : EntriesKept b (b.modExchange t _)).trans (entriesKept_resendQuestion _ t)
    · exact (entriesKept_failExchange b t _).trans (ofDir rfl)
  · exact refl b

theorem entriesKept_exchangeLoss (b : Bridge) (f : Route → Bool) (t : Nat) : EntriesKept b (b.exchangeLoss f t) := by
  unfold exchangeLoss
  split
  · dsimp only
    split
    · split
      · exact (entriesKept_failExchange b t _).trans (entriesKept_count _ _ _)
      · exact (entriesKept_closeExchange b t).trans (entriesKept_count _ _ _)
    · exact refl b
  · exact refl b

theorem entriesKept_exchangeLosses (b : Bridge) (f : Route → Bool) : EntriesKept b (b.exchangeLosses f) :=
  foldl (fun b t => b.exchangeLoss f t) (fun b t => entriesKept_exchangeLoss b f t) _ b

/-! ## Deliveries -/

theorem dir_setRecord (b : Bridge) (l : Lp) (d : Option Delivery) : (b.setRecord l d).dir = b.dir := rfl
theorem dir_modPrinter (b : Bridge) (n : DirNo) (f : Printer → Printer) : (b.modPrinter n f).dir = b.dir := rfl
theorem dir_modLp (b : Bridge) (l : Lp) (f : LogicalPrinter → LogicalPrinter) : (b.modLp l f).dir = b.dir := rfl
theorem dir_modJob (b : Bridge) (n : Nat) (f : Job → Job) : (b.modJob n f).dir = b.dir := rfl
theorem dir_leaveQueue (b : Bridge) (l : Lp) (n : Nat) : (b.leaveQueue l n).dir = b.dir := rfl
theorem dir_retireJob (b : Bridge) (j : Job) : (b.retireJob j).dir = b.dir := rfl
theorem dir_requeue (b : Bridge) (j : Job) : (b.requeue j).dir = b.dir := rfl
theorem dir_emptyRecord (b : Bridge) (l : Lp) : (b.emptyRecord l).dir = b.dir := rfl
theorem dir_countDelivery (b : Bridge) (c : Ctr) : (b.countDelivery c).dir = b.dir := rfl
theorem dir_setNotResponding (b : Bridge) (n : DirNo) : (b.setNotResponding n).dir = b.dir := rfl

theorem dir_buildFrame (b : Bridge) (l : Lp) : (b.buildFrame l).dir = b.dir := by
  unfold buildFrame
  split
  · split
    · split <;> rfl
    · rfl
  · rfl

theorem entriesKept_startJob (b : Bridge) (l : Lp) (j : Job) (n : DirNo) : EntriesKept b (b.startJob l j n) := by
  unfold startJob
  split
  · split
    · refine .trans ?_ (ofDir (dir_buildFrame _ _))
      refine .trans ?_ (ofDir (dir_modDelivery _ _))
      refine .trans ?_ (ofDir (dir_setRecord _ _ _))
      refine .trans ?_ (entriesKept_pin _ _)
      refine .trans ?_ (ofDir (dir_modPrinter _ _ _))
      refine .trans ?_ (ofDir (dir_modLp _ _ _))
      refine .trans ?_ (ofDir (dir_modJob _ _ _))
      exact ofDir (dir_leaveQueue b _ _)
    · exact refl b
  · exact refl b

theorem entriesKept_tryStart (b : Bridge) (l : Lp) {c : Bridge} (h : b.tryStart l = some c) : EntriesKept b c := by
  unfold tryStart at h
  split at h
  · split at h
    · exact Option.some.inj h ▸ entriesKept_startJob b _ _ _
    · cases h
  · cases h

theorem entriesKept_offerWaiting (b : Bridge) (l : Lp) : EntriesKept b (b.offerWaiting l) := by
  unfold offerWaiting
  dsimp only
  split
  · exact ofDir rfl
  · split
    · rename_i c hc
      exact (entriesKept_tryStart b l hc).trans (ofDir rfl)
    · exact refl b

theorem entriesKept_offerIdle (b : Bridge) (l : Lp) : EntriesKept b (b.offerIdle l) := by
  unfold offerIdle
  split
  · split
    · rename_i c hc
      exact entriesKept_tryStart b l hc
    · exact ofDir rfl
  · exact refl b

theorem entriesKept_dispatch (b : Bridge) : EntriesKept b b.dispatch := by
  unfold dispatch
  refine .trans ?_ (ofDir (dir_modDelivery _ _))
  refine .trans ?_ (foldl offerIdle entriesKept_offerIdle _ _)
  refine .trans ?_ (foldl offerIdle entriesKept_offerIdle _ _)
  exact foldl offerWaiting entriesKept_offerWaiting _ b

theorem entriesKept_endJob (b : Bridge) (n : Nat) (o : JobOutcome) (r : JobReason) : EntriesKept b (b.endJob n o r) := by
  unfold endJob
  split
  · refine .trans ?_ (entriesKept_unpin _ _)
    refine .trans ?_ (ofDir (dir_jobNotice _ _ _ _))
    exact ofDir (dir_retireJob b _)
  · exact refl b

theorem dir_failover (b : Bridge) (l : Lp) (n : DirNo) : (b.failover l n).dir = b.dir := by
  unfold failover
  dsimp only
  split
  · split <;> rfl
  · split
    · split <;> rfl
    · rfl

theorem entriesKept_releasePrinter (b : Bridge) (n : DirNo) : EntriesKept b (b.releasePrinter n) :=
  (ofDir (dir_modPrinter b n _)).trans (entriesKept_unpin _ n)

theorem entriesKept_stopQuiet (b : Bridge) (l : Lp) : EntriesKept b (b.stopQuiet l) := by
  unfold stopQuiet
  split
  · rename_i d _
    refine .trans (entriesKept_releasePrinter b d.target) ?_
    refine .trans (ofDir (dir_failover _ l d.target)) ?_
    refine .trans (ofDir (dir_emptyRecord _ l)) ?_
    dsimp only
    refine .trans ?_ (ofDir (dir_countDelivery _ _))
    split
    · split
      · exact entriesKept_endJob _ _ _ _
      · split
        · exact ofDir (dir_requeue _ _)
        · exact entriesKept_endJob _ _ _ _
    · exact refl _
  · exact refl b

theorem entriesKept_stop (b : Bridge) (l : Lp) : EntriesKept b (b.stop l) :=
  (entriesKept_stopQuiet b l).trans (entriesKept_dispatch _)

theorem entriesKept_tryEnds (b : Bridge) (l : Lp) : EntriesKept b (b.tryEnds l) := by
  unfold tryEnds
  split
  · split
    · exact ofDir rfl
    · refine .trans ?_ (entriesKept_stop _ l)
      exact (ofDir (dir_setNotResponding b _)).trans (ofDir (dir_countDelivery _ _))
  · exact refl b

theorem entriesKept_deliveryLosses (b : Bridge) (f : Route → Bool) : EntriesKept b (b.deliveryLosses f) :=
  foldl _ (fun b l => by
    split
    · exact entriesKept_stop b l
    · exact refl b) _ b

/-! ## Reports -/

theorem entriesKept_lossReport (b : Bridge) (c : LossCause) (o : Origin) (n : Nat) : EntriesKept b (b.lossReport c o n) := by
  cases o with
  | forward =>
    unfold lossReport
    dsimp only
    split <;> exact ofDir rfl
  | request tag =>
    unfold lossReport questionNotSent
    dsimp only
    split
    · exact entriesKept_questionUnanswered b tag
    · exact refl b
  | delivery l =>
    unfold lossReport deliveryNotSent
    dsimp only
    split
    · exact entriesKept_tryEnds b l
    · exact refl b
  | _ => exact ofDir rfl

theorem entriesKept_framesFlushed : ∀ (l : List CoaxFrame) (b : Bridge), EntriesKept b (b.framesFlushed l)
  | [], b => refl b
  | f :: rest, b => by
    unfold framesFlushed
    split
    · exact entriesKept_framesFlushed rest b
    · refine EntriesKept.trans ?_ (entriesKept_framesFlushed rest _)
      unfold frameLost
      split
      · exact refl b
      · exact entriesKept_lossReport b _ _ _

theorem entriesKept_listedFlushed (b : Bridge) (p : Port) (l : Lp) : EntriesKept b (b.listedFlushed p l) := by
  unfold listedFlushed
  split
  · exact entriesKept_tryEnds b l
  · exact refl b

theorem entriesKept_reportFlush (b : Bridge) (l : List Flush) : EntriesKept b (b.reportFlush l) :=
  (entriesKept_framesFlushed _ b).trans
    (foldl (fun (b : Bridge) (x : Flush) => x.waiting.foldl (fun b w => b.listedFlushed x.port w) b)
      (fun b x => foldl (fun b w => b.listedFlushed x.port w) (fun b w => entriesKept_listedFlushed b x.port w) _ b) _ _)

theorem dir_feedNotice (b : Bridge) (i : PairNo) (s : FeedState) : (b.feedNotice i s).dir = b.dir := by
  unfold feedNotice
  split
  · exact dir_notify b _
  · rfl

/-- Once the reach has been recomputed, the conclusion of a change pins, unpins and lifts only. -/
theorem entriesKept_concludeChange (b before : Bridge) (l : List Flush) :
    EntriesKept b.refreshReach (b.concludeChange before l) := by
  unfold concludeChange
  dsimp only
  refine EntriesKept.trans ?_ (entriesKept_reportFlush _ l)
  refine EntriesKept.trans ?_ (ofDir ((dir_feedNotice _ 1 _).trans (dir_feedNotice _ 0 _)))
  split
  · exact refl _
  · exact (entriesKept_exchangeLosses _ _).trans (entriesKept_deliveryLosses _ _)

/-! ## Reach (R59) -/

theorem entry_refreshReach (b : Bridge) (n : DirNo) :
    b.refreshReach.entry n = (b.entry n).map fun e => { e with reachable := b.reachOf e } := by
  have h := look_map (fun _ (e : Entry) => ({ e with reachable := b.reachOf e } : Entry)) n b.dir.entries
  exact h

/-- The reach of an entry is known by its home, its end, the link, the monitors and the feeds (R58). -/
theorem reachOf_congr {b c : Bridge} (e : Entry) (hl : c.pair.link = b.pair.link) (hm : ∀ p, c.mon p = b.mon p)
    (hf : ∀ i, (c.feed i).bare = (b.feed i).bare) : c.reachOf e = b.reachOf e := by
  have hp (p : Port) : c.paired p = b.paired p :=
    show (c.feed (pairOf p)).bare.paired = (b.feed (pairOf p)).bare.paired from congrArg Feed.paired (hf (pairOf p))
  have ha (i : PairNo) (s : Side) : feedAllows (c.feed i) s = feedAllows (b.feed i) s :=
    show feedAllows (c.feed i).bare s = feedAllows (b.feed i).bare s by rw [hf]
  have hc (p : Port) : c.canTransmit p = b.canTransmit p := by simp only [canTransmit, hm, hp, ha]
  simp only [reachOf, hl, hm, hp, hc]

/-- The reach does not ask for pins and withdrawals. -/
theorem reachOf_entryKept (b : Bridge) {e x : Entry} (h : EntryKept e x) : b.reachOf x = b.reachOf e := by
  rw [← h.same]; rfl

end Bridge

theorem Steady.reachOf {b c : Bridge} (h : Steady b c) (e : Entry) : c.reachOf e = b.reachOf e :=
  Bridge.reachOf_congr e h.link h.mon h.feed

end Sys2Proof.Machine

/-! # Entries that are freed. -/

namespace Sys2Proof.Machine
open Sys2Proof

/-! ## Keyed lists under a change and under a map of the values -/

theorem above_change {α : Type} {j : Nat} (k : Nat) (f : α → α) : ∀ {l : List (Nat × α)}, above j l → above j (change k f l)
  | [], h => h
  | (n, v) :: l, h => by
    rw [change]
    split <;> exact h

theorem rising_change {α : Type} (k : Nat) (f : α → α) : ∀ {l : List (Nat × α)}, rising l = true → rising (change k f l) = true
  | [], h => h
  | (n, v) :: l, h => by
    obtain ⟨ha, hr⟩ := (rising_cons n v l).1 h
    rw [change]
    split
    · exact (rising_cons n _ l).2 ⟨ha, hr⟩
    · exact (rising_cons n v _).2 ⟨above_change k f ha, rising_change k f hr⟩

theorem above_map {α β : Type} {j : Nat} (f : Nat × α → β) : ∀ {l : List (Nat × α)}, above j l → above j (l.map fun x => (x.1, f x))
  | [], h => h
  | _ :: _, h => h

theorem rising_map {α β : Type} (f : Nat × α → β) : ∀ {l : List (Nat × α)}, rising l = true → rising (l.map fun x => (x.1, f x)) = true
  | [], h => h
  | (n, v) :: l, h => by
    obtain ⟨ha, hr⟩ := (rising_cons n v l).1 h
    exact (rising_cons n _ _).2 ⟨above_map f ha, rising_map f hr⟩

theorem mem_of_look {α : Type} {k : Nat} {v : α} : ∀ {l : List (Nat × α)}, look k l = some v → (k, v) ∈ l
  | (n, w) :: l, h => by
    rw [look] at h
    split at h
    · rename_i e
      subst e
      exact Option.some.inj h ▸ List.mem_cons_self
    · exact List.mem_cons_of_mem _ (mem_of_look h)

theorem lt_of_mem {α : Type} {k : Nat} {x : Nat × α} : ∀ {l : List (Nat × α)}, above k l → rising l = true → x ∈ l → k < x.1
  | (n, w) :: l, ha, hr, hx => by
    obtain ⟨hn, hl⟩ := (rising_cons n w l).1 hr
    obtain rfl | hx := List.mem_cons.1 hx
    · exact ha
    · exact lt_of_mem (above_of_lt ha hn) hl hx

theorem look_of_mem {α : Type} {k : Nat} {v : α} : ∀ {l : List (Nat × α)}, rising l = true → (k, v) ∈ l → look k l = some v
  | (n, w) :: l, hr, hx => by
    obtain ⟨hn, hl⟩ := (rising_cons n w l).1 hr
    obtain h | h := List.mem_cons.1 hx
    · cases h; simp [look]
    · have : n < k := lt_of_mem hn hl h
      rw [look, if_neg (by omega)]
      exact look_of_mem hl h

theorem drop_of_look_none {α : Type} {k : Nat} : ∀ {l : List (Nat × α)}, look k l = none → drop k l = l
  | [], _ => rfl
  | (n, w) :: l, h => by
    rw [look] at h
    split at h
    · cases h
    · rename_i hn
      rw [drop, if_neg hn, drop_of_look_none h]

/-- A map over a keyed list that keeps the keys reads through the look-up. -/
theorem look_map_key {α β : Type} (f : Nat × α → Nat × β) (hf : ∀ x, (f x).1 = x.1) (n : Nat) (l : List (Nat × α)) :
    look n (l.map f) = (look n l).map fun v => (f (n, v)).2 := by
  have h : l.map f = l.map fun x => (x.1, (fun k v => (f (k, v)).2) x.1 x.2) :=
    List.map_congr_left fun x _ => Prod.ext (hf x) rfl
  rw [h]
  exact look_map (fun k v => (f (k, v)).2) n l

/-- A map over a keyed list that keeps the keys keeps its order. -/
theorem rising_map_key {α β : Type} (f : Nat × α → Nat × β) (hf : ∀ x, (f x).1 = x.1) {l : List (Nat × α)} (h : rising l = true) :
    rising (l.map f) = true := by
  have e : l.map f = l.map fun x => (x.1, (f x).2) := List.map_congr_left fun x _ => Prod.ext (hf x) rfl
  rw [e]
  exact rising_map (fun x => (f x).2) h

/-! ## What freeing entries changes (R55) -/

namespace Bridge

/-- The bridge with its entries, its pair repeat memory and its printers replaced: all that freeing and unpinning entries changes. -/
def relist (b : Bridge) (es : Entries) (rs : List PairRepeat) (ps : List (Nat × Printer)) : Bridge :=
  ((b.modEntries fun _ => es).modPair fun x => { x with repeats := rs }).modDelivery fun u => { u with printers := ps }

end Bridge

/-- Entries have been changed and freed, and nothing else has changed but what goes with a freed entry: its records of the pair repeat
memory and its printer record (R55). -/
structure Freed (b c : Bridge) : Prop where
  rest : ∃ es rs ps, c = b.relist es rs ps
  repeats : b.pair.repeats = [] → c.pair.repeats = []
  entries : rising b.dir.entries = true → rising c.dir.entries = true
  free : ∀ n, b.entry n = none → c.entry n = none
  printer : ∀ n, c.printer n = b.printer n ∨ c.printer n = none
  gone : ∀ n, c.entry n = none → b.entry n = none ∨ c.printer n = none
  stays : ∀ n x, c.entry n = some x → c.printer n = b.printer n

namespace Freed

theorem refl (b : Bridge) : Freed b b :=
  ⟨⟨b.dir.entries, b.pair.repeats, b.delivery.printers, rfl⟩, id, id, fun _ => id, fun _ => .inl rfl, fun _ => .inl, fun _ _ _ => rfl⟩

theorem trans {b c d : Bridge} (h : Freed b c) (k : Freed c d) : Freed b d where
  rest := by
    obtain ⟨es, rs, ps, rfl⟩ := h.rest
    obtain ⟨es', rs', ps', rfl⟩ := k.rest
    exact ⟨es', rs', ps', rfl⟩
  repeats e := k.repeats (h.repeats e)
  entries e := k.entries (h.entries e)
  free n e := k.free n (h.free n e)
  printer n := (k.printer n).elim (fun e => (h.printer n).imp e.trans e.trans) .inr
  gone n e := by
    obtain hc | hd := k.gone n e
    · exact (h.gone n hc).imp_right fun e => (k.printer n).elim (fun e' => e'.trans e) id
    · exact .inr hd
  stays n x e := by
    cases hc : c.entry n with
    | none => rw [k.free n hc] at e; cases e
    | some y => exact (k.stays n x e).trans (h.stays n y hc)

theorem foldl {α : Type} (f : Bridge → α → Bridge) (hf : ∀ b x, Freed b (f b x)) : ∀ (l : List α) (b : Bridge), Freed b (l.foldl f b)
  | [], b => refl b
  | x :: l, b => (hf b x).trans (foldl f hf l (f b x))

/-- A change of the entries under the numbers they have. -/
theorem ofEntries (b : Bridge) (f : Entries → Entries) (hr : rising b.dir.entries = true → rising (f b.dir.entries) = true)
    (hn : ∀ n, look n (f b.dir.entries) = none ↔ b.entry n = none) : Freed b (b.modEntries f) where
  rest := ⟨f b.dir.entries, b.pair.repeats, b.delivery.printers, rfl⟩
  repeats := id
  entries := hr
  free n := (hn n).2
  printer _ := .inl rfl
  gone n e := .inl ((hn n).1 e)
  stays _ _ _ := rfl

theorem ofMap (b : Bridge) (f : Nat × Entry → Nat × Entry) (hf : ∀ x, (f x).1 = x.1) : Freed b (b.modEntries (List.map f)) :=
  ofEntries b _ (rising_map_key f hf) fun n => by rw [look_map_key f hf]; exact Option.map_eq_none_iff

theorem ofEntry (b : Bridge) (n : DirNo) (f : Entry → Entry) : Freed b (b.modEntry n f) :=
  ofEntries b _ (rising_change n f) fun m => by
    have h := b.entry_modEntry n m f
    change look m (change n f b.dir.entries) = _ at h
    rw [h]
    split
    · exact Option.map_eq_none_iff
    · exact Iff.rfl

variable {b c : Bridge}

theorem noPrinter (h : Freed b c) {n : DirNo} (e : b.printer n = none) : c.printer n = none :=
  (h.printer n).elim (fun e' => e'.trans e) id

theorem ctl (h : Freed b c) : c.ctl = b.ctl := by obtain ⟨es, rs, ps, rfl⟩ := h.rest; rfl
theorem settings (h : Freed b c) : c.settings = b.settings := by obtain ⟨es, rs, ps, rfl⟩ := h.rest; rfl
theorem ports (h : Freed b c) : c.ports = b.ports := by obtain ⟨es, rs, ps, rfl⟩ := h.rest; rfl
theorem feeds (h : Freed b c) : c.feeds = b.feeds := by obtain ⟨es, rs, ps, rfl⟩ := h.rest; rfl
theorem coaxRepeats (h : Freed b c) : c.repeats = b.repeats := by obtain ⟨es, rs, ps, rfl⟩ := h.rest; rfl
theorem staging (h : Freed b c) : c.dir.staging = b.dir.staging := by obtain ⟨es, rs, ps, rfl⟩ := h.rest; rfl
theorem link (h : Freed b c) : c.pair.link = b.pair.link := by obtain ⟨es, rs, ps, rfl⟩ := h.rest; rfl
theorem exchanges (h : Freed b c) : c.exchanges = b.exchanges := by obtain ⟨es, rs, ps, rfl⟩ := h.rest; rfl
theorem spool (h : Freed b c) : c.spool = b.spool := by obtain ⟨es, rs, ps, rfl⟩ := h.rest; rfl
theorem agent (h : Freed b c) : c.agent = b.agent := by obtain ⟨es, rs, ps, rfl⟩ := h.rest; rfl
theorem reporting (h : Freed b c) : c.reporting = b.reporting := by obtain ⟨es, rs, ps, rfl⟩ := h.rest; rfl

theorem setExchanges (h : Freed b c) (x : List (Nat × Exchange)) : Freed (b.setExchanges x) (c.setExchanges x) where
  rest := by obtain ⟨es, rs, ps, rfl⟩ := h.rest; exact ⟨es, rs, ps, rfl⟩
  repeats := h.repeats
  entries := h.entries
  free := h.free
  printer := h.printer
  gone := h.gone
  stays := h.stays

end Freed

namespace Bridge

theorem freed_lift (b : Bridge) (s : Port) (n : Nat) : Freed b (b.lift s n) := by
  unfold lift
  split
  · split
    · exact .ofEntry b _ _
    · exact .refl b
  · exact .refl b

theorem freed_liftAll (b : Bridge) (l : List (Port × Nat)) : Freed b (b.liftAll l) :=
  .foldl (fun (b : Bridge) (x : Port × Nat) => b.lift x.1 x.2) (fun b x => freed_lift b x.1 x.2) l b

theorem freed_retireQuiet (b : Bridge) (n : DirNo) : Freed b (b.retireQuiet n) := .ofEntry b _ _

theorem printer_freeQuiet_self (b : Bridge) (n : DirNo) : (b.freeQuiet n).printer n = none := look_drop_self n _

theorem printer_freeQuiet_ne (b : Bridge) {n m : DirNo} (h : m ≠ n) : (b.freeQuiet n).printer m = b.printer m := look_drop_ne h _

theorem freed_freeQuiet (b : Bridge) (n : DirNo) : Freed b (b.freeQuiet n) where
  rest := ⟨_, _, _, rfl⟩
  repeats h := show b.pair.repeats.filter _ = [] by rw [h]; rfl
  entries := rising_drop n
  free m h := by
    by_cases e : m = n
    · subst e; exact b.entry_freeQuiet_self m
    · exact (b.entry_freeQuiet_ne e).trans h
  printer m := by
    by_cases e : m = n
    · subst e; exact .inr (b.printer_freeQuiet_self m)
    · exact .inl (b.printer_freeQuiet_ne e)
  gone m h := by
    by_cases e : m = n
    · subst e; exact .inr (b.printer_freeQuiet_self m)
    · exact .inl ((b.entry_freeQuiet_ne e).symm.trans h)
  stays m x h := by
    by_cases e : m = n
    · subst e; rw [b.entry_freeQuiet_self m] at h; cases h
    · exact b.printer_freeQuiet_ne e

theorem freed_freeEntry (b : Bridge) (n : DirNo) : Freed b (b.freeEntry n) := by
  unfold freeEntry
  split
  · exact (b.freed_freeQuiet n).trans (freed_liftAll _ _)
  · exact .refl b

theorem freed_unpin (b : Bridge) (n : DirNo) : Freed b (b.unpin n) := by
  unfold unpin
  refine (Freed.ofEntry b n fun e => { e with pins := e.pins - 1 }).trans ?_
  dsimp only
  split
  · split
    · exact freed_freeEntry _ n
    · exact .refl _
  · exact .refl _

theorem freed_unlearn (b : Bridge) (n : DirNo) (e : Entry) : Freed b (b.unlearn n e) := by
  unfold unlearn
  split
  · exact b.freed_freeEntry n
  · exact (b.freed_retireQuiet n).trans (freed_liftAll _ _)

/-- An entry as a pairing change of a pair leaves it, where it stays in use: one homed on the lower port takes its end anew (R62). -/
def pairedEnd (i : PairNo) (now : Bool) (e : Entry) : Entry :=
  if e.home.port? = some (lowerOf i) then { e with endField := if now then some .unknown else none } else e

/-- The port whose LEARNED entries go at a pairing change: the upper port, which is no home while the pair is PAIRED, or the lower one
(R62). -/
def goneAt (i : PairNo) (now : Bool) : Port := if now then upperOf i else lowerOf i

theorem changePairing_eq (b : Bridge) (i : PairNo) (now : Bool) : b.changePairing i now =
    ((b.learnedOn (goneAt i now)).foldl (fun b x => b.unlearn x.1 x.2) b).modEntries
      (List.map fun x => (x.1, pairedEnd i now x.2)) := by
  unfold changePairing
  refine congrArg (modEntries _) (funext fun es => List.map_congr_left fun x _ => ?_)
  unfold pairedEnd
  split <;> rfl

theorem freed_changePairing (b : Bridge) (i : PairNo) (now : Bool) : Freed b (b.changePairing i now) := by
  rw [changePairing_eq]
  exact .trans (.foldl _ (fun b (x : Nat × Entry) => b.freed_unlearn x.1 x.2) _ b) (.ofMap _ _ fun _ => rfl)

theorem freed_clearEnds (b : Bridge) (l : Port) : Freed b (b.clearEnds l) := by
  unfold clearEnds
  refine Freed.ofMap _ _ fun x => ?_
  dsimp only
  split
  · split <;> rfl
  · rfl

end Bridge

end Sys2Proof.Machine

/-! # Ports emptied and restarted, feed controllers restarted. -/

namespace Sys2Proof.Machine
open Sys2Proof

namespace Bridge

/-! ## Ports changed one after another -/

theorem port_setPorts_ofFn (b : Bridge) (f : Port → PortState) (p : Port) : (b.setPorts (Vector.ofFn f)).port p = f p := by
  simp [port]

/-- A change of each of several ports, each by its own state, the clock and the settings, is one change of the ports. -/
theorem foldl_onPorts (step : Bridge → Port → Bridge) (g : Control → Settings → Port → PortState → PortState)
    (hstep : ∀ b p, step b p = b.modPort p (g b.ctl b.settings p)) : ∀ (l : List Port), l.Nodup → ∀ b : Bridge,
      l.foldl step b = b.setPorts (Vector.ofFn fun p => if p ∈ l then g b.ctl b.settings p (b.port p) else b.port p)
  | [], _, b => by
    have h : (Vector.ofFn fun p : Port => b.port p) = b.ports := by ext i hi; simp [port]
    simp only [List.not_mem_nil, if_false, List.foldl_nil]
    rw [h]
    rfl
  | p :: l, hl, b => by
    obtain ⟨hp, hl⟩ := List.nodup_cons.1 hl
    rw [List.foldl_cons, foldl_onPorts step g hstep l hl, hstep]
    show b.setPorts _ = b.setPorts _
    refine congrArg b.setPorts (congrArg Vector.ofFn (funext fun q => ?_))
    by_cases hq : p = q
    · subst hq; simp [hp]
    · simp [hq, Ne.symm hq]

/-- A port's queues emptied, its attempt abandoned (R19). -/
def emptied (now : Time) (x : PortState) : PortState :=
  { x with class0 := [], class1 := [], attempt := none, backoff := none, waiting := [],
           quietFrom := if x.attempt.isSome || now < x.quietFrom then now else x.quietFrom }

/-- A port's monitor and allowance at a reset (R96, R172). -/
def restarted (now : Time) (y : PortSettings) (latched : FaultSet) (x : PortState) : PortState :=
  { x with mon := Monitor.restart now y latched, carrier := x.carrier.map fun c => { c with jabbered := false },
           allowance := y.cap, remainder := 0 }

theorem emptyPort_eq (b : Bridge) (p : Port) : b.emptyPort p = b.modPort p (emptied b.ctl.now) := by
  unfold emptyPort takeFlush
  dsimp only
  refine modPort_congr b p ?_
  rfl

theorem restartPort_eq (b : Bridge) (p : Port) (latched : FaultSet) :
    b.restartPort p latched = b.modPort p (restarted b.ctl.now b.settings.port[p] latched) := by
  unfold restartPort fullAllowance
  rw [modPort_modPort]
  refine modPort_congr b p ?_
  rfl

/-- Flushes taken one after another empty the ports. -/
theorem foldl_takeFlush : ∀ (l : List Port) (y : List Flush × Bridge),
    (l.foldl (fun y q => let z := y.2.takeFlush q; (y.1 ++ [z.1], z.2)) y).2 = l.foldl emptyPort y.2
  | [], _ => rfl
  | _ :: l, _ => foldl_takeFlush l _

/-! ## A feed controller that a reset has restarted (R180) -/

theorem canTransmit_of_not_active (b : Bridge) (p : Port) (h : (b.mon p).state ≠ .active) : b.canTransmit p = false := by
  simp [canTransmit, h]

/-- While neither end is ACTIVE, a change of a feed controller that keeps its state changes nothing else. -/
theorem changeFeed_still (b : Bridge) (i : PairNo) (g : Feed → Feed) (hs : (g (b.feed i)).state = (b.feed i).state)
    (ha : (b.mon (lowerOf i)).state ≠ .active) (hc : (b.mon (upperOf i)).state ≠ .active) :
    b.changeFeed i g = ([], b.modFeed i g) := by
  have ha' := b.canTransmit_of_not_active _ ha
  have hc' := b.canTransmit_of_not_active _ hc
  have ga := (b.modFeed i g).canTransmit_of_not_active _ ha
  have gc := (b.modFeed i g).canTransmit_of_not_active _ hc
  unfold changeFeed
  simp [hs, ha', hc', ga, gc]

theorem follow_unpaired (b : Bridge) (i : PairNo) (h : (b.feed i).paired = false) : b.follow i = ([], b) := by
  simp [follow, h]

/-- A restarted feed controller waits while an end is TESTING; where neither is, its start-up wait ends at once, in DOWN (R180). -/
theorem follow_restarted (b : Bridge) (i : PairNo) {paired : Bool} {counters : Counters}
    (hf : b.feed i = Feed.restart paired counters)
    (ha : (b.mon (lowerOf i)).state = .testing ∨ (b.mon (lowerOf i)).state = .off)
    (hc : (b.mon (upperOf i)).state = .testing ∨ (b.mon (upperOf i)).state = .off) :
    b.follow i = ([], b.modFeed i fun _ =>
      { paired, counters,
        startWait := paired && (decide ((b.mon (lowerOf i)).state = .testing) || decide ((b.mon (upperOf i)).state = .testing)) }) := by
  have hid (g : Feed → Feed) (h : g (b.feed i) = b.feed i) : b.modFeed i g = b := by
    have e : b.feeds.set i (b.feed i) = b.feeds := by simp [feed]
    show b.setFeeds (b.feeds.set i (g (b.feed i))) = b
    rw [h, e]
    rfl
  cases paired with
  | false =>
    rw [b.follow_unpaired i (by rw [hf]; rfl), hid]
    rw [hf]; rfl
  | true =>
    by_cases ht : (b.mon (lowerOf i)).state = .testing ∨ (b.mon (upperOf i)).state = .testing
    · have hw : (decide ((b.mon (lowerOf i)).state = .testing) || decide ((b.mon (upperOf i)).state = .testing)) = true := by
        simpa using ht
      rw [hw, hid _ (by rw [hf]; rfl)]
      simp [follow, hf, Feed.restart, ht]
    · obtain ⟨hna, hnc⟩ := not_or.1 ht
      have ha := ha.resolve_left hna
      have hc := hc.resolve_left hnc
      have hg : Feed.endWait b.now .off .off (b.feed i) = { paired := true, counters } := by rw [hf]; rfl
      have hm : b.modFeed i (Feed.endWait b.now .off .off) = b.modFeed i fun _ => { paired := true, counters } :=
        congrArg (fun x => b.setFeeds (b.feeds.set i x)) hg
      have hs := b.changeFeed_still i (Feed.endWait b.now .off .off) (by rw [hg, hf]; rfl) (by simp [ha]) (by simp [hc])
      have hfo : b.follow i = b.changeFeed i (Feed.endWait b.now .off .off) := by simp [follow, hf, Feed.restart, ha, hc]
      rw [hfo, hs, hm, ha, hc]
      rfl

theorem state_restart (now : Time) (y : PortSettings) (latched : FaultSet) :
    (Monitor.restart now y latched).state = .testing ∨ (Monitor.restart now y latched).state = .off := by
  unfold Monitor.restart
  cases y.enable <;> simp

theorem testing_restart (now : Time) (y : PortSettings) (latched : FaultSet) :
    decide ((Monitor.restart now y latched).state = .testing) = y.enable := by
  unfold Monitor.restart
  cases y.enable <;> rfl

end Bridge

end Sys2Proof.Machine

/-! # The stages of a port reset. -/

namespace Sys2Proof.Machine
open Sys2Proof

theorem Freed.setFeeds {b c : Bridge} (h : Freed b c) (x : Vector Feed 2) : Freed (b.setFeeds x) (c.setFeeds x) where
  rest := by obtain ⟨es, rs, ps, rfl⟩ := h.rest; exact ⟨es, rs, ps, rfl⟩
  repeats := h.repeats
  entries := h.entries
  free := h.free
  printer := h.printer
  gone := h.gone
  stays := h.stays

namespace Bridge

/-! ## The ports and the feed controller of a port reset (R173, R190) -/

theorem resetPorts_eq (b : Bridge) (p : Port) : b.resetPorts p =
    if b.paired p = true ∨ b.settings.pairing[pairOf p] = true then [lowerOf (pairOf p), upperOf (pairOf p)] else [p] := by
  simp [resetPorts]

theorem resetPorts_nodup (b : Bridge) (p : Port) : (b.resetPorts p).Nodup := by
  rw [resetPorts_eq]
  split
  · simp [lowerOf_ne_upperOf]
  · simp

/-- Both ends of the pair are reset where its feed controller is restarted. -/
theorem mem_resetPorts (b : Bridge) (p q : Port) (h : b.paired p = true ∨ b.settings.pairing[pairOf p] = true)
    (hq : pairOf q = pairOf p) : q ∈ b.resetPorts p := by
  rw [resetPorts_eq, if_pos h]
  obtain rfl | rfl := end_of_pair q _ hq <;> simp

theorem freed_restartFeed (b : Bridge) (i : PairNo) (paired : Bool) (counters : Counters) :
    Freed (b.modFeed i fun _ => Feed.restart paired counters) (b.restartFeed i paired counters) := by
  unfold restartFeed
  dsimp only
  split
  · exact freed_clearEnds _ _
  · exact .refl _

theorem restartFeed_feed (b : Bridge) (i : PairNo) (paired : Bool) (counters : Counters) :
    (b.restartFeed i paired counters).feed i = Feed.restart paired counters := by
  rw [feed_eq, (b.freed_restartFeed i paired counters).feeds]
  exact b.feed_modFeed_self i _

/-- A pair that is UNPAIRED in effect and by its setting keeps its feed controller and its entries. -/
theorem resetFeed_unpaired (b : Bridge) (i : PairNo) (hn : b.settings.pairing[i] = false) (hw : (b.feed i).paired = false) :
    b.resetFeed i = b := by
  simp [resetFeed, hn, hw]

/-- A pair whose pairing stays PAIRED starts anew. -/
theorem resetFeed_paired (b : Bridge) (i : PairNo) (hn : b.settings.pairing[i] = true) (hw : (b.feed i).paired = true) :
    b.resetFeed i = b.restartFeed i true feedCounters := by
  simp [resetFeed, hn, hw]

/-- A pair whose pairing changes starts anew with its entries changed (R62). -/
theorem resetFeed_changed (b : Bridge) (i : PairNo) (h : b.settings.pairing[i] ≠ (b.feed i).paired) :
    b.resetFeed i = (b.changePairing i b.settings.pairing[i]).restartFeed i b.settings.pairing[i] feedCounters := by
  have h' : b.settings.pairing[i] = true ∨ (b.feed i).paired = true := by
    cases hn : b.settings.pairing[i] <;> cases hw : (b.feed i).paired <;> simp_all
  unfold resetFeed
  dsimp only
  rw [if_neg h, if_pos h']

theorem freed_resetFeed (b : Bridge) (i : PairNo) : Freed (b.setFeeds (b.resetFeed i).feeds) (b.resetFeed i) := by
  by_cases h : b.settings.pairing[i] = (b.feed i).paired
  · cases hw : (b.feed i).paired with
    | false => rw [b.resetFeed_unpaired i (h.trans hw) hw]; exact .refl b
    | true =>
      rw [b.resetFeed_paired i (h.trans hw) hw, (b.freed_restartFeed i true feedCounters).feeds]
      exact b.freed_restartFeed i true feedCounters
  · rw [b.resetFeed_changed i h]
    generalize b.settings.pairing[i] = now
    have hr := (b.changePairing i now).freed_restartFeed i now feedCounters
    refine .trans ?_ hr
    rw [hr.feeds]
    exact (b.freed_changePairing i now).setFeeds _

theorem resetFeed_feed (b : Bridge) (i : PairNo) (h : (b.feed i).paired = true ∨ b.settings.pairing[i] = true) :
    (b.resetFeed i).feed i = Feed.restart b.settings.pairing[i] feedCounters := by
  by_cases e : b.settings.pairing[i] = (b.feed i).paired
  · have hw : (b.feed i).paired = true := h.elim id fun hn => e ▸ hn
    rw [b.resetFeed_paired i (e.trans hw) hw, restartFeed_feed, e, hw]
  · rw [b.resetFeed_changed i e]
    exact restartFeed_feed _ _ _ _

/-! ## The stages of a port reset (R190) -/

/-- The bridge with the reset ports flushed and restarted, and their part of the coax repeat memory emptied. -/
def portRestarted (b : Bridge) (p : Port) : Bridge :=
  (b.setPorts (Vector.ofFn fun q =>
      if q ∈ b.resetPorts p then restarted b.ctl.now b.settings.port[q] {} (emptied b.ctl.now (b.port q)) else b.port q)).setRepeats
    (b.repeats.filter fun r => !(b.resetPorts p).contains r.segment)

/-- The flushes of the reset ports. -/
def portFlushes (b : Bridge) (p : Port) : List Flush :=
  ((b.resetPorts p).foldl (fun y q => let z := y.2.takeFlush q; (y.1 ++ [z.1], z.2)) (([] : List Flush), b)).1

/-- The bridge before its feed controller takes the report: the feed controller restarted too, and no reset waiting. -/
def portFed (b : Bridge) (p : Port) : Bridge :=
  let c := (b.portRestarted p).resetFeed (pairOf p)
  c.setCtl { c.ctl with waiting := none }

/-- The bridge of a port reset when its reports are taken. -/
def portSettled (b : Bridge) (p : Port) : Bridge := ((b.portFed p).follow (pairOf p)).2

/-- The bridge once they have been taken. -/
def portConcluded (b : Bridge) (p : Port) : Bridge :=
  (b.portSettled p).concludeChange b (b.portFlushes p ++ ((b.portFed p).follow (pairOf p)).1)

theorem portReset_eq (b : Bridge) (p : Port) : b.portReset p =
    ((b.resetPorts p).foldl emptyLineGroup ((b.portConcluded p).zeroFeedCounters (pairOf p) b)).resetPrinters (b.resetPorts p) := by
  have hf := foldl_onPorts emptyPort (fun c _ _ => emptied c.now) emptyPort_eq _ (b.resetPorts_nodup p) b
  have hr (c : Bridge) := foldl_onPorts (fun c q => c.restartPort q {}) (fun c x q => restarted c.now x.port[q] {})
    (fun c q => c.restartPort_eq q {}) _ (b.resetPorts_nodup p) c
  have hs : ((b.resetPorts p).foldl (fun c q => c.restartPort q {})
      (((b.resetPorts p).foldl emptyPort b).setRepeats
        (((b.resetPorts p).foldl emptyPort b).repeats.filter fun r => !(b.resetPorts p).contains r.segment))) =
      b.portRestarted p := by
    rw [hr, hf]
    unfold portRestarted
    refine congrArg (fun v => (b.setPorts v).setRepeats _) (congrArg Vector.ofFn (funext fun q => ?_))
    simp only [port_eq, ports_setRepeats, ports_setPorts]
    by_cases hq : q ∈ b.resetPorts p <;> simp [hq]
  unfold portReset
  dsimp only
  rw [foldl_takeFlush, hs]
  rfl

end Bridge

end Sys2Proof.Machine

/-! # What the stages of a port reset leave. -/

namespace Sys2Proof.Machine
open Sys2Proof

namespace Bridge

/-! ## What the stages of a port reset leave (R20, R62, R172, R180) -/

theorem port_portRestarted (b : Bridge) (p q : Port) : (b.portRestarted p).port q =
    if q ∈ b.resetPorts p then restarted b.ctl.now b.settings.port[q] {} (emptied b.ctl.now (b.port q)) else b.port q :=
  port_setPorts_ofFn b _ q

theorem ctl_portFed (b : Bridge) (p : Port) : (b.portFed p).ctl = { b.ctl with waiting := none } :=
  congrArg (fun c : Control => { c with waiting := none }) (freed_resetFeed (b.portRestarted p) (pairOf p)).ctl

theorem settings_portFed (b : Bridge) (p : Port) : (b.portFed p).settings = b.settings :=
  (freed_resetFeed (b.portRestarted p) (pairOf p)).settings

theorem repeats_portFed (b : Bridge) (p : Port) :
    (b.portFed p).repeats = b.repeats.filter fun r => !(b.resetPorts p).contains r.segment :=
  (freed_resetFeed (b.portRestarted p) (pairOf p)).coaxRepeats

theorem link_portFed (b : Bridge) (p : Port) : (b.portFed p).pair.link = b.pair.link :=
  (freed_resetFeed (b.portRestarted p) (pairOf p)).link

theorem staging_portFed (b : Bridge) (p : Port) : (b.portFed p).dir.staging = b.dir.staging :=
  (freed_resetFeed (b.portRestarted p) (pairOf p)).staging

theorem port_portFed (b : Bridge) (p q : Port) : (b.portFed p).port q = (b.portRestarted p).port q :=
  congrArg (fun v : Vector PortState 4 => v[q]) (freed_resetFeed (b.portRestarted p) (pairOf p)).ports

theorem mon_portFed (b : Bridge) (p q : Port) : (b.portFed p).mon q =
    if q ∈ b.resetPorts p then Monitor.restart b.ctl.now b.settings.port[q] {} else b.mon q := by
  rw [mon_eq, port_portFed, port_portRestarted]
  split <;> rfl

theorem feed_portFed (b : Bridge) (p : Port) (h : b.paired p = true ∨ b.settings.pairing[pairOf p] = true) :
    (b.portFed p).feed (pairOf p) = Feed.restart b.settings.pairing[pairOf p] feedCounters :=
  resetFeed_feed (b.portRestarted p) (pairOf p) h

theorem portFed_unpaired (b : Bridge) (p : Port) (hw : b.paired p = false) (hn : b.settings.pairing[pairOf p] = false) :
    b.portFed p = (b.portRestarted p).setCtl { b.ctl with waiting := none } := by
  unfold portFed
  rw [resetFeed_unpaired (b.portRestarted p) (pairOf p) hn hw]
  rfl

/-- The feed controller of a reset pair once it has taken the report of its restarted ends (R180). -/
def resetWait (b : Bridge) (p : Port) : Feed :=
  { paired := b.settings.pairing[pairOf p],
    startWait := b.settings.pairing[pairOf p] &&
      ((b.portSettings (lowerOf (pairOf p))).enable || (b.portSettings (upperOf (pairOf p))).enable) }

theorem follow_portFed (b : Bridge) (p : Port) (h : b.paired p = true ∨ b.settings.pairing[pairOf p] = true) :
    (b.portFed p).follow (pairOf p) = ([], (b.portFed p).modFeed (pairOf p) fun _ => b.resetWait p) := by
  have hl := mem_resetPorts b p (lowerOf (pairOf p)) h (pairOf_lowerOf _)
  have hu := mem_resetPorts b p (upperOf (pairOf p)) h (pairOf_upperOf _)
  have ml : (b.portFed p).mon (lowerOf (pairOf p)) = _ := (b.mon_portFed p _).trans (if_pos hl)
  have mu : (b.portFed p).mon (upperOf (pairOf p)) = _ := (b.mon_portFed p _).trans (if_pos hu)
  rw [follow_restarted _ _ (b.feed_portFed p h) (by rw [ml]; exact state_restart _ _ _) (by rw [mu]; exact state_restart _ _ _),
    ml, mu, testing_restart, testing_restart]
  rfl

theorem portSettled_paired (b : Bridge) (p : Port) (h : b.paired p = true ∨ b.settings.pairing[pairOf p] = true) :
    b.portSettled p = (b.portFed p).modFeed (pairOf p) fun _ => b.resetWait p := congrArg Prod.snd (b.follow_portFed p h)

theorem portSettled_unpaired (b : Bridge) (p : Port) (hw : b.paired p = false) (hn : b.settings.pairing[pairOf p] = false) :
    b.portSettled p = b.portFed p := by
  have h : ((b.portFed p).feed (pairOf p)).paired = false := by rw [b.portFed_unpaired p hw hn]; exact hw
  exact congrArg Prod.snd (follow_unpaired _ _ h)

/-- Taking the report changes feed controllers only. -/
theorem portSettled_eq (b : Bridge) (p : Port) : ∃ v, b.portSettled p = (b.portFed p).setFeeds v := by
  by_cases h : b.paired p = true ∨ b.settings.pairing[pairOf p] = true
  · exact ⟨_, b.portSettled_paired p h⟩
  · rw [not_or, Bool.not_eq_true, Bool.not_eq_true] at h
    exact ⟨(b.portFed p).feeds, b.portSettled_unpaired p h.1 h.2⟩

theorem steady_zeroFeedCounters (b : Bridge) (i : PairNo) (before : Bridge) : Steady b (b.zeroFeedCounters i before) := by
  unfold zeroFeedCounters
  split
  · exact .ofFeed b i _ rfl
  · exact .refl b

theorem steady_emptyLineGroup (b : Bridge) (q : Port) : Steady b (b.emptyLineGroup q) := steady_modGroup b _ _

theorem steady_resetPrinters (b : Bridge) (ps : List Port) : Steady b (b.resetPrinters ps) := .ofDelivery b _

theorem steady_portConcluded (b : Bridge) (p : Port) : Steady (b.portSettled p) (b.portConcluded p) := steady_concludeChange _ _ _

/-- The flushes and the reports of a port reset leave its restarted ports and feed controller as they are. -/
theorem steady_portReset (b : Bridge) (p : Port) : Steady (b.portSettled p) (b.portReset p) := by
  rw [portReset_eq]
  refine .trans ?_ (steady_resetPrinters _ _)
  refine .trans ?_ (.foldl _ steady_emptyLineGroup _ _)
  refine .trans ?_ (steady_zeroFeedCounters _ _ _)
  exact steady_portConcluded b p

theorem feed_emptyLineGroups (i : PairNo) : ∀ (l : List Port) (b : Bridge), (l.foldl emptyLineGroup b).feed i = b.feed i
  | [], _ => rfl
  | q :: l, b => feed_emptyLineGroups i l (b.emptyLineGroup q)

/-- A reset pair's feed controller, its counters at 0 (R180). -/
theorem feed_portReset (b : Bridge) (p : Port) (h : b.paired p = true ∨ b.settings.pairing[pairOf p] = true) :
    (b.portReset p).feed (pairOf p) = b.resetWait p := by
  have hs : ((b.portSettled p).feed (pairOf p)) = b.resetWait p := by rw [b.portSettled_paired p h]; exact feed_modFeed_self _ _ _
  have hb := (steady_portConcluded b p).feed (pairOf p)
  rw [hs] at hb
  have hp : ((b.portConcluded p).feed (pairOf p)).paired = true ∨ (b.feed (pairOf p)).paired = true :=
    h.symm.imp_left fun hn => (congrArg Feed.paired hb).trans hn
  rw [portReset_eq]
  change (List.foldl emptyLineGroup _ _).feed (pairOf p) = _
  rw [feed_emptyLineGroups]
  unfold zeroFeedCounters
  rw [if_pos hp]
  exact (feed_modFeed_self _ _ _).trans hb

end Bridge

end Sys2Proof.Machine

/-! # The port reset as a command. -/

namespace Sys2Proof.Machine
open Sys2Proof

/-! ## The port reset as a command (R190) -/

theorem exec_portReset (s : State) (h : s.takesTraffic) : exec .portReset s = .next (s.after [] s.bridge.takePortReset) :=
  s.command_run [] _ h

theorem Bridge.resetDue_iff (b : Bridge) (w : WaitingReset) : b.resetDue w = true ↔ w.reported = true ∨ w.deadline ≤ b.ctl.now := by
  simp [resetDue, now]

theorem exec_portReset_due (s : State) (w : WaitingReset) (p : Port) (h : s.takesTraffic) (hw : s.bridge.ctl.waiting = some w)
    (hd : w.reported = true ∨ w.deadline ≤ s.bridge.ctl.now) (hk : w.kind = .port p) :
    exec .portReset s = .next (s.after [] (s.bridge.portReset p)) := by
  rw [exec_portReset s h]
  refine s.after_congr [] ?_
  simp [Bridge.takePortReset, hw, hk, (s.bridge.resetDue_iff w).2 hd]

/-! ## Clause by clause -/

namespace Bridge

theorem mon_portSettled (b : Bridge) (p q : Port) : (b.portSettled p).mon q = (b.portFed p).mon q := by
  obtain ⟨v, hv⟩ := b.portSettled_eq p
  rw [hv]
  rfl

theorem port_portSettled (b : Bridge) (p q : Port) : (b.portSettled p).port q = (b.portRestarted p).port q := by
  obtain ⟨v, hv⟩ := b.portSettled_eq p
  rw [hv]
  exact b.port_portFed p q

end Bridge

/-- What a port reset leaves of the part, with its reset ports restarted (R96, R172, R180, R190). -/
theorem portReset_leaves (s : State) (w : WaitingReset) (p : Port) (hr : s.takesTraffic) (hw : s.bridge.ctl.waiting = some w)
    (hd : w.reported = true ∨ w.deadline ≤ s.bridge.ctl.now) (hk : w.kind = .port p) :
    ∃ t, exec .portReset s = .next t ∧ t.bridge.ctl.phase = .running ∧ t.bridge.ctl.cause = s.bridge.ctl.cause ∧
      t.bridge.ctl.waiting = none ∧ t.bridge.pair.link = s.bridge.pair.link ∧ t.bridge.settings = s.bridge.settings ∧
      t.bridge.dir.staging = s.bridge.dir.staging ∧
      t.bridge.repeats = (s.bridge.repeats.filter fun r => r.segment ∉ s.bridge.resetPorts p) ∧
      ((s.bridge.feed (pairOf p)).paired = true ∨ s.bridge.settings.pairing[pairOf p] = true →
        (t.bridge.feed (pairOf p)).paired = s.bridge.settings.pairing[pairOf p] ∧
        allZero (t.bridge.feed (pairOf p)).counters ∧ t.bridge.feed (pairOf p) = s.bridge.resetWait p) ∧
      (∀ q, q ∉ s.bridge.resetPorts p → t.bridge.mon q = s.bridge.mon q) ∧
      ∀ q ∈ s.bridge.resetPorts p,
        t.bridge.mon q = Monitor.restart s.bridge.ctl.now (s.bridge.portSettings q) {} ∧
        (t.bridge.port q).allowance = (s.bridge.portSettings q).cap ∧ (t.bridge.port q).remainder = 0 := by
  have k := Bridge.kept_settle (storeAfter s.store [] (s.bridge.portReset p)) (s.bridge.portReset p)
  have h := (s.bridge.steady_portReset p).trans (.ofKept k)
  have hmon (q : Port) := (h.mon q).trans (s.bridge.mon_portSettled p q)
  obtain ⟨v, hv⟩ := s.bridge.portSettled_eq p
  have hctl : (s.bridge.portSettled p).ctl = { s.bridge.ctl with waiting := none } := by rw [hv]; exact s.bridge.ctl_portFed p
  refine ⟨_, exec_portReset_due s w p hr hw hd hk, ?_, ?_, ?_, ?_, ?_, ?_, ?_, fun hp => ?_, fun q hq => ?_, fun q hq => ?_⟩
  · exact h.phase.trans (by rw [hctl]; exact hr)
  · exact h.cause.trans (by rw [hctl])
  · exact h.waiting (by rw [hctl])
  · exact h.link.trans (by rw [hv]; exact s.bridge.link_portFed p)
  · exact h.settings.trans (by rw [hv]; exact s.bridge.settings_portFed p)
  · exact h.staging.trans (by rw [hv]; exact s.bridge.staging_portFed p)
  · refine h.repeats.trans ?_
    rw [hv]
    refine (s.bridge.repeats_portFed p).trans ?_
    simp
  · have hf : (s.after [] (s.bridge.portReset p)).bridge.feed (pairOf p) = s.bridge.resetWait p :=
      (congrArg (fun v : Vector Feed 2 => v[pairOf p]) k.feeds).trans (s.bridge.feed_portReset p hp)
    rw [hf]
    exact ⟨rfl, allZero_feedCounters, rfl⟩
  · exact (hmon q).trans ((s.bridge.mon_portFed p q).trans (if_neg hq))
  · have hp : (s.bridge.portSettled p).port q = _ :=
      (s.bridge.port_portSettled p q).trans ((s.bridge.port_portRestarted p q).trans (if_pos hq))
    refine ⟨(hmon q).trans ((s.bridge.mon_portFed p q).trans (if_pos hq)), (h.allowance q).trans ?_, (h.remainder q).trans ?_⟩
    · rw [hp]; rfl
    · rw [hp]; rfl

/-- A pairing change, LEARNED entry by LEARNED entry (R62). -/
theorem changePairing_spelled (b : Bridge) (i : PairNo) (now : Bool) :
    b.changePairing i now =
      ((b.dir.entries.filter fun x => x.2.state = .learned && match x.2.home with
          | .seg q _ => q = if now then upperOf i else lowerOf i
          | _ => false).foldl (fun c x =>
        if x.2.pins = 0 then c.freeEntry x.1
        else (((List.finRange 4).filter fun t => c.segmentOf t = t).filterMap fun t => (numberOn x.2 t).map fun k => (t, k)).foldl
          (fun d y => d.lift y.1 y.2) (c.modEntry x.1 fun e => { e with state := .retiring, rights := {} })) b).modEntries
        fun es => es.map fun x => match x.2.home with
          | .seg q _ => if q = lowerOf i then (x.1, { x.2 with endField := if now then some .unknown else none }) else x
          | _ => x := by
  unfold Bridge.changePairing Bridge.learnedOn
  dsimp only
  have hl : (fun x : Nat × Entry => decide (x.2.state = .learned) && decide (x.2.home.port? = some (if now then upperOf i else lowerOf i))) =
      fun x => x.2.state = .learned && match x.2.home with
          | .seg q _ => q = if now then upperOf i else lowerOf i
          | _ => false := by
    funext x
    cases hh : x.2.home <;> simp [Home.port?]
  have hm : (fun x : Nat × Entry => if x.2.home.port? = some (lowerOf i) then
        (x.1, { x.2 with endField := if now then some EndField.unknown else none }) else x) =
      fun x => match x.2.home with
          | .seg q _ => if q = lowerOf i then (x.1, { x.2 with endField := if now then some .unknown else none }) else x
          | _ => x := by
    funext x
    cases hh : x.2.home <;> simp [Home.port?]
  rw [hl, hm]
  rfl

end Sys2Proof.Machine

/-! # Entries at a pairing change. -/

namespace Sys2Proof.Machine
open Sys2Proof

/-! ## Entries under a change of the entries that asks for neither pins nor withdrawals -/

/-- A change of entries that asks for neither pins nor withdrawals, and keeps both. -/
def PinsFree (f : Entry → Entry) : Prop := ∀ x k w, f { x with pins := k, withdrawn := w } = { f x with pins := k, withdrawn := w }

theorem PinsFree.withdrawn {f : Entry → Entry} (hf : PinsFree f) (x : Entry) : (f x).withdrawn = x.withdrawn := by
  show (f { x with pins := x.pins, withdrawn := x.withdrawn }).withdrawn = _
  rw [hf]

theorem PinsFree.pins {f : Entry → Entry} (hf : PinsFree f) (x : Entry) : (f x).pins = x.pins := by
  show (f { x with pins := x.pins, withdrawn := x.withdrawn }).pins = _
  rw [hf]

theorem EntryKept.map {e x : Entry} (h : EntryKept e x) {f : Entry → Entry} (hf : PinsFree f) : EntryKept (f e) (f x) where
  same := by rw [hf.pins, hf.withdrawn, ← hf, h.same]
  withdrawn := by rw [hf.withdrawn, hf.withdrawn]; exact h.withdrawn

theorem KeptAs.map {e : Entry} {o : Option Entry} (h : KeptAs e o) {f : Entry → Entry} (hf : PinsFree f) (hs : (f e).state = e.state) :
    KeptAs (f e) (o.map f) := by
  obtain ⟨hr, rfl⟩ | ⟨x, rfl, hx⟩ := h
  · exact .inl ⟨hs.trans hr, rfl⟩
  · exact .inr ⟨f x, rfl, hx.map hf⟩

/-- The numbers of a rising list are distinct. -/
theorem pairwise_of_rising {α : Type} : ∀ {l : List (Nat × α)}, rising l = true → l.Pairwise fun x y => x.1 ≠ y.1
  | [], _ => .nil
  | (n, v) :: l, h => by
    obtain ⟨ha, hr⟩ := (rising_cons n v l).1 h
    exact .cons (fun x hx => Nat.ne_of_lt (lt_of_mem ha hr hx)) (pairwise_of_rising hr)

theorem Home.port?_eq_some (h : Home) (p : Port) : h.port? = some p ↔ ∃ k, h = .seg p k := by
  cases h <;> simp [Home.port?]

namespace Bridge

/-! ## LEARNED entries taken out of use at a pairing change (R62) -/

/-- A LEARNED entry as it stays while it is pinned after its port has ceased to be a home. -/
def leftEntry (e : Entry) : Entry := { e with state := .retiring, rights := {} }

theorem pinsFree_leftEntry : PinsFree leftEntry := fun _ _ _ => rfl

theorem unlearn_free (b : Bridge) {n : DirNo} {e : Entry} (h : e.pins = 0) : b.unlearn n e = b.freeEntry n := if_pos h

theorem unlearn_retire (b : Bridge) {n : DirNo} {e : Entry} (h : e.pins ≠ 0) :
    b.unlearn n e = (b.retireQuiet n).liftAll (b.presences e) := if_neg h

theorem used_unlearn_ne (b : Bridge) {n m : DirNo} (e : Entry) (hm : m ≠ n) {x : Entry} (h : b.entry m = some x) :
    KeptAs x ((b.unlearn n e).entry m) := by
  by_cases hp : e.pins = 0
  · rw [b.unlearn_free hp]
    exact b.used_freeEntry hm h
  · rw [b.unlearn_retire hp]
    refine (entriesKept_liftAll _ _).used m x ?_
    exact (b.entry_modEntry n m _).trans ((if_neg (Ne.symm hm)).trans h)

theorem used_unlearn_self (b : Bridge) {n : DirNo} {e x : Entry} (hp : e.pins ≠ 0) (h : b.entry n = some x) :
    KeptAs (leftEntry x) ((b.unlearn n e).entry n) := by
  rw [b.unlearn_retire hp]
  refine (entriesKept_liftAll _ _).used n _ ?_
  exact (b.entry_modEntry n n _).trans ((if_pos rfl).trans (by rw [h]; rfl))

theorem entry_unlearn_free (b : Bridge) {n : DirNo} {e : Entry} (hp : e.pins = 0) : (b.unlearn n e).entry n = none := by
  rw [b.unlearn_free hp]
  exact b.entry_freeEntry_self n

/-- Several LEARNED entries taken out of use, one after another. -/
def unlearnAll (b : Bridge) (l : List (Nat × Entry)) : Bridge := l.foldl (fun b x => b.unlearn x.1 x.2) b

theorem freed_unlearnAll (b : Bridge) (l : List (Nat × Entry)) : Freed b (b.unlearnAll l) :=
  .foldl _ (fun b (x : Nat × Entry) => b.freed_unlearn x.1 x.2) l b

/-- Those not among them are kept. -/
theorem used_unlearnAll_ne : ∀ (l : List (Nat × Entry)) (b : Bridge) {m : DirNo} {e : Entry}, (∀ x ∈ l, m ≠ x.1) → b.entry m = some e →
    KeptAs e ((b.unlearnAll l).entry m)
  | [], b, m, e, _, h => by
    show KeptAs e (b.entry m)
    rw [h]
    exact .self e
  | (n, x) :: l, b, m, e, hm, h => by
    refine (b.used_unlearn_ne x (hm _ List.mem_cons_self) h).trans ((freed_unlearnAll _ l).free m) fun y hy => ?_
    exact used_unlearnAll_ne l (b.unlearn n x) (fun z hz => hm z (List.mem_cons_of_mem _ hz)) hy

/-- One among them is freed, or while it is pinned stays RETIRING and without rights. -/
theorem used_unlearnAll_mem {m : DirNo} {e : Entry} (l : List (Nat × Entry)) (hl : l.Pairwise fun x y => x.1 ≠ y.1) :
    ∀ b : Bridge, (m, e) ∈ l → KeptAs e (b.entry m) →
      (e.pins = 0 → (b.unlearnAll l).entry m = none) ∧ KeptAs (leftEntry e) ((b.unlearnAll l).entry m) := by
  induction hl with
  | nil => intro b hmem; cases hmem
  | @cons y l hn _ ih =>
    obtain ⟨n, x⟩ := y
    intro b hmem hk
    have hfree := (freed_unlearnAll (b.unlearn n x) l).free m
    obtain heq | hmem := List.mem_cons.1 hmem
    · obtain ⟨rfl, rfl⟩ := Prod.mk.inj heq
      refine ⟨fun hp => hfree (b.entry_unlearn_free hp), ?_⟩
      by_cases hp : e.pins = 0
      · exact .inl ⟨rfl, hfree (b.entry_unlearn_free hp)⟩
      · have hleft : KeptAs (leftEntry e) ((b.unlearn m e).entry m) := by
          cases ho : b.entry m with
          | none => exact .inl ⟨rfl, (b.freed_unlearn m e).free m ho⟩
          | some x =>
            rw [ho] at hk
            exact .trans (.inr ⟨leftEntry x, rfl, hk.kept.map pinsFree_leftEntry⟩) (fun h => nomatch h)
              fun z hz => Option.some.inj hz ▸ b.used_unlearn_self hp ho
        exact hleft.trans hfree fun y hy => used_unlearnAll_ne l (b.unlearn m e) (fun z hz => hn z hz) hy
    · have hne : m ≠ n := fun hmn => hn _ hmem hmn.symm
      exact ih (b.unlearn n x) hmem (hk.trans ((b.freed_unlearn n x).free m) fun y hy => b.used_unlearn_ne x hne hy)

/-! ## The entries of a port reset (R59, R62, R180) -/

theorem pinsFree_pairedEnd (i : PairNo) (now : Bool) : PinsFree (pairedEnd i now) := by
  intro x k w
  unfold pairedEnd
  dsimp only
  split <;> rfl

theorem state_pairedEnd (i : PairNo) (now : Bool) (e : Entry) : (pairedEnd i now e).state = e.state := by
  unfold pairedEnd
  split <;> rfl

theorem pairedEnd_pairedEnd (i : PairNo) (now : Bool) (e : Entry) : pairedEnd i now (pairedEnd i now e) = pairedEnd i now e := by
  unfold pairedEnd
  by_cases h : e.home.port? = some (lowerOf i) <;> simp [h]

theorem entry_clearEnds_pairedEnd (b : Bridge) (i : PairNo) (n : DirNo) :
    (b.clearEnds (lowerOf i)).entry n = (b.entry n).map (pairedEnd i true) := by
  rw [entry_clearEnds]
  congr 1
  funext e
  unfold pairedEnd
  cases h : e.home <;> simp [Home.port?]

theorem entry_restartFeed (b : Bridge) (i : PairNo) (now : Bool) (counters : Counters) (n : DirNo) :
    (b.restartFeed i now counters).entry n = if now then (b.entry n).map (pairedEnd i true) else b.entry n := by
  cases now with
  | false => rfl
  | true => exact entry_clearEnds_pairedEnd (b.modFeed i fun _ => Feed.restart true counters) i n

/-- Where the pairing changes, the entries that stay take their ends anew. -/
theorem entry_resetFeed_changed (b : Bridge) (i : PairNo) (h : b.settings.pairing[i] ≠ (b.feed i).paired) (n : DirNo) :
    (b.resetFeed i).entry n =
      ((b.unlearnAll (b.learnedOn (goneAt i b.settings.pairing[i]))).entry n).map (pairedEnd i b.settings.pairing[i]) := by
  rw [b.resetFeed_changed i h, entry_restartFeed, changePairing_eq]
  generalize b.settings.pairing[i] = now
  have hm : ((b.unlearnAll (b.learnedOn (goneAt i now))).modEntries (List.map fun x => (x.1, pairedEnd i now x.2))).entry n =
      ((b.unlearnAll (b.learnedOn (goneAt i now))).entry n).map (pairedEnd i now) :=
    look_map (fun _ => pairedEnd i now) n _
  change (if now = true then (((b.unlearnAll _).modEntries _).entry n).map _ else ((b.unlearnAll _).modEntries _).entry n) = _
  rw [hm]
  cases now with
  | false => rfl
  | true =>
    rw [if_pos rfl, Option.map_map]
    exact congrArg (fun f => Option.map f _) (funext (pairedEnd_pairedEnd i true))

/-- A LEARNED entry that the restart of a pair's feed controller takes out of use (R62). -/
def leaves (b : Bridge) (i : PairNo) (e : Entry) : Prop :=
  (b.feed i).paired ≠ b.settings.pairing[i] ∧ e.state = .learned ∧ ∃ k, e.home = .seg (goneAt i b.settings.pairing[i]) k

/-- An entry that stays in use, with its end as the restart of a pair's feed controller leaves it (R62, R180). -/
def newEnd (b : Bridge) (i : PairNo) (e : Entry) : Entry :=
  if b.settings.pairing[i] = true ∨ (b.feed i).paired = true then pairedEnd i b.settings.pairing[i] e else e

theorem pinsFree_newEnd (b : Bridge) (i : PairNo) : PinsFree (b.newEnd i) := by
  intro x k w
  unfold newEnd
  split
  · exact pinsFree_pairedEnd i _ x k w
  · rfl

theorem state_newEnd (b : Bridge) (i : PairNo) (e : Entry) : (b.newEnd i e).state = e.state := by
  unfold newEnd
  split
  · exact state_pairedEnd i _ e
  · rfl

theorem newEnd_changed (b : Bridge) (i : PairNo) (h : b.settings.pairing[i] ≠ (b.feed i).paired) :
    b.newEnd i = pairedEnd i b.settings.pairing[i] := by
  funext e
  refine if_pos ?_
  cases hn : b.settings.pairing[i] <;> cases hw : (b.feed i).paired <;> simp_all

theorem mem_learnedOn (b : Bridge) (p : Port) (x : Nat × Entry) :
    x ∈ b.learnedOn p ↔ x ∈ b.dir.entries ∧ x.2.state = .learned ∧ x.2.home.port? = some p := by
  simp [learnedOn]

theorem leaves_iff (b : Bridge) (i : PairNo) (e : Entry) (h : b.settings.pairing[i] ≠ (b.feed i).paired) :
    b.leaves i e ↔ e.state = .learned ∧ e.home.port? = some (goneAt i b.settings.pairing[i]) := by
  unfold leaves
  rw [Home.port?_eq_some]
  exact and_iff_right (Ne.symm h)

theorem used_resetFeed_stays (b : Bridge) (i : PairNo) (hr : rising b.dir.entries = true) {n : DirNo} {e : Entry}
    (he : b.entry n = some e) (hl : ¬ b.leaves i e) : KeptAs (b.newEnd i e) ((b.resetFeed i).entry n) := by
  by_cases h : b.settings.pairing[i] = (b.feed i).paired
  · cases hw : (b.feed i).paired with
    | false =>
      rw [b.resetFeed_unpaired i (h.trans hw) hw, he]
      have hs : b.newEnd i e = e := by simp [newEnd, h, hw]
      rw [hs]
      exact .self e
    | true =>
      rw [b.resetFeed_paired i (h.trans hw) hw, entry_restartFeed, he]
      have hs : b.newEnd i e = pairedEnd i true e := by simp [newEnd, h, hw]
      rw [hs]
      exact .self _
  · rw [b.entry_resetFeed_changed i h, b.newEnd_changed i h]
    rw [b.leaves_iff i e h] at hl
    refine (used_unlearnAll_ne _ b (fun x hx hn => ?_) he).map (pinsFree_pairedEnd _ _) (state_pairedEnd _ _ e)
    obtain ⟨hmem, hx⟩ := (b.mem_learnedOn _ x).1 hx
    have hx2 : b.entry n = some x.2 := look_of_mem hr (hn ▸ hmem)
    rw [he] at hx2
    exact hl (Option.some.inj hx2 ▸ hx)

theorem used_resetFeed_leaves (b : Bridge) (i : PairNo) (hr : rising b.dir.entries = true) {n : DirNo} {e : Entry}
    (he : b.entry n = some e) (hl : b.leaves i e) :
    (e.pins = 0 → (b.resetFeed i).entry n = none) ∧ KeptAs (b.newEnd i (leftEntry e)) ((b.resetFeed i).entry n) := by
  have h : b.settings.pairing[i] ≠ (b.feed i).paired := Ne.symm hl.1
  rw [b.entry_resetFeed_changed i h, b.newEnd_changed i h]
  have hmem : (n, e) ∈ b.learnedOn (goneAt i b.settings.pairing[i]) :=
    (b.mem_learnedOn _ _).2 ⟨mem_of_look he, (b.leaves_iff i e h).1 hl⟩
  have hp : (b.learnedOn (goneAt i b.settings.pairing[i])).Pairwise fun x y => x.1 ≠ y.1 := (pairwise_of_rising hr).filter _
  obtain ⟨hfree, hkept⟩ := used_unlearnAll_mem _ hp b hmem (by rw [he]; exact .self e)
  exact ⟨fun hz => by rw [hfree hz]; rfl, hkept.map (pinsFree_pairedEnd _ _) (state_pairedEnd _ _ _)⟩

/-- What a pair's restart changes of an entry is its end alone. -/
theorem newEnd_eq (b : Bridge) (i : PairNo) (e : Entry) : b.newEnd i e = { e with endField := (b.newEnd i e).endField } := by
  unfold newEnd pairedEnd
  split
  · split <;> rfl
  · rfl

theorem endField_newEnd_lower (b : Bridge) (i : PairNo) (e : Entry) {k : Nat} (h : e.home = .seg (lowerOf i) k) :
    (b.newEnd i e).endField =
      if b.settings.pairing[i] then some .unknown else if (b.feed i).paired then none else e.endField := by
  have hp : e.home.port? = some (lowerOf i) := by rw [h]; rfl
  unfold newEnd pairedEnd
  rw [if_pos hp]
  cases hn : b.settings.pairing[i] <;> cases hw : (b.feed i).paired <;> simp

theorem endField_newEnd_other (b : Bridge) (i : PairNo) (e : Entry) (h : ∀ k, e.home ≠ .seg (lowerOf i) k) :
    (b.newEnd i e).endField = e.endField := by
  have hp : e.home.port? ≠ some (lowerOf i) := fun hp => by
    obtain ⟨k, hk⟩ := (Home.port?_eq_some _ _).1 hp
    exact h k hk
  unfold newEnd pairedEnd
  rw [if_neg hp]
  exact congrArg Entry.endField (ite_self e)

end Bridge

end Sys2Proof.Machine

/-! # The records after a port reset. -/

namespace Sys2Proof.Machine
open Sys2Proof

namespace Bridge

/-! ## The directory, the LINE groups and the printers after a port reset (R154, R172, R190) -/

theorem dir_zeroFeedCounters (b : Bridge) (i : PairNo) (before : Bridge) : (b.zeroFeedCounters i before).dir = b.dir := by
  unfold zeroFeedCounters
  split <;> rfl

theorem dir_emptyLineGroups : ∀ (l : List Port) (b : Bridge), (l.foldl emptyLineGroup b).dir = b.dir
  | [], _ => rfl
  | q :: l, b => dir_emptyLineGroups l (b.emptyLineGroup q)

theorem dir_portReset (b : Bridge) (p : Port) : (b.portReset p).dir = (b.portConcluded p).dir := by
  rw [portReset_eq]
  exact (dir_emptyLineGroups _ _).trans (dir_zeroFeedCounters _ _ _)

/-- Once the reach has been recomputed, a port reset pins, unpins and lifts only. -/
theorem entriesKept_portReset (b : Bridge) (p : Port) : EntriesKept (b.portSettled p).refreshReach (b.portReset p) :=
  (entriesKept_concludeChange _ _ _).trans (.ofDir (b.dir_portReset p))

theorem entry_portSettled (b : Bridge) (p : Port) (n : DirNo) :
    (b.portSettled p).entry n = ((b.portRestarted p).resetFeed (pairOf p)).entry n := by
  obtain ⟨v, hv⟩ := b.portSettled_eq p
  rw [hv]
  rfl

/-- An entry with its reach recomputed. -/
def reached (b : Bridge) (e : Entry) : Entry := { e with reachable := b.reachOf e }

/-- An entry kept up to the reports of a port reset is kept by it with its reach recomputed. -/
theorem used_portReset (b : Bridge) (p : Port) {n : DirNo} {e : Entry} (h : KeptAs e ((b.portSettled p).entry n)) :
    KeptAs ((b.portSettled p).reached e) ((b.portReset p).entry n) := by
  have hm : KeptAs ((b.portSettled p).reached e) ((b.portSettled p).refreshReach.entry n) := by
    rw [entry_refreshReach]
    exact h.map (fun _ _ _ => rfl) rfl
  exact hm.trans ((b.entriesKept_portReset p).free n) ((b.entriesKept_portReset p).used n)

theorem free_portReset (b : Bridge) (p : Port) (n : DirNo) (h : (b.portSettled p).entry n = none) : (b.portReset p).entry n = none :=
  (b.entriesKept_portReset p).free n (by rw [entry_refreshReach, h]; rfl)

/-- The reach that a port reset leaves an entry is its reach afterwards (R59). -/
theorem reachable_portReset (b : Bridge) (p : Port) {e x : Entry} (h : EntryKept ((b.portSettled p).reached e) x) :
    x.reachable = (b.portReset p).reachOf x := by
  rw [h.reachable, (b.steady_portReset p).reachOf, reachOf_entryKept _ h]
  rfl

/-- What a port reset leaves of an entry that it keeps in place (R59, R62, R180). -/
structure ResetEntry (b c : Bridge) (i : PairNo) (e x : Entry) : Prop where
  state : x.state = e.state
  rights : x.rights = e.rights
  kind : x.kind = e.kind
  home : x.home = e.home
  visible : x.visible = e.visible
  shown : x.shown = e.shown
  age : x.age = e.age
  bridgeBit : x.bridgeBit = e.bridgeBit
  reachable : x.reachable = c.reachOf x
  withdrawn : ∀ q : Port, x.withdrawn[q] = true → e.withdrawn[q] = true
  lower : (∃ k, e.home = .seg (lowerOf i) k) → x.endField =
    if b.settings.pairing[i] then some .unknown else if (b.feed i).paired then none else e.endField
  other : (∀ k, e.home ≠ .seg (lowerOf i) k) → x.endField = e.endField

theorem ResetEntry.fits {b c : Bridge} {i : PairNo} {e x : Entry} (h : ResetEntry b c i e x) :
    x.kind = e.kind ∧ x.home = e.home ∧ x.visible = e.visible ∧ x.shown = e.shown ∧ x.age = e.age ∧ x.bridgeBit = e.bridgeBit ∧
    x.reachable = c.reachOf x ∧ (∀ q : Port, x.withdrawn[q] = true → e.withdrawn[q] = true) ∧
    ((∃ k, e.home = .seg (lowerOf i) k) → x.endField =
      if b.settings.pairing[i] then some .unknown else if (b.feed i).paired then none else e.endField) ∧
    ((∀ k, e.home ≠ .seg (lowerOf i) k) → x.endField = e.endField) :=
  ⟨h.kind, h.home, h.visible, h.shown, h.age, h.bridgeBit, h.reachable, h.withdrawn, h.lower, h.other⟩

theorem resetEntry_of_kept (b : Bridge) (p : Port) {e x : Entry}
    (h : EntryKept ((b.portSettled p).reached (b.newEnd (pairOf p) e)) x) :
    ResetEntry b (b.portReset p) (pairOf p) e x := by
  have hr := b.reachable_portReset p h
  have hw := (b.pinsFree_newEnd (pairOf p)).withdrawn e
  have he := h.endField
  rw [newEnd_eq] at h
  exact
    { state := h.state, rights := h.rights, kind := h.kind, home := h.home, visible := h.visible, shown := h.shown, age := h.age,
      bridgeBit := h.bridgeBit, reachable := hr, withdrawn := h.withdrawn,
      lower := fun ⟨_, hk⟩ => he.trans (b.endField_newEnd_lower _ e hk)
      other := fun hk => he.trans (b.endField_newEnd_other _ e hk) }

section
variable (b : Bridge) (p : Port) (hr : rising b.dir.entries = true) {n : DirNo} {e : Entry} (he : b.entry n = some e)
include hr he

/-- An entry that the pairing leaves alone (R57, R62). -/
theorem portReset_stays (hl : ¬ b.leaves (pairOf p) e) :
    KeptAs ((b.portSettled p).reached (b.newEnd (pairOf p) e)) ((b.portReset p).entry n) := by
  refine b.used_portReset p ?_
  rw [entry_portSettled]
  exact (b.portRestarted p).used_resetFeed_stays (pairOf p) hr he hl

/-- An entry that the pairing takes out of use (R57, R62). -/
theorem portReset_leaves_entry (hl : b.leaves (pairOf p) e) : (e.pins = 0 → (b.portReset p).entry n = none) ∧
    KeptAs ((b.portSettled p).reached (b.newEnd (pairOf p) (leftEntry e))) ((b.portReset p).entry n) := by
  obtain ⟨hfree, hkept⟩ := (b.portRestarted p).used_resetFeed_leaves (pairOf p) hr he hl
  rw [← entry_portSettled] at hfree hkept
  exact ⟨fun hz => b.free_portReset p n (hfree hz), b.used_portReset p hkept⟩

end

/-! ### LINE groups -/

theorem allZero_cleared (l : Counters) : allZero (cleared l) := by
  simp only [allZero, cleared, List.mem_map]
  rintro x ⟨y, _, rfl⟩
  rfl

/-- An error group at its power-on value but for the counters it has (R185). -/
def GroupEmpty (g : ErrorGroup) : Prop := allZero g.counters ∧ g.first = none ∧ g.multiple = false

theorem groupEmpty_emptyLineGroup (b : Bridge) (p q : Port) (h : p = q ∨ GroupEmpty (b.group (lineGroup q))) :
    GroupEmpty ((b.emptyLineGroup p).group (lineGroup q)) := by
  by_cases e : p = q
  · subst e
    unfold emptyLineGroup
    rw [group_modGroup_self]
    exact ⟨allZero_cleared _, rfl, rfl⟩
  · have hg : lineGroup p ≠ lineGroup q := fun hg => e (Fin.ext (Fin.mk.inj hg))
    unfold emptyLineGroup
    rw [group_modGroup_ne _ hg]
    exact h.resolve_left e

theorem groupEmpty_emptyLineGroups (q : Port) : ∀ (l : List Port) (b : Bridge), q ∈ l ∨ GroupEmpty (b.group (lineGroup q)) →
    GroupEmpty ((l.foldl emptyLineGroup b).group (lineGroup q))
  | [], _, h => h.resolve_left List.not_mem_nil
  | p :: l, b, h => by
    refine groupEmpty_emptyLineGroups q l (b.emptyLineGroup p) ?_
    by_cases hq : q ∈ l
    · exact .inl hq
    · refine .inr (b.groupEmpty_emptyLineGroup p q (h.imp_left fun hm => ?_))
      exact (List.mem_cons.1 hm).elim Eq.symm fun hm => absurd hm hq

theorem group_portReset (b : Bridge) (p q : Port) (h : q ∈ b.resetPorts p) : GroupEmpty ((b.portReset p).group (lineGroup q)) := by
  rw [portReset_eq]
  exact groupEmpty_emptyLineGroups q _ _ (.inl h)

/-! ### Printers -/

theorem printer_resetPrinters (b : Bridge) (ps : List Port) {n : DirNo} {r : Printer} {e : Entry} {q : Port} {k : Nat}
    (hr : (b.resetPrinters ps).printer n = some r) (he : b.entry n = some e) (hk : e.home = .seg q k) (hq : q ∈ ps) :
    r.status = .unknown ∧ r.question = .none ∧ r.pollFrom = none := by
  have hc : ((b.entry n).bind fun e => e.home.port?).any ps.contains = true := by simp [he, hk, Home.port?, hq]
  have h := look_map_key (fun x : Nat × Printer =>
      if ((b.entry x.1).bind fun e => e.home.port?).any ps.contains then
        (x.1, { x.2 with status := .unknown, question := .none, pollFrom := none })
      else x) (fun x => by dsimp only; split <;> rfl) n b.delivery.printers
  have hr' := h.symm.trans hr
  cases hv : look n b.delivery.printers with
  | none => rw [hv] at hr'; cases hr'
  | some v =>
    rw [hv, Option.map_some] at hr'
    simp only [hc, if_true] at hr'
    cases hr'
    exact ⟨rfl, rfl, rfl⟩

theorem printer_portReset (b : Bridge) (p : Port) {n : DirNo} {r : Printer} {e : Entry} {q : Port} {k : Nat}
    (hr : (b.portReset p).printer n = some r) (he : (b.portReset p).entry n = some e) (hk : e.home = .seg q k)
    (hq : q ∈ b.resetPorts p) : r.status = .unknown ∧ r.question = .none ∧ r.pollFrom = none := by
  rw [portReset_eq] at hr he
  exact printer_resetPrinters _ _ hr he hk hq

end Bridge

/-- The groups, the printers and the entries after a port reset (R59, R62, R154, R172, R180). -/
theorem portReset_records (s : State) (p : Port) (hs : s.recordsSound) :
    let b := s.bridge
    let c := b.portReset p
    (∀ q ∈ b.resetPorts p, Bridge.GroupEmpty (c.group (lineGroup q))) ∧
    (∀ n r e q k, c.printer n = some r → c.entry n = some e → e.home = .seg q k → q ∈ b.resetPorts p →
      r.status = .unknown ∧ r.question = .none ∧ r.pollFrom = none) ∧
    (∀ n, b.entry n = none → c.entry n = none) ∧
    (∀ n e, b.entry n = some e →
      (¬ b.leaves (pairOf p) e → e.state ≠ .retiring → ∃ x, c.entry n = some x ∧ Bridge.ResetEntry b c (pairOf p) e x) ∧
      (b.leaves (pairOf p) e → e.pins = 0 → c.entry n = none) ∧
      (b.leaves (pairOf p) e → ∀ x, c.entry n = some x → Bridge.ResetEntry b c (pairOf p) (Bridge.leftEntry e) x) ∧
      (e.state = .retiring → ∀ x, c.entry n = some x → Bridge.ResetEntry b c (pairOf p) e x)) := by
  dsimp only
  refine ⟨fun q hq => s.bridge.group_portReset p q hq, fun n r e q k hr he hk hq => s.bridge.printer_portReset p hr he hk hq,
    fun n hn => ?_, fun n e he => ⟨fun hl hret => ?_, fun hl hz => ?_, fun hl x hx => ?_, fun hret x hx => ?_⟩⟩
  · refine s.bridge.free_portReset p n ?_
    rw [Bridge.entry_portSettled]
    exact (Bridge.freed_resetFeed _ _).free n hn
  · have hne : ((s.bridge.portSettled p).reached (s.bridge.newEnd (pairOf p) e)).state ≠ .retiring := by
      rw [show ((s.bridge.portSettled p).reached (s.bridge.newEnd (pairOf p) e)).state = _ from s.bridge.state_newEnd _ e]
      exact hret
    obtain ⟨x, hx, hk⟩ := (s.bridge.portReset_stays p hs.entries he hl).used hne
    exact ⟨x, hx, s.bridge.resetEntry_of_kept p hk⟩
  · exact (s.bridge.portReset_leaves_entry p hs.entries he hl).1 hz
  · have hk := (s.bridge.portReset_leaves_entry p hs.entries he hl).2
    rw [hx] at hk
    exact s.bridge.resetEntry_of_kept p hk.kept
  · have hl : ¬ s.bridge.leaves (pairOf p) e := fun hl => nomatch hret.symm.trans hl.2.1
    have hk := s.bridge.portReset_stays p hs.entries he hl
    rw [hx] at hk
    exact s.bridge.resetEntry_of_kept p hk.kept

end Sys2Proof.Machine

/-! # Notices placed. -/

namespace Sys2Proof.Machine
open Sys2Proof

/-! ## What placing notices changes (R133, R187) -/

namespace Bridge

/-- The bridge with its ports, the pair queue and the serial number replaced. -/
def placed (b : Bridge) (v : Vector PortState 4) (q : List PairFrame) (n : Nat) : Bridge :=
  ((b.setPorts v).modPair fun x => { x with queue := q }).setSerial n

end Bridge

/-- Frames of certain origins have joined the tails of class 1 and of the pair queue, and nothing else has changed but the serial
number. -/
structure Placed (P : Origin → Prop) (b c : Bridge) : Prop where
  rest : ∃ v q n, c = b.placed v q n
  port : ∀ p, ∃ l, c.port p = { b.port p with class1 := (b.port p).class1 ++ l } ∧ ∀ f ∈ l, P f.origin
  queue : ∃ l, c.pair.queue = b.pair.queue ++ l ∧ ∀ f ∈ l, P f.origin

namespace Placed

variable {P : Origin → Prop}

theorem ofSerial (b : Bridge) (n : Nat) : Placed P b (b.setSerial n) where
  rest := ⟨b.ports, b.pair.queue, n, rfl⟩
  port p := ⟨[], by rw [List.append_nil]; rfl, fun _ h => nomatch h⟩
  queue := ⟨[], (List.append_nil _).symm, fun _ h => nomatch h⟩

theorem refl (b : Bridge) : Placed P b b := ofSerial b b.serial

theorem trans {b c d : Bridge} (h : Placed P b c) (k : Placed P c d) : Placed P b d where
  rest := by
    obtain ⟨v, q, n, rfl⟩ := h.rest
    obtain ⟨v', q', n', rfl⟩ := k.rest
    exact ⟨v', q', n', rfl⟩
  port p := by
    obtain ⟨l, hl, hP⟩ := h.port p
    obtain ⟨m, hm, hQ⟩ := k.port p
    refine ⟨l ++ m, by rw [hm, hl, List.append_assoc], fun f hf => ?_⟩
    exact (List.mem_append.1 hf).elim (hP f) (hQ f)
  queue := by
    obtain ⟨l, hl, hP⟩ := h.queue
    obtain ⟨m, hm, hQ⟩ := k.queue
    refine ⟨l ++ m, by rw [hm, hl, List.append_assoc], fun f hf => ?_⟩
    exact (List.mem_append.1 hf).elim (hP f) (hQ f)

theorem foldl {α : Type} (f : Bridge → α → Bridge) (hf : ∀ b x, Placed P b (f b x)) :
    ∀ (l : List α) (b : Bridge), Placed P b (l.foldl f b)
  | [], b => refl b
  | x :: l, b => (hf b x).trans (foldl f hf l (f b x))

theorem mono {Q : Origin → Prop} (hPQ : ∀ o, P o → Q o) {b c : Bridge} (h : Placed P b c) : Placed Q b c where
  rest := h.rest
  port p := by
    obtain ⟨l, hl, hP⟩ := h.port p
    exact ⟨l, hl, fun f hf => hPQ _ (hP f hf)⟩
  queue := by
    obtain ⟨l, hl, hP⟩ := h.queue
    exact ⟨l, hl, fun f hf => hPQ _ (hP f hf)⟩

theorem setReporting {b c : Bridge} (h : Placed P b c) (r : Reporting) : Placed P (b.setReporting r) (c.setReporting r) where
  rest := by obtain ⟨v, q, n, rfl⟩ := h.rest; exact ⟨v, q, n, rfl⟩
  port := h.port
  queue := h.queue

theorem reporting {b c : Bridge} (h : Placed P b c) : c.reporting = b.reporting := by obtain ⟨v, q, n, rfl⟩ := h.rest; rfl

end Placed

/-- What notices of certain origins change: their frames have been placed, and the reporting unit has counted the lost ones. -/
def Noticed (P : Origin → Prop) (b c : Bridge) : Prop := Placed P b (c.setReporting b.reporting)

namespace Noticed

variable {P : Origin → Prop}

theorem ofPlaced {b c : Bridge} (h : Placed P b c) (r : Reporting) : Noticed P b (c.setReporting r) := by
  have e : (c.setReporting r).setReporting b.reporting = c := by rw [← h.reporting]; rfl
  unfold Noticed
  rw [e]
  exact h

theorem refl (b : Bridge) : Noticed P b b := Placed.refl b

theorem trans {b c d : Bridge} (h : Noticed P b c) (k : Noticed P c d) : Noticed P b d :=
  Placed.trans h (Placed.setReporting k b.reporting)

theorem foldl {α : Type} (f : Bridge → α → Bridge) (hf : ∀ b x, Noticed P b (f b x)) :
    ∀ (l : List α) (b : Bridge), Noticed P b (l.foldl f b)
  | [], b => refl b
  | x :: l, b => (hf b x).trans (foldl f hf l (f b x))

theorem mono {Q : Origin → Prop} (hPQ : ∀ o, P o → Q o) {b c : Bridge} (h : Noticed P b c) : Noticed Q b c := Placed.mono hPQ h

variable {b c : Bridge}

theorem rest (h : Noticed P b c) : ∃ v q n r, c = (b.placed v q n).setReporting r := by
  obtain ⟨v, q, n, e⟩ := Placed.rest h
  refine ⟨v, q, n, c.reporting, ?_⟩
  rw [← e]
  rfl

theorem ctl (h : Noticed P b c) : c.ctl = b.ctl := by obtain ⟨v, q, n, r, rfl⟩ := h.rest; rfl
theorem settings (h : Noticed P b c) : c.settings = b.settings := by obtain ⟨v, q, n, r, rfl⟩ := h.rest; rfl
theorem feeds (h : Noticed P b c) : c.feeds = b.feeds := by obtain ⟨v, q, n, r, rfl⟩ := h.rest; rfl
theorem repeats (h : Noticed P b c) : c.repeats = b.repeats := by obtain ⟨v, q, n, r, rfl⟩ := h.rest; rfl
theorem dir (h : Noticed P b c) : c.dir = b.dir := by obtain ⟨v, q, n, r, rfl⟩ := h.rest; rfl
theorem exchanges (h : Noticed P b c) : c.exchanges = b.exchanges := by obtain ⟨v, q, n, r, rfl⟩ := h.rest; rfl
theorem spool (h : Noticed P b c) : c.spool = b.spool := by obtain ⟨v, q, n, r, rfl⟩ := h.rest; rfl
theorem delivery (h : Noticed P b c) : c.delivery = b.delivery := by obtain ⟨v, q, n, r, rfl⟩ := h.rest; rfl
theorem agent (h : Noticed P b c) : c.agent = b.agent := by obtain ⟨v, q, n, r, rfl⟩ := h.rest; rfl
theorem pair (h : Noticed P b c) : c.pair = { b.pair with queue := c.pair.queue } := by obtain ⟨v, q, n, r, rfl⟩ := h.rest; rfl

theorem port (h : Noticed P b c) (p : Port) : ∃ l, c.port p = { b.port p with class1 := (b.port p).class1 ++ l } ∧
    ∀ f ∈ l, P f.origin := Placed.port h p

theorem queue (h : Noticed P b c) : ∃ l, c.pair.queue = b.pair.queue ++ l ∧ ∀ f ∈ l, P f.origin :=
  Placed.queue (c := c.setReporting b.reporting) h

end Noticed

namespace Bridge

theorem placed_offer1 (b : Bridge) (p : Port) (f : CoaxFrame) : Placed (· = f.origin) b (b.offer1 p f) := by
  unfold offer1
  split
  · refine ⟨⟨b.ports.set p { b.port p with class1 := (b.port p).class1 ++ [f] }, b.pair.queue, b.serial, rfl⟩, fun q => ?_,
      ⟨[], (List.append_nil _).symm, fun _ h => nomatch h⟩⟩
    rw [port_modPort]
    split
    · rename_i e
      subst e
      exact ⟨[f], rfl, fun g hg => by rw [List.mem_singleton.1 hg]⟩
    · exact ⟨[], by rw [List.append_nil], fun _ h => nomatch h⟩
  · exact .refl b

theorem placed_sendEach (b : Bridge) (ps : List Port) (x : Block) (o : Origin) (named : Option Port) :
    Placed (· = o) b (b.sendEach ps x o named).2 :=
  (Placed.ofSerial b (b.serial + 1)).trans
    (.foldl (fun c p => c.offer1 p { block := x, origin := o, serial := b.serial, named }) (fun c p => c.placed_offer1 p _) ps _)

theorem placed_sendPair (b : Bridge) (x : Carrier) (o : Origin) : Placed (· = o) b (b.sendPair x o).2 := by
  refine (Placed.ofSerial b (b.serial + 1)).trans ?_
  unfold sendPair offerPair
  split
  · exact .refl _
  · split
    · refine ⟨⟨b.ports, b.pair.queue ++ [{ frame := x, origin := o, serial := b.serial }], b.serial + 1, rfl⟩,
        fun p => ⟨[], by rw [List.append_nil]; rfl, fun _ h => nomatch h⟩, ⟨_, rfl, fun g hg => ?_⟩⟩
      rw [List.mem_singleton.1 hg]
    · exact .refl _

theorem placed_placeNotice (b : Bridge) (o : Origin) (n : DirNo) (e : Entry) (src : Port → Option Nat) (k : Nat) (l : List Byte) :
    Placed (· = o) b (b.placeNotice o n e src k l).2 := by
  unfold placeNotice
  split
  · split
    · exact b.placed_sendEach _ _ _ _
    · exact .refl b
  · exact b.placed_sendPair _ _
  · exact .refl b

theorem noticed_noticeTo (b : Bridge) (d : Option DirNo) (ev : NoticeEvent) : Noticed (· = .notice) b (b.noticeTo d ev) := by
  unfold noticeTo
  split
  · exact .refl b
  · split
    · rename_i n _ e _
      split
      · have h := b.placed_placeNotice .notice n e b.bridgeNumberOn 1 (b.noticeRecord ev)
        split <;> rename_i c hc <;> rw [hc] at h
        · exact .ofPlaced h _
        · exact .ofPlaced h c.reporting
      · exact .ofPlaced (.refl b) _
    · exact .ofPlaced (.refl b) _

theorem noticed_notify (b : Bridge) (ev : NoticeEvent) : Noticed (· = .notice) b (b.notify ev) :=
  (b.noticed_noticeTo _ ev).trans (noticed_noticeTo _ _ ev)

theorem noticed_feedNotice (b : Bridge) (i : PairNo) (s : FeedState) : Noticed (· = .notice) b (b.feedNotice i s) := by
  unfold feedNotice
  split
  · exact b.noticed_notify _
  · exact .refl b

/-- A notice touches no error group: the one that is dropped is counted on its own (R187). -/
theorem group_noticeTo (b : Bridge) (d : Option DirNo) (ev : NoticeEvent) (g : Fin 9) : (b.noticeTo d ev).group g = b.group g := by
  unfold noticeTo
  split
  · rfl
  · split
    · rename_i n _ e _
      split
      · have h := (b.placed_placeNotice .notice n e b.bridgeNumberOn 1 (b.noticeRecord ev)).reporting
        have hg : (b.placeNotice .notice n e b.bridgeNumberOn 1 (b.noticeRecord ev)).2.group g = b.group g :=
          congrArg (fun r : Reporting => r.groups[g]) h
        split <;> rename_i c hc <;> rw [hc] at hg <;> exact hg
      · rfl
    · rfl

theorem group_feedNotice (b : Bridge) (i : PairNo) (s : FeedState) (g : Fin 9) : (b.feedNotice i s).group g = b.group g := by
  unfold feedNotice
  split
  · exact (group_noticeTo _ _ _ g).trans (group_noticeTo _ _ _ g)
  · rfl

theorem noticed_jobNotice (b : Bridge) (j : Job) (o : JobOutcome) (r : JobReason) : Noticed (· = .jobNotice) b (b.jobNotice j o r) := by
  unfold jobNotice
  dsimp only
  split
  · rename_i e _
    have h := b.placed_placeNotice .jobNotice j.owner e
      (fun s => (b.numberOf (lpEntry j.lp) s).orElse fun _ => b.bridgeNumberOn s) (lpEntry j.lp)
      (b.noticeRecord (.job j.number (lpEntry j.lp) o r j.total j.copiesDone))
    split
    · split <;> rename_i c hc <;> rw [hc] at h
      · exact .ofPlaced h _
      · exact .ofPlaced h c.reporting
    · exact .ofPlaced (.refl b) _
  · exact .ofPlaced (.refl b) _

end Bridge

end Sys2Proof.Machine

/-! # Exchanges closed, jobs ended, pins counted anew. -/

namespace Sys2Proof.Machine
open Sys2Proof

/-! ## Every exchange closed (R117) -/

theorem ne_of_mem_drop {α : Type} {k : Nat} {x : Nat × α} : ∀ {l : List (Nat × α)}, x ∈ drop k l → x.1 ≠ k
  | (n, w) :: l, h => by
    rw [drop] at h
    split at h
    · exact ne_of_mem_drop h
    · rename_i hn
      obtain rfl | h := List.mem_cons.1 h
      · exact hn
      · exact ne_of_mem_drop h

/-- What several drops leave is listed under other numbers. -/
theorem mem_foldl_drop {α : Type} {x : Nat × α} : ∀ (ks : List Nat) {l : List (Nat × α)}, x ∈ ks.foldl (fun l k => drop k l) l →
    x ∈ l ∧ x.1 ∉ ks
  | [], _, h => ⟨h, List.not_mem_nil⟩
  | k :: ks, l, h => by
    obtain ⟨hx, hk⟩ := mem_foldl_drop ks h
    exact ⟨mem_drop hx, fun hm => (List.mem_cons.1 hm).elim (ne_of_mem_drop hx) hk⟩

namespace Bridge

theorem freed_closeExchange (b : Bridge) (t : Nat) : Freed (b.setExchanges (drop t b.exchanges)) (b.closeExchange t) := by
  unfold closeExchange
  split
  · exact (freed_unpin _ _).trans (freed_unpin _ _)
  · rename_i h
    rw [drop_of_look_none h]
    exact .refl b

theorem freed_closeExchanges : ∀ (l : List Nat) (b : Bridge),
    Freed (b.setExchanges (l.foldl (fun x t => drop t x) b.exchanges)) (l.foldl closeExchange b)
  | [], b => .refl b
  | t :: l, b => by
    have h := b.freed_closeExchange t
    have k := freed_closeExchanges l (b.closeExchange t)
    rw [h.exchanges] at k
    exact (h.setExchanges _).trans k

/-- With tags 0 to 15, closing every exchange leaves none. -/
theorem freed_closeAll (b : Bridge) (h : ∀ x ∈ b.exchanges, x.1 ≤ 15) : Freed (b.setExchanges []) b.closeAll := by
  have k := freed_closeExchanges (List.range 16) b
  have e : (List.range 16).foldl (fun x t => drop t x) b.exchanges = [] := List.eq_nil_iff_forall_not_mem.2 fun x hx => by
    obtain ⟨hm, hn⟩ := mem_foldl_drop _ hx
    exact hn (List.mem_range.2 (Nat.lt_succ_of_le (h x hm)))
  rw [e] at k
  exact k

theorem entriesKept_closeAll (b : Bridge) : EntriesKept b b.closeAll := .foldl closeExchange entriesKept_closeExchange _ b

/-! ## Jobs at a soft reset (R136) -/

/-- What a soft reset does with one job. -/
def resetJob (b : Bridge) (j : Job) : Bridge :=
  if (resetOutcome j).isSome then b.retireJob j else if j.state = JobState.delivering then b.requeue j else b

theorem resetJobs_eq (b : Bridge) : b.resetJobs = b.spool.jobs.foldl resetJob b := rfl

/-- It touches the spool's records alone. -/
theorem resetJob_rest (b : Bridge) (j : Job) : b.resetJob j = b.setSpool (b.resetJob j).spool := by
  unfold resetJob
  split
  · rfl
  · split <;> rfl

theorem foldl_resetJob_rest : ∀ (l : List Job) (b : Bridge), l.foldl resetJob b = b.setSpool (l.foldl resetJob b).spool
  | [], _ => rfl
  | j :: l, b => by
    have h := foldl_resetJob_rest l (b.resetJob j)
    rw [b.resetJob_rest j] at h
    rw [List.foldl_cons, b.resetJob_rest j]
    exact h

theorem resetJobs_rest (b : Bridge) : b.resetJobs = b.setSpool b.resetJobs.spool := foldl_resetJob_rest _ b

theorem lp_modLp (b : Bridge) (l m : Lp) (f : LogicalPrinter → LogicalPrinter) :
    (b.modLp l f).lp m = if l = m then f (b.lp m) else b.lp m := by
  by_cases h : l = m
  · subst h; simp
  · have h' : l.val ≠ m.val := fun e => h (Fin.ext e)
    simp [lp, modLp, h, h']

/-- Retiring a job takes it out of its queue. -/
theorem lp_retireJob (b : Bridge) (j : Job) (l : Lp) : (b.retireJob j).lp l =
    if j.lp = l then { b.lp l with queue := (b.lp l).queue.filter (· ≠ j.number) } else b.lp l := by
  show (b.modLp j.lp fun x => { x with queue := x.queue.filter (· ≠ j.number) }).lp l = _
  exact b.lp_modLp j.lp l _

/-- Requeueing a job puts it at the head of its queue. -/
theorem lp_requeue (b : Bridge) (j : Job) (l : Lp) : (b.requeue j).lp l =
    if j.lp = l then { b.lp l with queue := j.number :: (b.lp l).queue } else b.lp l := lp_modLp (b.modJob _ _) j.lp l _

theorem jobs_retireJob (b : Bridge) (j : Job) : (b.retireJob j).spool.jobs = b.spool.jobs.filter (·.number ≠ j.number) := rfl

/-- A job as it is requeued. -/
def requeued (j : Job) : Job :=
  if j.state = JobState.delivering then { j with state := .queued, position := 0, latchedTarget := none, latchedPace := none } else j

/-- Only the queue of a logical printer changes. -/
theorem lp_resetJob (b : Bridge) (j : Job) (l : Lp) : ∃ q, (b.resetJob j).lp l = { b.lp l with queue := q } := by
  unfold resetJob
  split
  · rw [lp_retireJob]
    split
    · exact ⟨_, rfl⟩
    · exact ⟨_, rfl⟩
  · split
    · rw [lp_requeue]
      split
      · exact ⟨_, rfl⟩
      · exact ⟨_, rfl⟩
    · exact ⟨_, rfl⟩

theorem lp_resetJobs (b : Bridge) (l : Lp) : ∃ q, b.resetJobs.lp l = { b.lp l with queue := q } := by
  have h : ∀ (js : List Job) (b : Bridge), ∃ q, (js.foldl resetJob b).lp l = { b.lp l with queue := q } := by
    intro js
    induction js with
    | nil => exact fun b => ⟨_, rfl⟩
    | cons j js ih =>
      intro b
      obtain ⟨q, hq⟩ := ih (b.resetJob j)
      obtain ⟨q', hq'⟩ := b.lp_resetJob j l
      exact ⟨q, by rw [List.foldl_cons, hq, hq']⟩
  exact h _ b

/-! ## Pins recomputed (R64) -/

/-- The pins that the jobs of a list give an entry. -/
def jobPins (jobs : List Job) (n : DirNo) : Nat := (jobs.filter (·.owner = n)).length

/-- The bridge with the pins counted anew, before entries are freed. -/
def countPins (b : Bridge) : Bridge := b.modEntries (List.map fun x => (x.1, { x.2 with pins := jobPins b.spool.jobs x.1 }))

/-- The RETIRING entries without pins. -/
def unpinned (b : Bridge) : List (Nat × Entry) := b.dir.entries.filter fun x => x.2.state = .retiring && x.2.pins = 0

theorem recomputePins_eq (b : Bridge) : b.recomputePins = b.countPins.unpinned.foldl (fun c x => c.freeEntry x.1) b.countPins := rfl

theorem freed_freeEntries (l : List (Nat × Entry)) (b : Bridge) : Freed b (l.foldl (fun c x => c.freeEntry x.1) b) :=
  .foldl _ (fun c (x : Nat × Entry) => c.freed_freeEntry x.1) l b

theorem freed_countPins (b : Bridge) : Freed b b.countPins := .ofMap b _ fun _ => rfl

theorem freed_recomputePins (b : Bridge) : Freed b b.recomputePins := by
  rw [recomputePins_eq]
  exact b.freed_countPins.trans (freed_freeEntries _ _)

theorem entry_countPins (b : Bridge) (n : DirNo) :
    b.countPins.entry n = (b.entry n).map fun e => { e with pins := jobPins b.spool.jobs n } :=
  look_map (fun n (e : Entry) => ({ e with pins := jobPins b.spool.jobs n } : Entry)) n b.dir.entries

/-- Lifting withdrawals leaves the pins. -/
theorem pins_lift (b : Bridge) (s : Port) (k : Nat) (m : DirNo) : ((b.lift s k).entry m).map (·.pins) = (b.entry m).map (·.pins) := by
  unfold lift
  split
  · split
    · rw [entry_modEntry]
      split
      · rw [Option.map_map]; rfl
      · rfl
    · rfl
  · rfl

theorem pins_liftAll (m : DirNo) : ∀ (l : List (Port × Nat)) (b : Bridge),
    ((b.liftAll l).entry m).map (·.pins) = (b.entry m).map (·.pins)
  | [], _ => rfl
  | x :: l, b => (pins_liftAll m l (b.lift x.1 x.2)).trans (b.pins_lift x.1 x.2 m)

theorem pins_freeEntry (b : Bridge) {n m : DirNo} (h : m ≠ n) :
    ((b.freeEntry n).entry m).map (·.pins) = (b.entry m).map (·.pins) := by
  unfold freeEntry
  split
  · rw [pins_liftAll, b.entry_freeQuiet_ne h]
  · rfl

theorem used_freeEntries_ne {m : DirNo} : ∀ (l : List (Nat × Entry)) (b : Bridge) {e : Entry}, (∀ x ∈ l, m ≠ x.1) → KeptAs e (b.entry m) →
    KeptAs e ((l.foldl (fun c x => c.freeEntry x.1) b).entry m)
  | [], _, _, _, h => h
  | x :: l, b, _, hm, h =>
    used_freeEntries_ne l (b.freeEntry x.1) (fun z hz => hm z (List.mem_cons_of_mem _ hz))
      (h.trans (b.free_freeEntry x.1 m) fun _ hy => b.used_freeEntry (hm x List.mem_cons_self) hy)

theorem pins_freeEntries_ne {m : DirNo} : ∀ (l : List (Nat × Entry)) (b : Bridge), (∀ x ∈ l, m ≠ x.1) →
    ((l.foldl (fun c x => c.freeEntry x.1) b).entry m).map (·.pins) = (b.entry m).map (·.pins)
  | [], _, _ => rfl
  | x :: l, b, hm =>
    (pins_freeEntries_ne l (b.freeEntry x.1) fun z hz => hm z (List.mem_cons_of_mem _ hz)).trans
      (b.pins_freeEntry (hm x List.mem_cons_self))

theorem entry_freeEntries_mem {x : Nat × Entry} (l : List (Nat × Entry)) :
    ∀ b : Bridge, x ∈ l → (l.foldl (fun c x => c.freeEntry x.1) b).entry x.1 = none := by
  induction l with
  | nil => intro b hx; cases hx
  | cons y l ih =>
    intro b hx
    obtain rfl | hx := List.mem_cons.1 hx
    · exact (freed_freeEntries l (b.freeEntry x.1)).free x.1 (b.entry_freeEntry_self x.1)
    · exact ih (b.freeEntry y.1) hx

/-- After the pins have been counted anew: a RETIRING entry without pins is freed, any other is kept, with the pins of its jobs (R64). -/
theorem entry_recomputePins (b : Bridge) (hr : rising b.dir.entries = true) {n : DirNo} {e : Entry} (he : b.entry n = some e) :
    (e.state = .retiring ∧ jobPins b.spool.jobs n = 0 → b.recomputePins.entry n = none) ∧
    KeptAs e (b.recomputePins.entry n) ∧ (∀ x, b.recomputePins.entry n = some x → x.pins = jobPins b.spool.jobs n) := by
  have hc : b.countPins.entry n = some { e with pins := jobPins b.spool.jobs n } := by rw [entry_countPins, he]; rfl
  have hk : KeptAs e (b.countPins.entry n) := .inr ⟨_, hc, .ofPins e _⟩
  have hcr := b.freed_countPins.entries hr
  rw [recomputePins_eq]
  by_cases h : e.state = .retiring ∧ jobPins b.spool.jobs n = 0
  · have hm : (n, ({ e with pins := jobPins b.spool.jobs n } : Entry)) ∈ b.countPins.unpinned :=
      List.mem_filter.2 ⟨mem_of_look hc, by simp [h]⟩
    have hn := entry_freeEntries_mem b.countPins.unpinned b.countPins hm
    exact ⟨fun _ => hn, .inl ⟨h.1, hn⟩, fun x hx => by rw [hn] at hx; cases hx⟩
  · have hm : ∀ x ∈ b.countPins.unpinned, n ≠ x.1 := fun x hx hn => by
      obtain ⟨hmem, hx⟩ := List.mem_filter.1 hx
      have hl : b.countPins.entry n = some x.2 := look_of_mem hcr (hn ▸ hmem)
      rw [hc] at hl
      rw [← Option.some.inj hl] at hx
      exact h (by simpa using hx)
    refine ⟨fun h' => absurd h' h, used_freeEntries_ne _ _ hm hk, fun x hx => ?_⟩
    have hp := pins_freeEntries_ne b.countPins.unpinned b.countPins hm
    rw [hx, hc] at hp
    exact Option.some.inj hp

end Bridge

end Sys2Proof.Machine

/-! # The stages of a soft reset. -/

namespace Sys2Proof.Machine
open Sys2Proof

namespace Bridge

/-! ## The stages of a soft reset (R191) -/

/-- Stage 1: the ports, the pair port and the coax repeat memory are emptied. -/
@[irreducible] def softEmptied (b : Bridge) : Bridge := ((List.finRange 4).foldl emptyPort b).emptyPair.setRepeats []

/-- Stage 2: the exchanges are closed. -/
@[irreducible] def softClosed (b : Bridge) : Bridge := b.softEmptied.closeAll

/-- Stages 3 and 4: deliveries ended, jobs ended or requeued. -/
@[irreducible] def softStopped (b : Bridge) : Bridge := b.softClosed.endDeliveries.resetJobs

/-- Stage 5: the staging area emptied and the pins counted anew. -/
@[irreducible] def softPinned (b : Bridge) : Bridge := (b.softStopped.modDir fun d => { d with staging := [] }).recomputePins

/-- The line monitors restarted. -/
@[irreducible] def softRestarted (b : Bridge) : Bridge := (List.finRange 4).foldl (fun b p => b.restartPort p (b.mon p).latched) b.softPinned

/-- A feed controller restarted, its pairing and its counters kept (R180). -/
def refeed (b : Bridge) (i : PairNo) : Bridge := b.restartFeed i (b.feed i).paired (b.feed i).counters

/-- Both feed controllers restarted. -/
@[irreducible] def softFed (b : Bridge) : Bridge := (b.softRestarted.refeed 0).refeed 1

/-- The bridge when the reports of its restart are taken. -/
@[irreducible] def softSettled (b : Bridge) : Bridge := b.softFed.followBoth.2

/-- The bridge before the notices of stage 7. -/
@[irreducible] def softEnded (b : Bridge) : Bridge :=
  let c := b.softSettled.concludeChange b b.softFed.followBoth.1
  c.setCtl { c.ctl with waiting := none, cause := .soft, secondsFrom := c.now }

theorem softReset_eq (b : Bridge) : b.softReset = b.softEnded.resetNotices b.spool.jobs := by
  unfold softReset softEnded softSettled softFed refeed softRestarted softPinned softStopped softClosed softEmptied
  dsimp only [List.foldl_cons, List.foldl_nil]

/-- A bridge whose repeat memories, pair queue, staging area, exchange table and delivery records are empty, and whose ports, feed
controllers, entries, printers and spool records are as given. -/
def softShape (b : Bridge) (v : Vector PortState 4) (fs : Vector Feed 2) (es : Entries) (ps : List (Nat × Printer)) (sp : Spool) : Bridge :=
  { b with
    ports := v, feeds := fs, repeats := [],
    pair := { b.pair with queue := [], handing := none, waiting := [], repeats := [], question := 0 },
    dir := { b.dir with entries := es, staging := [] }, exchanges := [], spool := sp,
    delivery := { b.delivery with
      records := Vector.replicate 8 none, pace := Vector.replicate 8 Config.paceLimit, waiting := [], ended := [], printers := ps } }

theorem softEmptied_eq (b : Bridge) : b.softEmptied =
    ((b.setPorts (Vector.ofFn fun p => emptied b.ctl.now (b.port p))).emptyPair).setRepeats [] := by
  have h := foldl_onPorts emptyPort (fun c _ _ => emptied c.now) emptyPort_eq _ (List.nodup_finRange 4) b
  simp only [List.mem_finRange, if_true] at h
  unfold softEmptied
  rw [h]

theorem freed_softPinned (b : Bridge) : Freed (b.softStopped.modDir fun d => { d with staging := [] }) b.softPinned := by
  unfold softPinned
  exact freed_recomputePins _

theorem softStopped_rest (b : Bridge) : b.softStopped = b.softClosed.endDeliveries.setSpool b.softStopped.spool := by
  unfold softStopped
  exact resetJobs_rest _

theorem restartLatched_eq (b : Bridge) (p : Port) : b.restartPort p (b.mon p).latched =
    b.modPort p fun x => restarted b.ctl.now b.settings.port[p] x.mon.latched x := by
  rw [restartPort_eq]
  exact modPort_congr b p (f := restarted b.ctl.now b.settings.port[p] (b.mon p).latched)
    (g := fun x => restarted b.ctl.now b.settings.port[p] x.mon.latched x) rfl

/-- Every port restarted, its latches kept (R172). -/
theorem foldl_restartLatched (b : Bridge) : (List.finRange 4).foldl (fun b p => b.restartPort p (b.mon p).latched) b =
    b.setPorts (Vector.ofFn fun p => restarted b.ctl.now b.settings.port[p] (b.mon p).latched (b.port p)) := by
  have h := foldl_onPorts (fun b p => b.restartPort p (b.mon p).latched)
    (fun c y p x => restarted c.now y.port[p] x.mon.latched x) restartLatched_eq _ (List.nodup_finRange 4) b
  simp only [List.mem_finRange, if_true] at h
  exact h

/-- A port emptied and restarted, its latches kept (R19, R96, R172). -/
def softPort (b : Bridge) (p : Port) : PortState :=
  restarted b.ctl.now b.settings.port[p] (b.mon p).latched (emptied b.ctl.now (b.port p))

theorem setPorts_softShape (b : Bridge) (v w : Vector PortState 4) (fs : Vector Feed 2) (es : Entries) (ps : List (Nat × Printer))
    (sp : Spool) : (b.softShape v fs es ps sp).setPorts w = b.softShape w fs es ps sp := rfl

theorem port_softShape (b : Bridge) (f : Port → PortState) (fs : Vector Feed 2) (es : Entries) (ps : List (Nat × Printer))
    (sp : Spool) (p : Port) : (b.softShape (Vector.ofFn f) fs es ps sp).port p = f p := by
  simp [softShape, port]

theorem feed_softShape (b : Bridge) (v : Vector PortState 4) (fs : Vector Feed 2) (es : Entries) (ps : List (Nat × Printer))
    (sp : Spool) (i : PairNo) : (b.softShape v fs es ps sp).feed i = fs[i] := rfl

/-- Restarting a feed controller changes it and the ends of the entries. -/
theorem refeed_softShape (b : Bridge) (v : Vector PortState 4) (fs : Vector Feed 2) (es : Entries) (ps : List (Nat × Printer))
    (sp : Spool) (i : PairNo) : ∃ es', (b.softShape v fs es ps sp).refeed i =
      b.softShape v (fs.set i (Feed.restart fs[i].paired fs[i].counters)) es' ps sp := by
  unfold refeed restartFeed
  dsimp only
  split
  · exact ⟨_, rfl⟩
  · exact ⟨es, rfl⟩

/-- A feed controller once it has taken the report of its restarted ends (R180). -/
def softFeed (b : Bridge) (i : PairNo) : Feed :=
  { paired := (b.feed i).paired, counters := (b.feed i).counters,
    startWait := (b.feed i).paired && ((b.portSettings (lowerOf i)).enable || (b.portSettings (upperOf i)).enable) }

/-- What both restarted feed controllers make of the report of their restarted ends (R180). -/
theorem followBoth_restarted (b : Bridge) (w : PairNo → Feed) (hm : ∀ p, (b.mon p).state = .testing ∨ (b.mon p).state = .off)
    (hw : ∀ i, ∃ paired counters, b.feed i = Feed.restart paired counters ∧ w i =
      { paired, counters,
        startWait := paired && (decide ((b.mon (lowerOf i)).state = .testing) || decide ((b.mon (upperOf i)).state = .testing)) }) :
    b.followBoth = ([], (b.modFeed 0 fun _ => w 0).modFeed 1 fun _ => w 1) := by
  obtain ⟨p₀, c₀, f₀, w₀⟩ := hw 0
  obtain ⟨p₁, c₁, f₁, w₁⟩ := hw 1
  have h₀ := b.follow_restarted 0 f₀ (hm _) (hm _)
  rw [← w₀] at h₀
  have f₁' : (b.modFeed 0 fun _ => w 0).feed 1 = Feed.restart p₁ c₁ := (b.feed_modFeed_ne (by decide) _).trans f₁
  have h₁ := (b.modFeed 0 fun _ => w 0).follow_restarted 1 f₁' (hm _) (hm _)
  unfold followBoth
  dsimp only
  rw [h₀]
  dsimp only
  rw [h₁, w₁]
  rfl

/-- The stages up to the pins, with what they leave open. -/
theorem softShape_of_stages (b : Bridge) (v : Vector PortState 4) (es₁ es₂ : Entries) (rs₁ : List PairRepeat)
    (ps₁ ps₂ : List (Nat × Printer)) (sp : Spool) :
    (((((((b.setPorts v).emptyPair.setRepeats []).setExchanges []).relist es₁ rs₁ ps₁).endDeliveries.setSpool sp).modDir
      fun d => { d with staging := [] }).relist es₂ [] ps₂) = b.softShape v b.feeds es₂ ps₂ sp := by
  cases b
  rfl

theorem foldl_restart_softShape (b : Bridge) (fs : Vector Feed 2) (es : Entries) (ps : List (Nat × Printer)) (sp : Spool) :
    (List.finRange 4).foldl (fun b p => b.restartPort p (b.mon p).latched)
      (b.softShape (Vector.ofFn fun p => emptied b.ctl.now (b.port p)) fs es ps sp) = b.softShape (Vector.ofFn b.softPort) fs es ps sp := by
  rw [foldl_restartLatched, setPorts_softShape]
  refine congrArg (fun v => b.softShape v fs es ps sp) (congrArg Vector.ofFn (funext fun p => ?_))
  rw [mon_eq, port_softShape]
  rfl

section
variable (b : Bridge) (ht : ∀ x ∈ b.exchanges, x.1 ≤ 15)
include ht

theorem freed_softClosed : Freed (b.softEmptied.setExchanges []) b.softClosed := by
  unfold softClosed
  refine b.softEmptied.freed_closeAll fun x hx => ht x ?_
  rw [softEmptied_eq] at hx
  exact hx

theorem softPinned_eq : ∃ es ps, b.softPinned =
    b.softShape (Vector.ofFn fun p => emptied b.ctl.now (b.port p)) b.feeds es ps b.softStopped.spool := by
  have h₁ := b.freed_softClosed ht
  have h₂ := b.freed_softPinned
  have hs := b.softStopped_rest
  have hr : b.softEmptied.pair.repeats = [] := by rw [softEmptied_eq]; rfl
  have he := b.softEmptied_eq
  generalize b.softStopped.spool = sp at hs ⊢
  generalize b.softPinned = z at h₂ ⊢
  generalize b.softStopped = y at h₂ hs
  generalize b.softClosed = x at h₁ hs
  generalize b.softEmptied = w at h₁ hr he
  have hr₁ : x.pair.repeats = [] := h₁.repeats hr
  subst hs
  have hr₂ : z.pair.repeats = [] := h₂.repeats hr₁
  obtain ⟨es₁, rs₁, ps₁, rfl⟩ := h₁.rest
  obtain ⟨es₂, rs₂, ps₂, rfl⟩ := h₂.rest
  obtain rfl : rs₂ = [] := hr₂
  rw [he]
  exact ⟨es₂, ps₂, b.softShape_of_stages _ es₁ es₂ rs₁ ps₁ ps₂ sp⟩

theorem softRestarted_eq : ∃ es ps, b.softRestarted =
    b.softShape (Vector.ofFn b.softPort) b.feeds es ps b.softStopped.spool := by
  obtain ⟨es, ps, e⟩ := b.softPinned_eq ht
  refine ⟨es, ps, ?_⟩
  unfold softRestarted
  rw [e]
  exact b.foldl_restart_softShape b.feeds es ps _

theorem softFed_eq : ∃ fs es ps, b.softFed = b.softShape (Vector.ofFn b.softPort) fs es ps b.softStopped.spool ∧
    ∀ i : PairNo, fs[i] = Feed.restart (b.feed i).paired (b.feed i).counters := by
  obtain ⟨es, ps, e⟩ := b.softRestarted_eq ht
  obtain ⟨es₀, e₀⟩ := b.refeed_softShape (Vector.ofFn b.softPort) b.feeds es ps b.softStopped.spool 0
  obtain ⟨es₁, e₁⟩ := b.refeed_softShape (Vector.ofFn b.softPort) (b.feeds.set (0 : PairNo) _) es₀ ps b.softStopped.spool 1
  unfold softFed
  rw [e, e₀, e₁]
  refine ⟨_, es₁, ps, rfl, fun i => ?_⟩
  revert i
  simp [Fin.forall_fin_two, feed]

theorem mon_softFed (p : Port) : b.softFed.mon p = Monitor.restart b.ctl.now (b.portSettings p) (b.mon p).latched := by
  obtain ⟨fs, es, ps, e, _⟩ := b.softFed_eq ht
  rw [e, mon_eq, port_softShape]
  rfl

theorem feed_softFed (i : PairNo) : b.softFed.feed i = Feed.restart (b.feed i).paired (b.feed i).counters := by
  obtain ⟨fs, es, ps, e, h⟩ := b.softFed_eq ht
  rw [e, feed_softShape, h]

theorem followBoth_softFed : b.softFed.followBoth = ([], (b.softFed.modFeed 0 fun _ => b.softFeed 0).modFeed 1 fun _ => b.softFeed 1) := by
  refine followBoth_restarted _ b.softFeed (fun p => ?_) fun i => ?_
  · rw [b.mon_softFed ht]
    exact state_restart _ _ _
  · refine ⟨_, _, b.feed_softFed ht i, ?_⟩
    rw [b.mon_softFed ht, b.mon_softFed ht, testing_restart, testing_restart]
    rfl

end

end Bridge

end Sys2Proof.Machine

/-! # What a soft reset leaves. -/

namespace Sys2Proof.Machine
open Sys2Proof

theorem Placed.setCtl {P : Origin → Prop} {b c : Bridge} (h : Placed P b c) (x : Control) : Placed P (b.setCtl x) (c.setCtl x) where
  rest := by obtain ⟨v, q, n, rfl⟩ := h.rest; exact ⟨v, q, n, rfl⟩
  port := h.port
  queue := h.queue

theorem Noticed.setCtl {P : Origin → Prop} {b c : Bridge} (h : Noticed P b c) (x : Control) : Noticed P (b.setCtl x) (c.setCtl x) :=
  Placed.setCtl h x

/-- The notices of a soft reset: those of the feed states, and those of the ended jobs (R133, R173). -/
def ResetNotice (o : Origin) : Prop := o = .notice ∨ o = .jobNotice

namespace Bridge

/-! ## The reports of a part without exchanges and deliveries -/

theorem exchangeLosses_none (b : Bridge) (f : Route → Bool) (h : b.exchanges = []) : b.exchangeLosses f = b := by
  have hx (t : Nat) : b.exchange t = none := by simp [exchange, h, look]
  have hl : ∀ l : List Nat, l.foldl (fun b t => b.exchangeLoss f t) b = b := by
    intro l
    induction l with
    | nil => rfl
    | cons t l ih => rw [List.foldl_cons]; simp only [exchangeLoss, hx]; exact ih
  exact hl _

theorem deliveryLosses_none (b : Bridge) (f : Route → Bool) (h : ∀ l, b.record l = none) : b.deliveryLosses f = b := by
  unfold deliveryLosses
  generalize List.finRange 8 = l
  induction l with
  | nil => rfl
  | cons l ls ih => rw [List.foldl_cons]; simp only [h]; exact ih

/-- With no exchange open, no delivery in hand and nothing flushed, a change is concluded by the reach and the feed notices alone. -/
theorem concludeChange_idle (b before : Bridge) (he : b.exchanges = []) (hd : ∀ l, b.record l = none) :
    b.concludeChange before [] = (b.refreshReach.feedNotice 0 (before.feed 0).state).feedNotice 1 (before.feed 1).state := by
  have hx (f : Route → Bool) : (b.refreshReach.exchangeLosses f).deliveryLosses f = b.refreshReach := by
    rw [exchangeLosses_none b.refreshReach f he]
    exact deliveryLosses_none b.refreshReach f hd
  unfold concludeChange
  dsimp only
  rw [hx, ite_self]
  rfl

theorem record_softShape (b : Bridge) (v : Vector PortState 4) (fs : Vector Feed 2) (es : Entries) (ps : List (Nat × Printer))
    (sp : Spool) (l : Lp) : (b.softShape v fs es ps sp).record l = none := by
  simp [softShape, record]

theorem refreshReach_softShape (b : Bridge) (v : Vector PortState 4) (fs : Vector Feed 2) (es : Entries) (ps : List (Nat × Printer))
    (sp : Spool) : ∃ es' ps', (b.softShape v fs es ps sp).refreshReach = b.softShape v fs es' ps' sp := by
  unfold refreshReach
  exact ⟨_, _, rfl⟩

/-- The reset controller after a soft reset (R190, R191). -/
def softCtl (b : Bridge) : Control := { b.ctl with waiting := none, cause := .soft, secondsFrom := b.ctl.now }

/-! ## What a soft reset leaves -/

section
variable (b : Bridge) (ht : ∀ x ∈ b.exchanges, x.1 ≤ 15)
include ht

theorem softSettled_eq : b.softSettled = (b.softFed.modFeed 0 fun _ => b.softFeed 0).modFeed 1 fun _ => b.softFeed 1 := by
  unfold softSettled
  rw [b.followBoth_softFed ht]

theorem softSettled_shape : ∃ fs es ps, b.softSettled = b.softShape (Vector.ofFn b.softPort) fs es ps b.softStopped.spool ∧
    ∀ i : PairNo, fs[i] = b.softFeed i := by
  obtain ⟨fs, es, ps, e, _⟩ := b.softFed_eq ht
  refine ⟨(fs.set (0 : PairNo) (b.softFeed 0)).set (1 : PairNo) (b.softFeed 1), es, ps, ?_, ?_⟩
  · rw [b.softSettled_eq ht, e]
    rfl
  · simp [Fin.forall_fin_two]

/-- The conclusion of a soft reset's restart: the reach, and the notices of the feed states. -/
theorem softEnded_eq : b.softEnded =
    ((b.softSettled.refreshReach.feedNotice 0 (b.feed 0).state).feedNotice 1 (b.feed 1).state).setCtl b.softCtl := by
  obtain ⟨fs, es, ps, e, _⟩ := b.softSettled_shape ht
  have hc := concludeChange_idle b.softSettled b (by rw [e]; rfl) fun l => by rw [e]; exact b.record_softShape _ _ _ _ _ l
  have hctl : (b.softSettled.concludeChange b []).ctl = b.ctl := by
    rw [hc, (noticed_feedNotice _ 1 _).ctl, (noticed_feedNotice _ 0 _).ctl, e]
    rfl
  have h0 : b.softFed.followBoth.1 = [] := congrArg Prod.fst (b.followBoth_softFed ht)
  unfold softEnded
  dsimp only [now]
  rw [h0, hctl, hc]
  rfl

theorem noticed_softEnded : Noticed (· = .notice) (b.softSettled.refreshReach.setCtl b.softCtl) b.softEnded := by
  rw [b.softEnded_eq ht]
  exact ((noticed_feedNotice _ 0 _).trans (noticed_feedNotice _ 1 _)).setCtl _

omit ht in
theorem noticed_resetNotices (l : List Job) (b : Bridge) : Noticed (· = .jobNotice) b (b.resetNotices l) := by
  refine .foldl _ (fun b j => ?_) l b
  split
  · exact b.noticed_jobNotice j _ _
  · exact .refl b

theorem noticed_softReset : Noticed ResetNotice (b.softSettled.refreshReach.setCtl b.softCtl) b.softReset := by
  rw [softReset_eq]
  exact ((b.noticed_softEnded ht).mono fun _ => .inl).trans ((noticed_resetNotices _ _).mono fun _ => .inr)

theorem softReset_shape : ∃ fs es ps,
    Noticed ResetNotice ((b.softShape (Vector.ofFn b.softPort) fs es ps b.softStopped.spool).setCtl b.softCtl) b.softReset ∧
      ∀ i : PairNo, fs[i] = b.softFeed i := by
  have h := b.noticed_softReset ht
  obtain ⟨fs, es, ps, e, hf⟩ := b.softSettled_shape ht
  obtain ⟨es', ps', e'⟩ := b.refreshReach_softShape (Vector.ofFn b.softPort) fs es ps b.softStopped.spool
  rw [e, e'] at h
  exact ⟨fs, es', ps', h, hf⟩

end

/-! ### The logical printers -/

theorem lp_endDeliveries (b : Bridge) (l : Lp) : b.endDeliveries.lp l = { b.lp l with state := .idle, current := none } := by
  simp [endDeliveries, lp]

theorem lp_softStopped (b : Bridge) (l : Lp) :
    ∃ q, b.softStopped.lp l = { b.softClosed.lp l with state := .idle, current := none, queue := q } := by
  obtain ⟨q, hq⟩ := b.softClosed.endDeliveries.lp_resetJobs l
  rw [lp_endDeliveries] at hq
  unfold softStopped
  exact ⟨q, hq⟩

end Bridge

/-! ## The soft reset as a command (R190, R191) -/

theorem exec_softReset (s : State) (h : s.takesTraffic) : exec .softReset s = .next (s.after [] s.bridge.takeSoftReset) :=
  s.command_run [] _ h

theorem exec_softReset_due (s : State) (w : WaitingReset) (h : s.takesTraffic) (hw : s.bridge.ctl.waiting = some w)
    (hd : w.reported = true ∨ w.deadline ≤ s.bridge.ctl.now) (hk : w.kind = .soft) :
    exec .softReset s = .next (s.after [] s.bridge.softReset) := by
  rw [exec_softReset s h]
  refine s.after_congr [] ?_
  simp [Bridge.takeSoftReset, hw, hk, (s.bridge.resetDue_iff w).2 hd]

/-- What a soft reset leaves of the part (R19, R20, R37, R117, R154, R172, R180, R191). -/
theorem softReset_leaves (b : Bridge) (hr : b.ctl.phase = .running) (ht : ∀ x ∈ b.exchanges, x.1 ≤ 15) :
    let c := b.softReset
    c.ctl.phase = .running ∧ c.ctl.cause = .soft ∧ c.ctl.waiting = none ∧ c.ctl.secondsFrom = b.ctl.now ∧
    c.pair.link = b.pair.link ∧ c.settings = b.settings ∧ c.agent.setup = b.agent.setup ∧
    c.exchanges = [] ∧ c.repeats = [] ∧ c.dir.staging = [] ∧
    c.pair.repeats = [] ∧ c.pair.question = 0 ∧ c.pair.handing = none ∧ c.pair.waiting = [] ∧
    (∀ f ∈ c.pair.queue, ResetNotice f.origin) ∧
    (∀ i, c.feed i = b.softFeed i) ∧
    c.delivery.waiting = [] ∧ (∀ l, c.record l = none ∧ (c.lp l).current = none ∧ (c.lp l).state = .idle) ∧
    ∀ p, ∃ l, c.port p = { b.softPort p with class1 := l } ∧ ∀ f ∈ l, ResetNotice f.origin := by
  obtain ⟨fs, es, ps, h, hf⟩ := b.softReset_shape ht
  dsimp only
  refine ⟨?_, ?_, ?_, ?_, ?_, ?_, ?_, ?_, ?_, ?_, ?_, ?_, ?_, ?_, ?_, fun i => ?_, ?_, fun l => ⟨?_, ?_⟩, fun p => ?_⟩
  · rw [h.ctl]; exact hr
  · rw [h.ctl]; rfl
  · rw [h.ctl]; rfl
  · rw [h.ctl]; rfl
  · rw [h.pair]; rfl
  · rw [h.settings]; rfl
  · rw [h.agent]; rfl
  · rw [h.exchanges]; rfl
  · rw [h.repeats]; rfl
  · rw [h.dir]; rfl
  · rw [h.pair]; rfl
  · rw [h.pair]; rfl
  · rw [h.pair]; rfl
  · rw [h.pair]; rfl
  · obtain ⟨l, hl, hP⟩ := h.queue
    rw [hl]
    exact hP
  · rw [Bridge.feed_eq, h.feeds]
    exact hf i
  · rw [h.delivery]; rfl
  · unfold Bridge.record
    rw [h.delivery]
    exact b.record_softShape (Vector.ofFn b.softPort) fs es ps b.softStopped.spool l
  · obtain ⟨q, hq⟩ := b.lp_softStopped l
    have hl : b.softReset.lp l = b.softStopped.lp l := congrArg (fun x : Spool => x.lps[l]) h.spool
    rw [hl, hq]
    exact ⟨rfl, rfl⟩
  · obtain ⟨l, hl, hP⟩ := h.port p
    refine ⟨l, hl.trans ?_, hP⟩
    have hp : ((b.softShape (Vector.ofFn b.softPort) fs es ps b.softStopped.spool).setCtl b.softCtl).port p = b.softPort p :=
      b.port_softShape b.softPort fs es ps b.softStopped.spool p
    rw [hp]
    rfl

end Sys2Proof.Machine

/-! # Jobs and queues after a soft reset. -/

namespace Sys2Proof.Machine
open Sys2Proof

/-! ## The jobs, the free list and the queues after a soft reset (R119, R136, R137) -/

/-- A map that changes one place of a list. -/
theorem map_one {α : Type} {f : α → α} {front l : List α} {x : α} (hf : ∀ y ∈ front, f y = y) (hl : ∀ y ∈ l, f y = y) :
    (front ++ x :: l).map f = front ++ f x :: l := by
  rw [List.map_append, List.map_cons, List.map_congr_left hf, List.map_congr_left hl, List.map_id', List.map_id']

/-- Whether a soft reset ends a job (R136). -/
def endsAtReset (j : Job) : Bool := (resetOutcome j).isSome

theorem endsAtReset_iff (j : Job) : endsAtReset j = true ↔
    (j.state = .filling ∧ (j.mode = .spool ∨ j.input = .opened)) ∨ (j.state = .delivering ∧ j.mode = .stream) ∨
      j.state = .cancelling := by
  unfold endsAtReset resetOutcome
  cases j.state <;> cases j.mode <;> cases j.input <;> simp

/-- The outcome with which it ends one. -/
theorem resetOutcome_of_ends {j : Job} (h : endsAtReset j = true) :
    resetOutcome j = some (if j.state = .delivering then .failed else .cancelled, .reset) := by
  unfold endsAtReset resetOutcome at *
  cases hs : j.state <;> cases hm : j.mode <;> cases hi : j.input <;> simp_all

theorem freeBlocks_eq : ∀ (chain l : List BlockNo), freeBlocks chain l = chain.reverse ++ l
  | [], _ => rfl
  | x :: chain, l => by
    rw [freeBlocks, List.foldl_cons]
    change freeBlocks chain (x :: l) = _
    rw [freeBlocks_eq chain, List.reverse_cons, List.append_assoc]
    rfl

namespace Bridge

theorem resetJob_ends (b : Bridge) {j : Job} (h : endsAtReset j = true) : b.resetJob j = b.retireJob j := if_pos h

theorem resetJob_requeues (b : Bridge) {j : Job} (h : endsAtReset j = false) (hd : j.state = .delivering) :
    b.resetJob j = b.requeue j := by
  unfold resetJob
  rw [if_neg (by simpa [endsAtReset] using h), if_pos hd]

theorem resetJob_keeps (b : Bridge) {j : Job} (h : endsAtReset j = false) (hd : j.state ≠ .delivering) : b.resetJob j = b := by
  unfold resetJob
  rw [if_neg (by simpa [endsAtReset] using h), if_neg hd]

/-- The chains of ended jobs return to the free list, first block first (R119). -/
theorem freeList_resetJob (b : Bridge) (j : Job) : (b.resetJob j).spool.freeList =
    if endsAtReset j then j.chain.reverse ++ b.spool.freeList else b.spool.freeList := by
  cases h : endsAtReset j with
  | true => rw [b.resetJob_ends h]; exact freeBlocks_eq _ _
  | false =>
    by_cases hd : j.state = .delivering
    · rw [b.resetJob_requeues h hd]; rfl
    · rw [b.resetJob_keeps h hd]; rfl

theorem freeList_resetJobs : ∀ (l : List Job) (b : Bridge), (l.foldl resetJob b).spool.freeList =
    (l.filter endsAtReset).foldl (fun fl j => j.chain.reverse ++ fl) b.spool.freeList
  | [], _ => rfl
  | j :: l, b => by
    rw [List.foldl_cons, freeList_resetJobs l, freeList_resetJob, List.filter_cons]
    cases endsAtReset j <;> rfl

theorem jobCounter_resetJobs (b : Bridge) : b.resetJobs.spool.jobCounter = b.spool.jobCounter := by
  have h : ∀ (l : List Job) (b : Bridge), (l.foldl resetJob b).spool.jobCounter = b.spool.jobCounter := by
    intro l
    induction l with
    | nil => exact fun _ => rfl
    | cons j l ih =>
      intro b
      rw [List.foldl_cons, ih]
      unfold resetJob
      split
      · rfl
      · split <;> rfl
  exact h _ b

theorem jobs_requeue (b : Bridge) (j : Job) : (b.requeue j).spool.jobs = b.spool.jobs.map fun k =>
    if k.number = j.number then { k with state := .queued, position := 0, latchedTarget := none, latchedPace := none } else k := rfl

theorem number_requeued (j : Job) : (requeued j).number = j.number := by
  unfold requeued
  split <;> rfl

theorem owner_requeued (j : Job) : (requeued j).owner = j.owner := by
  unfold requeued
  split <;> rfl

/-- The jobs in use after one job has been dealt with, those before and after it having other numbers. -/
theorem jobs_resetJob (b : Bridge) {front l : List Job} {j : Job} (hb : b.spool.jobs = front ++ j :: l)
    (hf : ∀ k ∈ front, k.number ≠ j.number) (hl : ∀ k ∈ l, k.number ≠ j.number) :
    (b.resetJob j).spool.jobs = front ++ (if endsAtReset j then [] else [requeued j]) ++ l := by
  cases h : endsAtReset j with
  | true =>
    rw [b.resetJob_ends h, jobs_retireJob, hb, List.filter_append, List.filter_cons]
    have e₁ : front.filter (fun k => decide (k.number ≠ j.number)) = front := List.filter_eq_self.2 fun k hk => by simp [hf k hk]
    have e₂ : l.filter (fun k => decide (k.number ≠ j.number)) = l := List.filter_eq_self.2 fun k hk => by simp [hl k hk]
    rw [e₁, e₂]
    simp
  | false =>
    by_cases hd : j.state = .delivering
    · rw [b.resetJob_requeues h hd, jobs_requeue, hb, map_one]
      · simp [requeued, hd]
      · exact fun k hk => if_neg (hf k hk)
      · exact fun k hk => if_neg (hl k hk)
    · rw [b.resetJob_keeps h hd, hb]
      simp [requeued, hd]

theorem jobs_foldl_resetJob : ∀ (l : List Job) (b : Bridge) (front : List Job), b.spool.jobs = front ++ l →
    (front ++ l).Pairwise (fun x y => x.number ≠ y.number) →
    (l.foldl resetJob b).spool.jobs = front ++ (l.filter fun j => !endsAtReset j).map requeued
  | [], b, front, hb, _ => hb.trans (by simp)
  | j :: l, b, front, hb, hp => by
    obtain ⟨hfront, hjl, hx⟩ := List.pairwise_append.1 hp
    obtain ⟨hj, hl⟩ := List.pairwise_cons.1 hjl
    have hf : ∀ k ∈ front, k.number ≠ j.number := fun k hk => hx k hk j List.mem_cons_self
    have h := b.jobs_resetJob hb hf fun k hk => Ne.symm (hj k hk)
    have hrest : (front ++ (if endsAtReset j then [] else [requeued j]) ++ l).Pairwise fun x y => x.number ≠ y.number := by
      cases endsAtReset j with
      | true => simpa using List.pairwise_append.2 ⟨hfront, hl, fun x hx' y hy => hx x hx' y (List.mem_cons_of_mem _ hy)⟩
      | false =>
        have hn : (requeued j).number = j.number := number_requeued j
        simp only [Bool.false_eq_true, if_false, List.append_assoc, List.singleton_append]
        refine List.pairwise_append.2 ⟨hfront, List.pairwise_cons.2 ⟨fun y hy => hn ▸ hj y hy, hl⟩, fun x hx' y hy => ?_⟩
        obtain rfl | hy := List.mem_cons.1 hy
        · exact hn ▸ hf x hx'
        · exact hx x hx' y (List.mem_cons_of_mem _ hy)
    rw [List.foldl_cons, jobs_foldl_resetJob l _ _ h hrest, List.filter_cons]
    cases endsAtReset j <;> simp

theorem jobs_resetJobs (b : Bridge) (hp : b.spool.jobs.Pairwise fun x y => x.number ≠ y.number) :
    b.resetJobs.spool.jobs = (b.spool.jobs.filter fun j => !endsAtReset j).map requeued :=
  jobs_foldl_resetJob _ b [] rfl hp

/-- A logical printer's queue after one job has been dealt with. -/
theorem queue_resetJob (b : Bridge) (j : Job) (l : Lp) : ((b.resetJob j).lp l).queue =
    if j.lp = l then
      if endsAtReset j then (b.lp l).queue.filter (· ≠ j.number)
      else if j.state = .delivering then j.number :: (b.lp l).queue else (b.lp l).queue
    else (b.lp l).queue := by
  cases h : endsAtReset j with
  | true =>
    rw [b.resetJob_ends h, lp_retireJob]
    split <;> simp
  | false =>
    by_cases hd : j.state = .delivering
    · rw [b.resetJob_requeues h hd, lp_requeue]
      split <;> simp
    · rw [b.resetJob_keeps h hd]
      simp [hd]

/-- Whether no job of a list that ends has a number in a logical printer's queue. -/
def staysQueued (l : Lp) (jobs : List Job) (n : Nat) : Bool := jobs.all fun j => !(j.number = n && j.lp = l && endsAtReset j)

/-- The kept jobs of a list that a stopped delivery returns to a logical printer's queue, by number. -/
def returned (l : Lp) (jobs : List Job) : List Nat :=
  (jobs.filter fun j => !endsAtReset j && j.state = .delivering && j.lp = l).map (·.number)

theorem queue_foldl_resetJob (l : Lp) : ∀ (jobs : List Job) (b : Bridge), jobs.Pairwise (fun x y => x.number ≠ y.number) →
    ((jobs.foldl resetJob b).lp l).queue = (returned l jobs).reverse ++ (b.lp l).queue.filter (staysQueued l jobs)
  | [], b, _ => (List.filter_eq_self.2 fun _ _ => rfl).symm
  | j :: jobs, b, hp => by
    obtain ⟨hj, hp⟩ := List.pairwise_cons.1 hp
    have hself : staysQueued l jobs j.number = true := by
      refine List.all_eq_true.2 fun k hk => ?_
      simp [Ne.symm (hj k hk)]
    have hcons (n : Nat) : staysQueued l (j :: jobs) n = (!(j.number = n && j.lp = l && endsAtReset j) && staysQueued l jobs n) := rfl
    have hret : returned l (j :: jobs) =
        if !endsAtReset j && j.state = .delivering && j.lp = l then j.number :: returned l jobs else returned l jobs := by
      unfold returned
      rw [List.filter_cons]
      split <;> rfl
    rw [List.foldl_cons, queue_foldl_resetJob l jobs _ hp, queue_resetJob, hret]
    by_cases hl : j.lp = l
    · cases he : endsAtReset j with
      | true =>
        simp only [hl, if_true, List.filter_filter]
        refine congrArg _ (List.filter_congr fun n _ => ?_)
        rw [hcons]
        by_cases hn : n = j.number
        · simp [hl, he, hn]
        · simp [hl, he, hn, Ne.symm hn]
      | false =>
        have hs : (b.lp l).queue.filter (staysQueued l (j :: jobs)) = (b.lp l).queue.filter (staysQueued l jobs) :=
          List.filter_congr fun n _ => by rw [hcons]; simp [he]
        rw [hs]
        by_cases hd : j.state = .delivering
        · simp [hl, hd, hself]
        · simp [hl, hd]
    · have hs : (b.lp l).queue.filter (staysQueued l (j :: jobs)) = (b.lp l).queue.filter (staysQueued l jobs) :=
        List.filter_congr fun n _ => by rw [hcons]; simp [hl]
      rw [hs]
      simp [hl]

theorem queue_resetJobs (b : Bridge) (hp : b.spool.jobs.Pairwise fun x y => x.number ≠ y.number) (l : Lp) :
    (b.resetJobs.lp l).queue = (returned l b.spool.jobs).reverse ++ (b.lp l).queue.filter (staysQueued l b.spool.jobs) :=
  queue_foldl_resetJob l _ b hp

end Bridge

end Sys2Proof.Machine

/-! # Spool and entries after a soft reset. -/

namespace Sys2Proof.Machine
open Sys2Proof

theorem Noticed.reachOf {P : Origin → Prop} {b c : Bridge} (h : Noticed P b c) (e : Entry) : c.reachOf e = b.reachOf e := by
  refine Bridge.reachOf_congr e (by rw [h.pair]) (fun p => ?_) fun i => ?_
  · obtain ⟨l, hl, _⟩ := h.port p
    rw [Bridge.mon_eq, hl]
    rfl
  · rw [Bridge.feed_eq, h.feeds]
    rfl

theorem PinsFree.comp {f g : Entry → Entry} (hf : PinsFree f) (hg : PinsFree g) : PinsFree fun e => f (g e) := by
  intro x k w
  dsimp only
  rw [hg, hf]

namespace Bridge

theorem pinsFree_reached (b : Bridge) : PinsFree b.reached := fun _ _ _ => rfl

/-! ## The spool after a soft reset (R136) -/

/-- A job that ends takes part in its notice as failed where it was delivered, as cancelled otherwise (R136). -/
def endNotice (b : Bridge) (j : Job) : Bridge :=
  b.jobNotice j (if j.state = .delivering then .failed else .cancelled) .reset

theorem resetNotices_filter : ∀ (l : List Job) (b : Bridge), b.resetNotices l = (l.filter endsAtReset).foldl endNotice b
  | [], _ => rfl
  | j :: l, b => by
    unfold resetNotices
    rw [List.foldl_cons, List.filter_cons]
    cases h : endsAtReset j with
    | true =>
      rw [resetOutcome_of_ends h]
      exact resetNotices_filter l _
    | false =>
      have hn : resetOutcome j = none := by simpa [endsAtReset] using h
      rw [hn]
      exact resetNotices_filter l b

section
variable (b : Bridge) (ht : ∀ x ∈ b.exchanges, x.1 ≤ 15)
include ht

theorem spool_softClosed : b.softClosed.spool = b.spool := by
  rw [(b.freed_softClosed ht).spool, softEmptied_eq]
  rfl

theorem jobs_softClosed : b.softClosed.spool.jobs = b.spool.jobs := congrArg Spool.jobs (b.spool_softClosed ht)

theorem jobCounter_softClosed : b.softClosed.spool.jobCounter = b.spool.jobCounter :=
  congrArg Spool.jobCounter (b.spool_softClosed ht)

omit ht in
theorem softStopped_eq : b.softStopped = b.softClosed.endDeliveries.resetJobs := by unfold softStopped; rfl

theorem spool_softReset : b.softReset.spool = b.softStopped.spool := by
  obtain ⟨fs, es, ps, h, _⟩ := b.softReset_shape ht
  exact h.spool

theorem lp_softReset (l : Lp) : b.softReset.lp l = b.softStopped.lp l := congrArg (fun x : Spool => x.lps[l]) (b.spool_softReset ht)

theorem jobCounter_softReset : b.softReset.spool.jobCounter = b.spool.jobCounter := by
  rw [b.spool_softReset ht, softStopped_eq, jobCounter_resetJobs]
  exact b.jobCounter_softClosed ht

theorem freeList_softReset : b.softReset.spool.freeList =
    (b.spool.jobs.filter endsAtReset).foldl (fun fl j => j.chain.reverse ++ fl) b.spool.freeList := by
  rw [b.spool_softReset ht, softStopped_eq, resetJobs_eq, freeList_resetJobs]
  change ((b.softClosed.spool.jobs).filter _).foldl _ b.softClosed.spool.freeList = _
  rw [b.spool_softClosed ht]

theorem jobs_softStopped (hp : b.spool.jobs.Pairwise fun x y => x.number ≠ y.number) :
    b.softStopped.spool.jobs = (b.spool.jobs.filter fun j => !endsAtReset j).map requeued := by
  have hj : b.softClosed.endDeliveries.spool.jobs = b.spool.jobs := b.jobs_softClosed ht
  rw [softStopped_eq, jobs_resetJobs _ (by rw [hj]; exact hp), hj]

theorem lp_softClosed (l : Lp) : b.softClosed.lp l = b.lp l := congrArg (fun x : Spool => x.lps[l]) (b.spool_softClosed ht)

theorem binding_softReset (l : Lp) : (b.softReset.lp l).binding = (b.lp l).binding ∧ (b.softReset.lp l).active = (b.lp l).active := by
  obtain ⟨q, hq⟩ := b.lp_softStopped l
  rw [b.lp_softReset ht, hq, b.lp_softClosed ht]
  exact ⟨rfl, rfl⟩

theorem queue_softReset (hp : b.spool.jobs.Pairwise fun x y => x.number ≠ y.number) (l : Lp) : (b.softReset.lp l).queue =
    (returned l b.spool.jobs).reverse ++ (b.lp l).queue.filter (staysQueued l b.spool.jobs) := by
  have hj : b.softClosed.endDeliveries.spool.jobs = b.spool.jobs := b.jobs_softClosed ht
  rw [b.lp_softReset ht, softStopped_eq, queue_resetJobs _ (by rw [hj]; exact hp), hj, lp_endDeliveries, b.lp_softClosed ht]

end

/-! ## The entries after a soft reset (R57, R64, R180) -/

theorem dir_softEmptied (b : Bridge) : b.softEmptied.dir = b.dir := by rw [softEmptied_eq]; rfl

theorem dir_softStopped (b : Bridge) : b.softStopped.dir = b.softClosed.dir := by rw [softStopped_rest]; rfl

theorem dir_softRestarted (b : Bridge) : b.softRestarted.dir = b.softPinned.dir := by
  unfold softRestarted
  rw [foldl_restartLatched]
  rfl

theorem delivery_softRestarted (b : Bridge) : b.softRestarted.delivery = b.softPinned.delivery := by
  unfold softRestarted
  rw [foldl_restartLatched]
  rfl

theorem delivery_refeed (b : Bridge) (i : PairNo) : (b.refeed i).delivery = b.delivery := by
  unfold refeed restartFeed
  dsimp only
  split <;> rfl

theorem entriesKept_softClosed (b : Bridge) : EntriesKept b b.softClosed := by
  unfold softClosed
  exact (EntriesKept.ofDir b.dir_softEmptied).trans (entriesKept_closeAll _)

/-- An entry as the restart of a feed controller that stays PAIRED or UNPAIRED leaves it. -/
def refedEnd (i : PairNo) (paired : Bool) (e : Entry) : Entry := if paired then pairedEnd i true e else e

theorem entry_refeed (b : Bridge) (i : PairNo) (n : DirNo) :
    (b.refeed i).entry n = (b.entry n).map (refedEnd i (b.feed i).paired) := by
  unfold refeed
  rw [entry_restartFeed]
  cases (b.feed i).paired with
  | true => rfl
  | false => exact Option.map_id'.symm

theorem pinsFree_refedEnd (i : PairNo) (paired : Bool) : PinsFree (refedEnd i paired) := by
  intro x k w
  unfold refedEnd
  split
  · exact pinsFree_pairedEnd i true x k w
  · rfl

/-- An entry as a soft reset leaves it: the ends of paired segments UNKNOWN, the reach recomputed (R59, R180). -/
def softEntry (b : Bridge) (e : Entry) : Entry :=
  b.softSettled.reached (refedEnd 1 (b.feed 1).paired (refedEnd 0 (b.feed 0).paired e))

theorem pinsFree_softEntry (b : Bridge) : PinsFree b.softEntry :=
  (b.softSettled.pinsFree_reached.comp (pinsFree_refedEnd 1 _)).comp (pinsFree_refedEnd 0 _)

theorem refedEnd_eq (i : PairNo) (paired : Bool) (e : Entry) : refedEnd i paired e =
    { e with endField := if paired = true ∧ e.home.port? = some (lowerOf i) then some .unknown else e.endField } := by
  unfold refedEnd pairedEnd
  cases paired
  · simp
  · by_cases h : e.home.port? = some (lowerOf i) <;> simp [h]

/-- What a soft reset changes of an entry is its end and its reach. -/
theorem softEntry_eq (b : Bridge) (e : Entry) : b.softEntry e =
    { e with endField := (b.softEntry e).endField, reachable := (b.softEntry e).reachable } := by
  unfold softEntry reached
  rw [refedEnd_eq, refedEnd_eq]

theorem endField_softEntry (b : Bridge) (e : Entry) : (b.softEntry e).endField =
    if ∃ i, (b.feed i).paired = true ∧ e.home.port? = some (lowerOf i) then some .unknown else e.endField := by
  unfold softEntry reached
  rw [refedEnd_eq, refedEnd_eq]
  simp only [Fin.exists_fin_two]
  by_cases h0 : (b.feed 0).paired = true ∧ e.home.port? = some (lowerOf 0)
  · simp [h0]
  · by_cases h1 : (b.feed 1).paired = true ∧ e.home.port? = some (lowerOf 1)
    · simp [h1]
    · simp [h0, h1]

end Bridge

end Sys2Proof.Machine

/-! # The records after a soft reset. -/

namespace Sys2Proof.Machine
open Sys2Proof

namespace Bridge

/-! ## The printers and the entries after a soft reset (R57, R64, R154) -/

theorem printer_endDeliveries (b : Bridge) (n : DirNo) : b.endDeliveries.printer n = (b.printer n).map fun _ => {} :=
  look_map (fun _ _ => ({} : Printer)) n b.delivery.printers

theorem printer_softStopped (b : Bridge) (n : DirNo) : b.softStopped.printer n = (b.softClosed.printer n).map fun _ => {} := by
  rw [← printer_endDeliveries, softStopped_rest]
  rfl

theorem printer_refreshReach (b : Bridge) (n : DirNo) (h : ∀ r, b.printer n = some r → r = {}) :
    b.refreshReach.printer n = b.printer n := by
  have hl := look_map_key (fun x : Nat × Printer => match b.entry x.1 with
      | some e => (x.1, pollAtReach b.now e.reachable (b.reachOf e) x.2)
      | none => x) (fun x => by split <;> rfl) n b.delivery.printers
  refine Eq.trans hl ?_
  change Option.map _ (b.printer n) = b.printer n
  cases hr : b.printer n with
  | none => rfl
  | some r =>
    obtain rfl := h r hr
    rw [Option.map_some]
    cases b.entry n <;> rfl

theorem printer_softPinned (b : Bridge) (n : DirNo) {r : Printer} (h : b.softPinned.printer n = some r) : r = {} := by
  obtain hp | hp := b.freed_softPinned.printer n
  · have hs : b.softStopped.printer n = some r := hp.symm.trans h
    rw [printer_softStopped] at hs
    obtain ⟨_, _, hr⟩ := Option.map_eq_some_iff.1 hs
    exact hr.symm
  · rw [h] at hp
    cases hp

theorem entry_softStopped (b : Bridge) (n : DirNo) : b.softStopped.entry n = b.softClosed.entry n := by
  unfold entry
  rw [dir_softStopped]

theorem entry_softEmptied (b : Bridge) (n : DirNo) : b.softEmptied.entry n = b.entry n := by
  unfold entry
  rw [dir_softEmptied]

section
variable (b : Bridge) (ht : ∀ x ∈ b.exchanges, x.1 ≤ 15)
include ht

theorem printer_softReset (n : DirNo) : b.softReset.printer n = b.softPinned.printer n := by
  have hd : b.softReset.delivery = b.softSettled.refreshReach.delivery := (b.noticed_softReset ht).delivery
  have hs : b.softSettled.delivery = b.softPinned.delivery := by
    rw [b.softSettled_eq ht]
    unfold softFed
    exact (delivery_refeed _ _).trans ((delivery_refeed _ _).trans b.delivery_softRestarted)
  have hp : b.softSettled.printer n = b.softPinned.printer n := congrArg (fun u : DeliveryUnit => look n u.printers) hs
  have hr := printer_refreshReach b.softSettled n fun r h => b.printer_softPinned n (hp.symm.trans h)
  exact (congrArg (fun u : DeliveryUnit => look n u.printers) hd).trans (hr.trans hp)

/-- The entries that a soft reset leaves, from those left by the count of the pins. -/
theorem entry_softReset (n : DirNo) : b.softReset.entry n = (b.softPinned.entry n).map b.softEntry := by
  have hd : b.softReset.entry n = b.softSettled.refreshReach.entry n :=
    congrArg (fun d : Directory => look n d.entries) (b.noticed_softReset ht).dir
  have hf (i : PairNo) : (b.softRestarted.feed i).paired = (b.feed i).paired := by
    obtain ⟨es, ps, e⟩ := b.softRestarted_eq ht
    rw [e]
    rfl
  have hf1 : ((b.softRestarted.refeed 0).feed 1).paired = (b.feed 1).paired := by
    have h := (freed_restartFeed b.softRestarted 0 (b.softRestarted.feed 0).paired (b.softRestarted.feed 0).counters).feeds
    refine Eq.trans ?_ (hf 1)
    unfold refeed
    rw [feed_eq, h, ← feed_eq, feed_modFeed_ne _ (by decide)]
  have hs : b.softSettled.entry n = ((b.softPinned.entry n).map (refedEnd 0 (b.feed 0).paired)).map (refedEnd 1 (b.feed 1).paired) := by
    have he : b.softSettled.entry n = b.softFed.entry n := by rw [b.softSettled_eq ht]; rfl
    have hp : b.softRestarted.entry n = b.softPinned.entry n := congrArg (fun d : Directory => look n d.entries) b.dir_softRestarted
    rw [he]
    unfold softFed
    rw [entry_refeed, entry_refeed, hf, hf1, hp]
  rw [hd, entry_refreshReach, hs, Option.map_map, Option.map_map]
  rfl

omit ht in
/-- The pins that the kept jobs give an entry. -/
theorem jobPins_requeued (l : List Job) (n : DirNo) : jobPins (l.map requeued) n = (l.filter fun j => j.owner = n).length := by
  unfold jobPins
  rw [List.filter_map, List.length_map]
  exact congrArg List.length (List.filter_congr fun j _ => by simp [owner_requeued])

/-- The pins that the jobs which a soft reset keeps give an entry. -/
def keptPins (b : Bridge) (n : DirNo) : Nat := ((b.spool.jobs.filter fun j => !endsAtReset j).filter fun j => j.owner = n).length

variable (hr : rising b.dir.entries = true) (hp : b.spool.jobs.Pairwise fun x y => x.number ≠ y.number)
  {n : DirNo} {e : Entry} (he : b.entry n = some e)
include hr hp he

/-- An entry once the exchanges are closed and the pins counted anew. -/
theorem used_softPinned : (e.state = .retiring → b.keptPins n = 0 → b.softPinned.entry n = none) ∧ KeptAs e (b.softPinned.entry n) ∧
    ∀ x, b.softPinned.entry n = some x → x.pins = b.keptPins n := by
  have hc := (b.entriesKept_softClosed).used n e he
  have hfree := b.freed_softPinned.free n
  have hrc : rising b.softClosed.dir.entries = true := (b.freed_softClosed ht).entries (by
    show rising b.softEmptied.dir.entries = true
    rw [dir_softEmptied]
    exact hr)
  have hrs : rising (b.softStopped.modDir fun d => { d with staging := [] }).dir.entries = true := by
    show rising b.softStopped.dir.entries = true
    rw [dir_softStopped]
    exact hrc
  have hpins : jobPins (b.softStopped.modDir fun d => { d with staging := [] }).spool.jobs n = b.keptPins n := by
    show jobPins b.softStopped.spool.jobs n = _
    rw [b.jobs_softStopped ht hp, jobPins_requeued]
    rfl
  have hst : (b.softStopped.modDir fun d => { d with staging := [] }).entry n = b.softClosed.entry n := b.entry_softStopped n
  cases hx : b.softClosed.entry n with
  | none =>
    have hn := hfree (hst.trans hx)
    rw [hx] at hc
    refine ⟨fun _ _ => hn, hc.trans (fun _ => hn) (fun _ h => nomatch h), fun x h => ?_⟩
    rw [hn] at h
    cases h
  | some x =>
    have k := (b.softStopped.modDir fun d => { d with staging := [] }).entry_recomputePins hrs (hst.trans hx)
    rw [hpins] at k
    rw [hx] at hc
    unfold softPinned at hfree ⊢
    obtain ⟨kfree, kkept, kpins⟩ := k
    refine ⟨fun hret hz => kfree ⟨hc.kept.state.trans hret, hz⟩, ?_, kpins⟩
    exact hc.trans (fun h => nomatch h) fun y hy => Option.some.inj hy ▸ kkept

/-- What a soft reset leaves of an entry that it keeps (R57, R59, R64, R180). -/
structure SoftEntry (b c : Bridge) (n : DirNo) (e x : Entry) : Prop where
  state : x.state = e.state
  kind : x.kind = e.kind
  home : x.home = e.home
  visible : x.visible = e.visible
  shown : x.shown = e.shown
  age : x.age = e.age
  rights : x.rights = e.rights
  bridgeBit : x.bridgeBit = e.bridgeBit
  pins : x.pins = b.keptPins n
  reachable : x.reachable = c.reachOf x
  withdrawn : ∀ q : Port, x.withdrawn[q] = true → e.withdrawn[q] = true
  paired : (∃ i k, (b.feed i).paired = true ∧ e.home = .seg (lowerOf i) k) → x.endField = some .unknown
  unpaired : (∀ i k, (b.feed i).paired = true → e.home ≠ .seg (lowerOf i) k) → x.endField = e.endField

omit hr hp he in
theorem reachOf_softReset (x : Entry) : b.softReset.reachOf x = b.softSettled.reachOf x :=
  ((b.noticed_softReset ht).reachOf x).trans ((steady_refreshReach b.softSettled).reachOf x)

theorem softEntry_of_used {x : Entry} (hx : b.softReset.entry n = some x) : SoftEntry b b.softReset n e x := by
  obtain ⟨_, hk, hpins⟩ := b.used_softPinned ht hr hp he
  rw [b.entry_softReset ht] at hx
  obtain ⟨y, hy, rfl⟩ := Option.map_eq_some_iff.1 hx
  rw [hy] at hk
  have hk := hk.kept
  have hm := hk.map b.pinsFree_softEntry
  have hend := hm.endField.trans (b.endField_softEntry e)
  have hpin : (b.softEntry y).pins = b.keptPins n := (b.pinsFree_softEntry.pins y).trans (hpins y hy)
  have hreach : (b.softEntry y).reachable = b.softReset.reachOf (b.softEntry y) := (b.reachOf_softReset ht _).symm
  have hwith : ∀ q : Port, (b.softEntry y).withdrawn[q] = true → e.withdrawn[q] = true := by
    rw [b.pinsFree_softEntry.withdrawn]
    exact hk.withdrawn
  rw [softEntry_eq b e] at hm
  exact
    { state := hm.state, kind := hm.kind, home := hm.home, visible := hm.visible, shown := hm.shown, age := hm.age,
      rights := hm.rights, bridgeBit := hm.bridgeBit, pins := hpin, reachable := hreach, withdrawn := hwith,
      paired := fun ⟨i, k, hi, hh⟩ => hend.trans (if_pos ⟨i, hi, (Home.port?_eq_some _ _).2 ⟨k, hh⟩⟩),
      unpaired := fun h => hend.trans (if_neg fun ⟨i, hi, hh⟩ => by
        obtain ⟨k, hk⟩ := (Home.port?_eq_some _ _).1 hh
        exact h i k hi hk) }

/-- An entry that is not RETIRING stays, and so does its printer record, at its power-on value. -/
theorem softReset_stays (hs : e.state ≠ .retiring) :
    (∃ x, b.softReset.entry n = some x) ∧ (b.printer n ≠ none → b.softReset.printer n = some {}) := by
  obtain ⟨_, hk, _⟩ := b.used_softPinned ht hr hp he
  obtain ⟨x, hx, _⟩ := hk.used hs
  obtain ⟨y, hy, _⟩ := (b.entriesKept_softClosed.used n e he).used hs
  have hclosed : b.softClosed.printer n = b.printer n := by
    refine ((b.freed_softClosed ht).stays n y hy).trans ?_
    show b.softEmptied.printer n = _
    rw [softEmptied_eq]
    rfl
  have hpinned : b.softPinned.printer n = b.softStopped.printer n := b.freed_softPinned.stays n x hx
  refine ⟨⟨_, by rw [b.entry_softReset ht, hx]; rfl⟩, fun h => ?_⟩
  obtain ⟨r, hr⟩ := Option.ne_none_iff_exists'.1 h
  rw [b.printer_softReset ht, hpinned, printer_softStopped, hclosed, hr]
  rfl

/-- A RETIRING entry without pins is freed with its printer record (R57). -/
theorem softReset_frees (hs : e.state = .retiring) (hz : b.keptPins n = 0) :
    b.softReset.entry n = none ∧ b.softReset.printer n = none := by
  have hn := (b.used_softPinned ht hr hp he).1 hs hz
  refine ⟨by rw [b.entry_softReset ht, hn]; rfl, ?_⟩
  rw [b.printer_softReset ht]
  refine (b.freed_softPinned.gone n hn).elim (fun hst => b.freed_softPinned.noPrinter ?_) id
  have hc : b.softClosed.printer n = none :=
    ((b.freed_softClosed ht).gone n ((b.entry_softStopped n).symm.trans hst)).resolve_left fun h => by
      have h' := (b.entry_softEmptied n).symm.trans h
      rw [he] at h'
      cases h'
  show b.softStopped.printer n = none
  rw [printer_softStopped, hc]
  rfl

omit hr hp he in
theorem free_softReset (h : b.entry n = none) : b.softReset.entry n = none := by
  rw [b.entry_softReset ht, b.freed_softPinned.free n ((b.entry_softStopped n).trans (b.entriesKept_softClosed.free n h))]
  rfl

omit hr hp he in
/-- The bridge before the notices of stage 7 (R191). -/
theorem softEnded_leaves : b.softEnded.dir = b.softReset.dir ∧ b.softEnded.spool = b.softReset.spool ∧
    b.softEnded.ctl = b.softReset.ctl ∧ (∀ g, b.softEnded.group g = b.group g) ∧
    (∀ f ∈ b.softEnded.pair.queue, f.origin = .notice) ∧ (∀ p, ∀ f ∈ (b.softEnded.port p).class1, f.origin = .notice) ∧
    b.softReset = (b.spool.jobs.filter endsAtReset).foldl endNotice b.softEnded := by
  have hn := noticed_resetNotices b.spool.jobs b.softEnded
  rw [← softReset_eq] at hn
  have hd := b.noticed_softEnded ht
  obtain ⟨fs, es, ps, e, _⟩ := b.softSettled_shape ht
  obtain ⟨es', ps', e'⟩ := b.refreshReach_softShape (Vector.ofFn b.softPort) fs es ps b.softStopped.spool
  rw [e, e'] at hd
  refine ⟨hn.dir.symm, hn.spool.symm, hn.ctl.symm, fun g => ?_, ?_, fun p => ?_, ?_⟩
  · rw [b.softEnded_eq ht]
    refine (group_feedNotice _ 1 _ g).trans ((group_feedNotice _ 0 _ g).trans ?_)
    rw [e, e']
    rfl
  · obtain ⟨l, hl, hP⟩ := hd.queue
    rw [hl]
    exact hP
  · obtain ⟨l, hl, hP⟩ := hd.port p
    have hp : ((b.softShape (Vector.ofFn b.softPort) fs es' ps' b.softStopped.spool).setCtl b.softCtl).port p = b.softPort p :=
      b.port_softShape b.softPort fs es' ps' b.softStopped.spool p
    rw [hl, hp]
    exact hP
  · rw [softReset_eq, resetNotices_filter]

end

end Bridge

end Sys2Proof.Machine

/-! # The resets (O53). -/

namespace Sys2Proof.Machine
open Sys2Proof

/-! ## The clauses as they are stated -/

section
variable {E : Job → Prop} [DecidablePred E] (hE : ∀ j, E j ↔ endsAtReset j = true)
include hE

theorem filter_ends (l : List Job) : (l.filter fun j => E j) = l.filter endsAtReset :=
  List.filter_congr fun j _ => by rw [Bool.eq_iff_iff, decide_eq_true_iff, hE]

theorem filter_not_ends (l : List Job) : (l.filter fun j => ¬ E j) = l.filter fun j => !endsAtReset j :=
  List.filter_congr fun j _ => by
    rw [Bool.eq_iff_iff, decide_eq_true_iff, hE, Bool.not_eq_true', Bool.not_eq_true]

omit [DecidablePred E] in
/-- The numbers that stay in a logical printer's queue. -/
theorem staysQueued_iff (l : Lp) (jobs : List Job) (n : Nat) :
    Bridge.staysQueued l jobs n = true ↔ ∀ j ∈ jobs, j.number = n → j.lp = l → ¬ E j := by
  unfold Bridge.staysQueued
  rw [List.all_eq_true]
  refine forall₂_congr fun j _ => ?_
  rw [hE]
  by_cases hn : j.number = n <;> by_cases hl : j.lp = l <;> simp [hn, hl]

end

/-- The jobs that a stopped delivery returns to a logical printer's queue are among the kept ones. -/
theorem returned_eq (l : Lp) (jobs : List Job) : Bridge.returned l jobs =
    ((jobs.filter fun j => !endsAtReset j).filter fun j => j.state = .delivering ∧ j.lp = l).map (·.number) := by
  unfold Bridge.returned
  rw [List.filter_filter]
  refine congrArg _ (List.filter_congr fun j _ => ?_)
  cases endsAtReset j <;> simp

/-- Settles O53. The soft reset is followed stage by stage, to the notices of stage 7; the port reset to the conclusion of its restart, which
pins, unpins and lifts only. -/
theorem softAndPortResets : Obligations.SoftAndPortResets := by
  refine ⟨fun s w hr hw hd hk ht => ?_, fun s _ hs => ?_, exec_portReset_due, fun s p _ hs => ?_, changePairing_spelled,
    fun s w p hr hw hd hk => ?_, Bridge.resetPorts_eq⟩
  · obtain ⟨hphase, hcause, hwait, hsec, hlink, hset, hsetup, hex, hrep, hstag, hprep, hquest, hhand, hpwait, hqueue, hfeed, hdwait,
      hlp, hport⟩ := softReset_leaves s.bridge hr ht
    refine ⟨exec_softReset_due s w hr hw hd hk, hphase, hcause, hwait, hsec, hlink, hset, hsetup, hex, hrep, hstag, hprep, hquest,
      hhand, hpwait, hqueue, fun i hi => ?_, hdwait, hlp, fun p => ?_⟩
    · rw [hfeed i]
      unfold Bridge.softFeed
      rw [hi]
      rfl
    · obtain ⟨l, hl, hP⟩ := hport p
      rw [Bridge.mon_eq, hl]
      exact ⟨rfl, hP, rfl, rfl, rfl, rfl, rfl, rfl, rfl, rfl, rfl, rfl⟩
  · have ht : ∀ x ∈ s.bridge.exchanges, x.1 ≤ 15 := fun x hx => Nat.le_of_lt_succ (hs.tags x hx)
    have hE (j : Job) := (endsAtReset_iff j).symm
    intro b c ends kept
    have hends : (b.spool.jobs.filter fun j => ends j) = b.spool.jobs.filter endsAtReset := filter_ends hE _
    have hkept : kept = b.spool.jobs.filter fun j => !endsAtReset j := filter_not_ends hE _
    rw [hends, hkept]
    refine ⟨?_, b.freeList_softReset ht, b.jobCounter_softReset ht, fun l => ?_, fun n r hr => ?_,
      fun n hn => b.free_softReset ht hn, fun n e he => ?_, b.softEnded, b.softEnded_leaves ht⟩
    · exact (congrArg Spool.jobs (b.spool_softReset ht)).trans (b.jobs_softStopped ht hs.jobs)
    · obtain ⟨hb, ha⟩ := b.binding_softReset ht l
      refine ⟨hb, ha, (b.queue_softReset ht hs.jobs l).trans ?_⟩
      rw [returned_eq]
      refine congrArg _ (List.filter_congr fun n _ => ?_)
      rw [Bool.eq_iff_iff, decide_eq_true_iff]
      exact staysQueued_iff hE l b.spool.jobs n
    · exact b.printer_softPinned n ((b.printer_softReset ht n).symm.trans hr)
    · intro pins fits
      have hfits (x : Entry) (hx : c.entry n = some x) : fits x := by
        have h := b.softEntry_of_used ht hs.entries hs.jobs he hx
        exact ⟨h.state, h.kind, h.home, h.visible, h.shown, h.age, h.rights, h.bridgeBit, h.pins, h.reachable, h.withdrawn,
          h.paired, h.unpaired⟩
      refine ⟨fun hret => ?_, b.softReset_frees ht hs.entries hs.jobs he, fun _ => hfits⟩
      obtain ⟨⟨x, hx⟩, hpr⟩ := b.softReset_stays ht hs.entries hs.jobs he hret
      exact ⟨⟨x, hx, hfits x hx⟩, hpr⟩
  · obtain ⟨hgroup, hprinter, hfree, hentry⟩ := portReset_records s p hs
    refine ⟨hgroup, hprinter, hfree, fun n e he => ?_⟩
    obtain ⟨hstays, hfreed, hleft, hretiring⟩ := hentry n e he
    refine ⟨fun hl hret => ?_, hfreed, fun h x hx => ?_⟩
    · obtain ⟨x, hx, h⟩ := hstays hl hret
      exact ⟨x, hx, h.fits, h.state, h.rights⟩
    · obtain hl | hret := h
      · exact ⟨(hleft hl x hx).fits, (hleft hl x hx).state⟩
      · exact ⟨(hretiring hret x hx).fits, (hretiring hret x hx).state.trans hret⟩
  · obtain ⟨t, ht, hphase, hcause, hwait, hlink, hset, hstag, hrep, hfeed, hother, hreset⟩ := portReset_leaves s w p hr hw hd hk
    refine ⟨t, ht, hphase, hcause, hwait, hlink, hset, hstag, hrep, hfeed, hother, fun q hq => ?_⟩
    obtain ⟨hmon, hallow, hrem⟩ := hreset q hq
    rw [hmon]
    exact ⟨rfl, rfl, rfl, rfl, rfl, hallow, hrem⟩

end Sys2Proof.Machine

/-! # Free data between coax and pair (O25, O26). -/

namespace Sys2Proof
open Machine

/-! ## The exchange of the bytes of each complete pair (R35, R36) -/

theorem length_swapPairs : ∀ l : List Byte, (swapPairs l).length = l.length
  | [] => rfl
  | [_] => rfl
  | x :: y :: l => by simp [swapPairs, length_swapPairs l]

theorem getElem?_swapPairs_pair : ∀ (l : List Byte) (i : Nat), 2 * i + 1 < l.length →
    (swapPairs l)[2 * i]? = l[2 * i + 1]? ∧ (swapPairs l)[2 * i + 1]? = l[2 * i]?
  | [], i, h => by simp at h
  | [_], i, h => by simp at h
  | x :: y :: l, 0, _ => ⟨rfl, rfl⟩
  | x :: y :: l, i + 1, h => getElem?_swapPairs_pair l i (by simp only [List.length_cons] at h; omega)

theorem getElem?_swapPairs_last : ∀ l : List Byte, l.length % 2 = 1 → (swapPairs l)[l.length - 1]? = l[l.length - 1]?
  | [], h => by simp at h
  | [_], _ => rfl
  | x :: y :: l, h => by
    have hl : l.length % 2 = 1 := by simp only [List.length_cons] at h; omega
    obtain ⟨n, hn⟩ : ∃ n, l.length = n + 1 := ⟨l.length - 1, by omega⟩
    have ih := getElem?_swapPairs_last l hl
    simpa [swapPairs, hn] using ih

theorem length_inOrder (o : Order) (l : List Byte) : (inOrder o l).length = l.length := by
  cases o with
  | asSent => rfl
  | swapped => exact length_swapPairs l

/-! ## From coax to pair (R35) -/

namespace Block

theorem content_eq (b : Block) (h : b.payload.length % 2 = 0) :
    b.content = if b.pad then b.payload.take (2 * b.length - 1) else b.payload := by
  have hl : 2 * b.length = b.payload.length := by unfold length; omega
  rw [content, hl, List.dropLast_eq_take]

theorem length_content (b : Block) (h : b.payload.length % 2 = 0) :
    b.content.length = if b.pad then 2 * b.length - 1 else 2 * b.length := by
  have hl : 2 * b.length = b.payload.length := by unfold length; omega
  rw [content, hl]
  split
  · exact List.length_dropLast
  · rfl

end Block

/-- Settles O25: the content's length, and the exchange pair by pair. -/
theorem coaxToPairConversion : Obligations.CoaxToPairConversion := by
  intro blk heven hmax _ bytes
  have hb : blk.content = bytes := blk.content_eq heven
  have hlen : bytes.length = if blk.pad then 2 * blk.length - 1 else 2 * blk.length := hb ▸ blk.length_content heven
  have hle : bytes.length ≤ 1024 := by
    have : 2 * blk.length = blk.payload.length := by unfold Block.length; omega
    rw [hlen]
    split <;> omega
  rw [hb]
  exact ⟨rfl, rfl, hlen, hle, length_swapPairs bytes, getElem?_swapPairs_pair bytes, getElem?_swapPairs_last bytes⟩

/-! ## From pair to coax (R36) -/

theorem getElem?_wordsOf : ∀ (l : List Byte) (i : Nat), 2 * i < l.length →
    (wordsOf l)[i]? = some (l.getD (2 * i) 0 ++ l.getD (2 * i + 1) 0)
  | [], i, h => by simp at h
  | [x], i, h => by
    obtain rfl : i = 0 := by simp at h; omega
    rfl
  | x :: y :: l, 0, _ => rfl
  | x :: y :: l, i + 1, h => getElem?_wordsOf l i (by simp only [List.length_cons] at h; omega)

theorem padded_eq (l : List Byte) : padded l = (l ++ (if l.length % 2 = 1 then [0] else []), decide (l.length % 2 = 1)) := by
  unfold padded
  split <;> simp_all

theorem Block.payload_build (dst src : Nat) (k : Kind) (seq : Bool) (l : List Byte) :
    (Block.build dst src k seq l).payload = l ++ (if l.length % 2 = 1 then [0] else []) := by
  rw [Block.build, padded_eq]

theorem Block.length_build (dst src : Nat) (k : Kind) (seq : Bool) (l : List Byte) :
    (Block.build dst src k seq l).length = (l.length + 1) / 2 := by
  rw [Block.length, payload_build]
  split
  · simp
  · simp; omega

/-- Settles O26: the exchange pair by pair, and the padding of an odd length. -/
theorem pairToCoaxConversion : Obligations.PairToCoaxConversion := by
  refine ⟨fun o l dst src k seq _ => ?_, fun _ _ _ _ _ => rfl⟩
  intro data blk
  have hdata : data.length = l.length := length_inOrder o l
  have hpayload : blk.payload = data ++ (if data.length % 2 = 1 then [0] else []) := Block.payload_build dst src k seq data
  have hlen : blk.length = (data.length + 1) / 2 := Block.length_build dst src k seq data
  have hpad : blk.pad = decide (data.length % 2 = 1) := congrArg Prod.snd (padded_eq data)
  have hwords (i : Nat) (h : i < blk.length) : 2 * i < blk.payload.length := by unfold Block.length at h; omega
  rw [← hdata]
  refine ⟨rfl, fun ho => by subst ho; rfl, fun ho => ?_, hlen, by rw [hpad, decide_eq_true_iff], hpayload,
    fun i hi => getElem?_wordsOf blk.payload i (hwords i hi)⟩
  subst ho
  rw [hdata]
  exact ⟨getElem?_swapPairs_pair l, getElem?_swapPairs_last l⟩

end Sys2Proof

/-! # Frames from pair hosts, and registration by HELLO (O22, O23). -/

namespace Sys2Proof.Machine
open Sys2Proof

namespace Bridge

/-! ## A frame that the filters let through (R24 to R26) -/

theorem receiveFrame_carries (b : Bridge) {f : EtherIn} {c : Carrier} (h : b.carries f c) : b.receiveFrame f = b.knowSender c := by
  obtain ⟨hlink, hfcs, hlen, hdst, htype, hgroup, hsrc, hread⟩ := h
  have hdst' : ¬ (f.dst ≠ b.settings.pairAddress ∧ f.dst ≠ BitVec.allOnes 48) := by rwa [not_and_or, not_not, not_not]
  rw [receiveFrame_eq, if_neg (by simp [hlink]), if_neg (by simp [hfcs]), if_neg (by omega), if_neg hdst',
    if_neg (not_not.2 htype), if_neg (by rw [hgroup]; simp [hsrc]), hread]

theorem knowSender_known (b : Bridge) {c : Carrier} {n : DirNo} {e : Entry} (hk : c.kind ≠ .hello)
    (h : findMac b.dir.entries c.mac = some (n, e)) : b.knowSender c = b.fromKnown c n := by
  simp only [knowSender, hk, h, if_false]

theorem knowSender_unknown (b : Bridge) {c : Carrier} (hk : c.kind ≠ .hello) (h : findMac b.dir.entries c.mac = none)
    (hm : ¬ (b.agent.setup = true ∧ c.kind = .manage ∧ c.dst = 1)) : b.knowSender c = b.count 4 .unknownSource := by
  have hm' : ¬ (b.agent.setup && decide (c.kind = .manage) && decide (c.dst = 1)) = true := by simpa [and_assoc] using hm
  simp only [knowSender, hk, h, if_false, if_neg hm']
  rfl

/-- The setup state lets an unknown host manage (R26, R182). -/
theorem knowSender_setup (b : Bridge) {c : Carrier} (h : findMac b.dir.entries c.mac = none) (hs : b.agent.setup = true)
    (hk : c.kind = .manage) (hd : c.dst = 1) :
    b.knowSender c = b.manageRecord (.pair c.mac c.dst c.tag c.seq none) c.data := by
  have hne : c.kind ≠ .hello := by rw [hk]; decide
  have hm : (b.agent.setup && decide (c.kind = .manage) && decide (c.dst = 1)) = true := by simp [hs, hk, hd]
  simp only [knowSender, hne, h, if_false, if_pos hm]

/-! ## Registration (R28) -/

theorem answerHello_room (b : Bridge) (c : Carrier) (kind : Kind) (reason dst : Nat) (hl : b.pair.link = true)
    (hq : b.pair.queue.length < 48) : b.answerHello c kind reason dst =
      b.queuedPair { mac := c.mac, kind, reason, seq := c.seq, tag := c.tag, dst, src := 1 } .answer := by
  rw [answerHello, sendPair_accepted b _ _ hl hq]

theorem answerHello_full (b : Bridge) (c : Carrier) (kind : Kind) (reason dst : Nat) (hl : b.pair.link = true)
    (hq : 48 ≤ b.pair.queue.length) : b.answerHello c kind reason dst = (b.setSerial (b.serial + 1)).count 4 .answerDropped := by
  rw [answerHello, sendPair_refused b _ _ hl hq]
  rfl

theorem knowSender_hello (b : Bridge) {c : Carrier} (hk : c.kind = .hello) : b.knowSender c = b.hello c := if_pos hk

theorem hello_known (b : Bridge) {c : Carrier} {n : DirNo} {e : Entry} (h : findMac b.dir.entries c.mac = some (n, e)) :
    b.hello c = (b.heardFrom n).answerHello c .hello 0 n := by
  simp only [hello, h]

theorem hello_refused (b : Bridge) {c : Carrier} (h : findMac b.dir.entries c.mac = none)
    (hr : retiringMac b.dir.entries c.mac = true ∨ b.settings.pairLearning = false) : b.hello c = b.answerHello c .fail 4 0 := by
  have hr' : retiringMac b.dir.entries c.mac = true ∨ (!b.settings.pairLearning) = true := by simpa using hr
  simp only [hello, h, if_pos hr']
  rfl

section
variable (b : Bridge) {c : Carrier} (h : findMac b.dir.entries c.mac = none) (hr : retiringMac b.dir.entries c.mac = false)
  (hl : b.settings.pairLearning = true)
include h hr hl

theorem hello_learns {n : DirNo} (hn : lowestFree b.dir.entries = some n) :
    b.hello c = (b.modEntries (put n (b.registeredEntry c.mac))).answerHello c .hello 0 n := by
  have hr' : ¬ (retiringMac b.dir.entries c.mac = true ∨ (!b.settings.pairLearning) = true) := by simp [hr, hl]
  simp only [hello, h, if_neg hr', hn]

theorem hello_full (hn : lowestFree b.dir.entries = none) :
    b.hello c = (b.countCapture 6 .mapFull (.learnPair c.mac)).answerHello c .fail 10 0 := by
  have hr' : ¬ (retiringMac b.dir.entries c.mac = true ∨ (!b.settings.pairLearning) = true) := by simp [hr, hl]
  simp only [hello, h, if_neg hr', hn]
  rfl

end

theorem lowestFree_of_lowest (es : Entries) {n : Nat} (h10 : 10 ≤ n) (h384 : n ≤ 384) (hn : look n es = none)
    (hlow : ∀ m, 10 ≤ m → m < n → look m es ≠ none) : lowestFree es = some n := by
  have hsplit : List.range' 10 375 = List.range' 10 (n - 10) ++ n :: List.range' (n + 1) (384 - n) := by
    have h1 : n :: List.range' (n + 1) (384 - n) = List.range' n (385 - n) := by
      rw [show 385 - n = (384 - n) + 1 by omega, List.range'_succ]
    have h2 := List.range'_append_1 (s := 10) (m := n - 10) (n := 385 - n)
    rw [show 10 + (n - 10) = n by omega, show n - 10 + (385 - n) = 375 by omega] at h2
    rw [h1, h2]
  rw [lowestFree, hsplit, List.find?_append, List.find?_eq_none.2, Option.none_or, List.find?_cons_of_pos (by simp [hn])]
  intro m hm
  obtain ⟨hm1, hm2⟩ := List.mem_range'_1.1 hm
  simpa [Option.isNone_iff_eq_none] using hlow m hm1 (by omega)

theorem lowestFree_none (es : Entries) (h : ∀ n, 10 ≤ n → n ≤ 384 → look n es ≠ none) : lowestFree es = none := by
  refine List.find?_eq_none.2 fun n hn => ?_
  obtain ⟨h1, h2⟩ := List.mem_range'_1.1 hn
  simpa [Option.isNone_iff_eq_none] using h n h1 (by omega)

end Bridge

theorem exec_pairFrameReceive_carries (s : State) {f : EtherIn} {c : Carrier} (hr : s.takesTraffic) (h : s.bridge.carries f c) :
    exec (.pairFrameReceive f) s = .next (s.after [] (s.bridge.knowSender c)) := by
  rw [exec_pairFrameReceive s f hr, s.bridge.receiveFrame_carries h]

/-- Settles O22, by what the directory knows of the sender's MAC. -/
theorem knownHostFrameIsHandedOn : Obligations.KnownHostFrameIsHandedOn := by
  intro s f c hr hc hk
  rw [exec_pairFrameReceive_carries s hr hc]
  refine ⟨fun n e h => ?_, fun h hm => ?_, fun h hs hk hd => ?_⟩
  · rw [s.bridge.knowSender_known hk h]
    exact ⟨_, rfl⟩
  · rw [s.bridge.knowSender_unknown hk h hm]
  · rw [s.bridge.knowSender_setup h hs hk hd]

/-- Settles O23, by what registration finds in the directory. -/
theorem helloTakesTheLowestFreeEntry : Obligations.HelloTakesTheLowestFreeEntry := by
  intro s f c hr hc hk hq
  have hl : s.bridge.pair.link = true := hc.1
  rw [exec_pairFrameReceive_carries s hr hc, s.bridge.knowSender_hello hk]
  refine ⟨fun n e h => ?_, fun n h hm hp h10 h384 hn hlow => ?_, fun h hm => ?_⟩
  · rw [s.bridge.hello_known h, Bridge.answerHello_room (s.bridge.heardFrom n) c _ _ _ hl hq]
    rfl
  · rw [s.bridge.hello_learns h hm hp (Bridge.lowestFree_of_lowest _ h10 h384 hn hlow),
      Bridge.answerHello_room (s.bridge.modEntries (put n (s.bridge.registeredEntry c.mac))) c _ _ _ hl hq]
    rfl
  · rw [s.bridge.hello_refused h hm, s.bridge.answerHello_room c _ _ _ hl hq]

end Sys2Proof.Machine

/-! # Counts, captures, notices and detections (O60). -/

namespace Sys2Proof.Machine
open Sys2Proof

namespace Bridge

/-! ## Captures (R185) -/

theorem capture_held (b : Bridge) (g : Fin 9) (kind : Ctr) (detail : ErrorDetail) {e : FirstError} (h : (b.group g).first = some e) :
    b.capture g kind detail = b.modGroup g fun x => { x with multiple := true } := by
  simp only [capture, h]

/-- The record of a group's first error (R185). -/
def firstError (b : Bridge) (kind : Ctr) (detail : ErrorDetail) : FirstError :=
  { kind, time := min ((b.ctl.now - b.ctl.secondsFrom) / 125000) 4294967295, detail }

theorem capture_first (b : Bridge) (g : Fin 9) (kind : Ctr) (detail : ErrorDetail) (h : (b.group g).first = none) :
    b.capture g kind detail =
      if g.val < 4 then b.modGroup g fun x => { x with first := some (b.firstError kind detail) }
      else (b.modGroup g fun x => { x with first := some (b.firstError kind detail) }).notify
        (.error g (b.firstError kind detail)) := by
  by_cases hg : g.val < 4
  · have hs : ¬ sendsErrorNotice g = true := by simp [sendsErrorNotice]; omega
    simp only [capture, h, if_pos hg, if_neg hs]
    rfl
  · have hs : sendsErrorNotice g = true := by simp [sendsErrorNotice]; omega
    simp only [capture, h, if_neg hg, if_pos hs]
    rfl

/-! ## A frame offered to class 1 of several ports (R17) -/

theorem hasPlace_iff (b : Bridge) (p : Port) : b.hasPlace p = true ↔ ¬ b.full1 p := by
  simp [hasPlace, full1, Config.class1Size]

theorem offer1_eq (b : Bridge) (p : Port) (f : CoaxFrame) : b.offer1 p f =
    b.modPort p fun x => if x.class1.length < 24 then { x with class1 := x.class1 ++ [f] } else x := by
  unfold offer1
  split
  · rename_i h
    exact b.modPort_congr p (if_pos (of_decide_eq_true h)).symm
  · rename_i h
    exact (b.modPort_id p _ (if_neg fun hlt => h (decide_eq_true hlt))).symm

theorem foldl_offer1 (b : Bridge) (ps : List Port) (f : CoaxFrame) (h : ps.Nodup) :
    ps.foldl (fun c p => c.offer1 p f) b = b.queuedOn ps f := by
  rw [foldl_onPorts (fun c p => c.offer1 p f)
    (fun _ _ _ x => if x.class1.length < 24 then { x with class1 := x.class1 ++ [f] } else x) (fun c p => c.offer1_eq p f) ps h b]
  refine congrArg b.setPorts (congrArg Vector.ofFn (funext fun q => ?_))
  by_cases hq : q ∈ ps <;> simp [hq]

theorem sendEach_nodup (b : Bridge) (ps : List Port) (blk : Block) (o : Origin) (named : Option Port) (h : ps.Nodup) :
    b.sendEach ps blk o named = (ps.filter fun p => !b.hasPlace p, b.offeredOn ps blk o named) :=
  congrArg (Prod.mk _) (b.nextSerial.foldl_offer1 ps _ h)

theorem endsFor_nodup (b : Bridge) (p : Port) (e : Option EndField) : (b.endsFor p e).Nodup := by
  unfold endsFor
  split
  · split
    · simp
    · simp
    · exact List.Nodup.filter _ (by simp [lowerOf_ne_upperOf])
  · simp

/-- Every one of several ports refuses a frame exactly where each holds 24 frames of class 1. -/
theorem refused_all_iff (b : Bridge) (ps : List Port) :
    (ps.filter fun p => !b.hasPlace p).length = ps.length ↔ ∀ q ∈ ps, b.full1 q := by
  rw [List.length_filter_eq_length_iff]
  refine forall₂_congr fun q _ => ?_
  rw [Bool.not_eq_true', ← Bool.not_eq_true, hasPlace_iff, not_not]

/-! ## Notices (R187) -/

/-- A notice that its destination may be sent is counted where every copy of it is lost at once. -/
theorem noticeTo_placed (b : Bridge) (ev : NoticeEvent) {n : DirNo} {e : Entry} (he : b.entry n = some e)
    (hs : e.state ≠ .retiring) (hr : e.reachable = true) {lost : Bool} {c : Bridge}
    (hp : b.placeNotice .notice n e b.bridgeNumberOn 1 (b.noticeRecord ev) = (lost, c)) :
    b.noticeTo (some n) ev = if lost = true then c.countNoticeDropped else c := by
  simp only [noticeTo, he, if_pos (And.intro hs hr), hp]
  cases lost <;> rfl

theorem noticeTo_unused (b : Bridge) (ev : NoticeEvent) {n : DirNo} {e : Entry} (he : b.entry n = some e)
    (h : e.state = .retiring ∨ e.reachable = false) : b.noticeTo (some n) ev = b.countNoticeDropped := by
  have h' : ¬ (e.state ≠ .retiring ∧ e.reachable = true) := by
    rintro ⟨hs, hr⟩
    exact h.elim hs (by simp [hr])
  simp only [noticeTo, he, if_neg h']

theorem noticeTo_free (b : Bridge) (ev : NoticeEvent) {n : DirNo} (h : b.entry n = none) :
    b.noticeTo (some n) ev = b.countNoticeDropped := by
  simp only [noticeTo, h]

section
variable (b : Bridge) (ev : NoticeEvent) {n : DirNo} {e : Entry}

theorem noticeTo_pair (he : b.entry n = some e) (hs : e.state ≠ .retiring) (hr : e.reachable = true) {mac : Mac} {o : Order}
    (hh : e.home = .pair mac o) :
    let c := b.offeredPair { mac, kind := .notice, dst := n, src := 1, data := b.noticeRecord ev } .notice
    b.noticeTo (some n) ev = if b.pair.link = true ∧ b.pair.queue.length < 48 then c else c.countNoticeDropped := by
  intro c
  by_cases hq : b.pair.link = true ∧ b.pair.queue.length < 48
  · have hp : b.placeNotice .notice n e b.bridgeNumberOn 1 (b.noticeRecord ev) = (false, c) := by
      rw [show c = _ from if_pos hq]
      simp only [placeNotice, hh, sendPair_accepted b _ _ hq.1 hq.2]
      rfl
    rw [if_pos hq, b.noticeTo_placed ev he hs hr hp]
    rfl
  · have hp : b.placeNotice .notice n e b.bridgeNumberOn 1 (b.noticeRecord ev) = (true, c) := by
      obtain ⟨x, hx, hsend⟩ := sendPair_not b { mac, kind := .notice, dst := n, src := 1, data := b.noticeRecord ev } .notice
        (by rw [← Bool.not_eq_true, ← Nat.not_lt]; exact not_and_or.1 hq)
      rw [show c = _ from if_neg hq]
      simp only [placeNotice, hh, hsend, ne_eq, hx, not_false_eq_true, decide_true]
    rw [if_neg hq, b.noticeTo_placed ev he hs hr hp]
    rfl

theorem noticeTo_numberless (he : b.entry n = some e) (hs : e.state ≠ .retiring) (hr : e.reachable = true) {p : Port} {num : Nat}
    (hh : e.home = .seg p num) (hk : b.bridgeNumberOn (b.segmentOf p) = none) : b.noticeTo (some n) ev = b.countNoticeDropped := by
  have hp : b.placeNotice .notice n e b.bridgeNumberOn 1 (b.noticeRecord ev) = (true, b) := by simp only [placeNotice, hh, hk]
  rw [b.noticeTo_placed ev he hs hr hp]
  rfl

theorem noticeTo_segment (he : b.entry n = some e) (hs : e.state ≠ .retiring) (hr : e.reachable = true) {p : Port} {num k : Nat}
    (hh : e.home = .seg p num) (hk : b.bridgeNumberOn (b.segmentOf p) = some k) :
    let ps := b.endsFor p e.endField
    let c := b.offeredOn ps (Block.build num k .notice false (b.noticeRecord ev)) .notice none
    ((∃ q ∈ ps, ¬ b.full1 q) → b.noticeTo (some n) ev = c) ∧
    ((∀ q ∈ ps, b.full1 q) → b.noticeTo (some n) ev = c.countNoticeDropped) := by
  intro ps c
  have hp : b.placeNotice .notice n e b.bridgeNumberOn 1 (b.noticeRecord ev) =
      (decide ((ps.filter fun p => !b.hasPlace p).length = ps.length), c) := by
    simp only [placeNotice, hh, hk, sendEach_nodup b _ _ _ _ (b.endsFor_nodup p e.endField)]
    rfl
  have hlost := decide_eq_true_iff.trans (b.refused_all_iff ps)
  rw [b.noticeTo_placed ev he hs hr hp]
  exact ⟨fun ⟨q, hq, hfull⟩ => if_neg fun h => hfull (hlost.1 h q hq), fun h => if_pos (hlost.2 h)⟩

end

/-! ## Detections (R165) -/

section
variable (b : Bridge) (p : Port) (k : FaultKind) (response : Bridge → Bridge)

theorem detect_again (h : (b.mon p).latched.has k = true) :
    b.detect p k response = response (b.count (lineGroup p) (faultCtr k)) := by
  have hl : (b.countLine p (faultCtr k)).latch p k = b.countLine p (faultCtr k) := if_pos h
  simp only [detect, hl, h, Bool.not_true, Bool.false_and, Bool.false_eq_true, if_false]
  rfl

theorem detect_new (h : (b.mon p).latched.has k = false) :
    let d := response (((b.count (lineGroup p) (faultCtr k)).modMon p fun m =>
      { m with latched := FaultSet.put m.latched k true }).capture (lineGroup p) (faultCtr k) (.fault p k))
    b.detect p k response = if (d.portSettings p).report.has k = true then d.notify (.fault p k (d.mon p).state) else d := by
  have hl : (b.countLine p (faultCtr k)).latch p k = ((b.count (lineGroup p) (faultCtr k)).modMon p fun m =>
      { m with latched := FaultSet.put m.latched k true }).capture (lineGroup p) (faultCtr k) (.fault p k) :=
    if_neg (Bool.eq_false_iff.1 h)
  simp only [detect, hl, h, Bool.not_false, Bool.true_and]

end

end Bridge

theorem FaultSet.has_put (x : FaultSet) (k j : FaultKind) (v : Bool) : (FaultSet.put x k v).has j = if j = k then v else x.has j := by
  cases k <;> cases j <;> rfl

/-- A counter's name follows its fault kind (R165). -/
theorem eq_faultCtr {k : FaultKind} {c : Ctr} (hshort : k = .short → c = .short) (hopen : k = .openLine → c = .openLine)
    (hjabber : k = .jabber → c = .jabber) (hlow : k = .lowSignal → c = .lowSignal) : c = faultCtr k := by
  cases k with
  | short => exact hshort rfl
  | openLine => exact hopen rfl
  | jabber => exact hjabber rfl
  | lowSignal => exact hlow rfl

/-- Settles O60: captures, notices and detections case by case, and the HELLO that finds the directory full. -/
theorem errorsAreCapturedAndNoticed : Obligations.ErrorsAreCapturedAndNoticed := by
  refine ⟨fun _ _ _ => rfl, fun b g kind detail =>
      ⟨fun e h => b.capture_held g kind detail h, fun h => b.capture_first g kind detail h⟩,
    fun _ _ => rfl, fun b ev n => ⟨rfl, fun h => b.noticeTo_free ev h, fun e he => ⟨fun h => b.noticeTo_unused ev he h,
      fun mac o hs hr hh => b.noticeTo_pair ev he hs hr hh, fun p num hs hr hh => ⟨fun hk => b.noticeTo_numberless ev he hs hr hh hk,
        fun k hk => b.noticeTo_segment ev he hs hr hh hk⟩⟩⟩,
    fun b p k c response hshort hopen hjabber hlow => ?_, fun s f c ht hc hk h hr hl hf => ?_, fun k x v => ⟨?_, fun j hj => ?_⟩⟩
  · rw [eq_faultCtr hshort hopen hjabber hlow]
    exact ⟨b.detect_again p k response, b.detect_new p k response⟩
  · intro g refusal
    have hlink : g.pair.link = true := (s.bridge.steady_countCapture 6 .mapFull (.learnPair c.mac)).link.trans hc.1
    have hexec : exec (.pairFrameReceive f) s = .next (s.after [] (g.answerHello c .fail 10 0)) := by
      rw [exec_pairFrameReceive_carries s ht hc, s.bridge.knowSender_hello hk,
        s.bridge.hello_full h hr hl (Bridge.lowestFree_none _ hf)]
      rfl
    rw [hexec]
    refine ⟨fun hq => ?_, fun hq => ?_⟩
    · rw [g.answerHello_room c _ _ _ hlink hq]
    · rw [g.answerHello_full c _ _ _ hlink hq]
  · rw [FaultSet.has_put, if_pos rfl]
  · rw [FaultSet.has_put, if_neg hj]

end Sys2Proof.Machine

/-! # The end of the configuration load (O52). -/

namespace Sys2Proof.Machine
open Sys2Proof

/-! ## Writing a list of values under their numbers -/

theorem look_foldl_put_absent {α β : Type} (g : β → α) (n : Nat) : ∀ (l : List (Nat × β)) (es : List (Nat × α)),
    (∀ y, (n, y) ∉ l) → look n (l.foldl (fun es x => put x.1 (g x.2) es) es) = look n es
  | [], _, _ => rfl
  | (k, y) :: l, es, h => by
    have hk : n ≠ k := fun e => h y (e ▸ List.mem_cons_self)
    rw [List.foldl_cons, look_foldl_put_absent g n l _ fun z hz => h z (List.mem_cons_of_mem _ hz)]
    exact look_put_ne hk _ es

/-- Of values under different numbers each is found under its own. -/
theorem look_foldl_put_mem {α β : Type} (g : β → α) {n : Nat} {y : β} : ∀ (l : List (Nat × β)) (es : List (Nat × α)),
    l.Pairwise (fun a b => a.1 ≠ b.1) → (n, y) ∈ l → look n (l.foldl (fun es x => put x.1 (g x.2) es) es) = some (g y)
  | (k, z) :: l, es, hp, h => by
    obtain ⟨hk, hp⟩ := List.pairwise_cons.1 hp
    rw [List.foldl_cons]
    rcases List.mem_cons.1 h with h | h
    · obtain ⟨rfl, rfl⟩ := Prod.mk.inj h
      rw [look_foldl_put_absent g n l _ fun w hw => hk _ hw rfl]
      exact look_put_self n _ es
    · exact look_foldl_put_mem g l _ hp h

namespace Bridge

/-! ## A change that lets no port transmit less -/

theorem feedNotice_same (b : Bridge) (i : PairNo) {s : FeedState} (h : (b.feed i).state = s) : b.feedNotice i s = b :=
  if_neg fun hs => hs.1 h

/-- Where no port could transmit before, the feed states are as they were and nothing is flushed, a change is concluded by the reach
alone. -/
theorem concludeChange_reach (b before : Bridge) (hb : ∀ p, before.canTransmit p = false)
    (hf : ∀ i, (b.feed i).state = (before.feed i).state) : b.concludeChange before [] = b.refreshReach := by
  have hlost : ((List.finRange 4).filter fun p => before.canTransmit p && !b.canTransmit p) = [] := by simp [hb]
  have h0 : b.refreshReach.feedNotice 0 (before.feed 0).state = b.refreshReach := feedNotice_same _ 0 (hf 0)
  have h1 : b.refreshReach.feedNotice 1 (before.feed 1).state = b.refreshReach := feedNotice_same _ 1 (hf 1)
  unfold concludeChange
  dsimp only
  rw [hlost, List.isEmpty_nil, if_pos rfl, h0, h1]
  rfl

/-! ## What starts at the end of the load (R192) -/

/-- Every port restarted, its latches empty (R172). -/
theorem foldl_restartPort (b : Bridge) : (List.finRange 4).foldl (fun b p => b.restartPort p {}) b =
    b.setPorts (Vector.ofFn fun p => restarted b.ctl.now b.settings.port[p] {} (b.port p)) := by
  have h := foldl_onPorts (fun b p => b.restartPort p {}) (fun c y p => restarted c.now y.port[p] {})
    (fun b p => b.restartPort_eq p {}) _ (List.nodup_finRange 4) b
  simp only [List.mem_finRange, if_true] at h
  exact h

/-- The part with its ports and timers started, before the feed controllers take the report of their ends (R172, R192). -/
def timed (b : Bridge) : Bridge :=
  { b with
    ctl := { b.ctl with phase := .running },
    ports := Vector.ofFn fun p => restarted b.ctl.now b.settings.port[p] {} (b.port p),
    pair := { b.pair with waitFrom := if b.pair.indication then some b.ctl.now else none },
    dir := { b.dir with ageingDue := b.ctl.now + 125000 * b.settings.ageingPeriod },
    refillDue := b.ctl.now + 125,
    delivery := { b.delivery with printers := (b.dir.entries.filter fun x => x.2.kind = .printer).map fun x => (x.1, {}) } }

theorem startUp_eq_timed (b : Bridge) : b.startUp = b.timed.followBoth.2.concludeChange b.timed b.timed.followBoth.1 := by
  unfold startUp
  rw [foldl_restartPort]
  rfl

theorem port_timed (b : Bridge) (p : Port) : b.timed.port p = restarted b.ctl.now b.settings.port[p] {} (b.port p) := by
  simp [timed, port]

theorem mon_timed (b : Bridge) (p : Port) : b.timed.mon p = Monitor.restart b.ctl.now (b.portSettings p) {} := by
  rw [mon_eq, port_timed]
  rfl

/-- The part once the feed controllers have taken the report of their ends (R180). -/
def started (b : Bridge) : Bridge := (b.timed.modFeed 0 fun _ => b.softFeed 0).modFeed 1 fun _ => b.softFeed 1

theorem feed_started (b : Bridge) (i : PairNo) : b.started.feed i = b.softFeed i := by
  revert i
  rw [Fin.forall_fin_two]
  exact ⟨(feed_modFeed_ne _ (by decide) _).trans (feed_modFeed_self _ 0 _), feed_modFeed_self _ 1 _⟩

/-- With its feed controllers restarted, what starts at the end of the load starts, and every entry's reach is computed. -/
theorem startUp_eq (b : Bridge) (hf : ∀ i, b.feed i = Feed.restart (b.feed i).paired (b.feed i).counters) :
    b.startUp = b.started.refreshReach := by
  have hm (p : Port) : (b.timed.mon p).state = .testing ∨ (b.timed.mon p).state = .off := by
    rw [mon_timed]
    exact state_restart _ _ _
  have hfollow : b.timed.followBoth = ([], b.started) := by
    refine followBoth_restarted b.timed b.softFeed hm fun i => ⟨_, _, hf i, ?_⟩
    rw [mon_timed, mon_timed, testing_restart, testing_restart]
    rfl
  have hstill (p : Port) : b.timed.canTransmit p = false := by
    refine canTransmit_of_not_active _ p ?_
    rcases hm p with h | h <;> rw [h] <;> decide
  rw [startUp_eq_timed, hfollow]
  refine concludeChange_reach _ _ hstill fun i => ?_
  have hi : b.timed.feed i = Feed.restart (b.feed i).paired (b.feed i).counters := hf i
  rw [feed_started, hi]
  rfl

/-! ## What the load puts in place (R188) -/

theorem feed_withImage (b : Bridge) (x : Settings) (es : Entries) (bs : Vector Binding 8) (i : PairNo) :
    (b.withImage x es bs).feed i = Feed.restart x.pairing[i] feedCounters := by
  have h : (b.withImage x es bs).feed i = (((b.setSettings x).modFeed 0 fun _ => Feed.restart x.pairing[0] feedCounters).modFeed 1
      fun _ => Feed.restart x.pairing[1] feedCounters).feed i := rfl
  rw [h]
  revert i
  rw [Fin.forall_fin_two]
  exact ⟨fun _ => (feed_modFeed_ne _ (by decide) _).trans (feed_modFeed_self _ 0 _), fun _ => feed_modFeed_self _ 1 _⟩

theorem lp_withImage (b : Bridge) (x : Settings) (es : Entries) (bs : Vector Binding 8) (l : Lp) :
    (b.withImage x es bs).lp l = { binding := bs[l] } := by
  simp [withImage, lp, modSpool]

/-- The part with the load's plan in place and its result recorded, before it starts (R188). -/
def loadedPart (b : Bridge) (ack : Bool) : Bridge :=
  (if b.loadResult ack = .good then b.loadImage b.agent.configMem.image
    else b.withImage {} defaultEntries (Vector.replicate 8 {})).modAgent
      fun a => { a with loadResult := b.loadResult ack, setup := b.loadResult ack ≠ .good }

theorem endLoad_eq (b : Bridge) (ack : Bool) : b.endLoad ack = (b.loadedPart ack).startUp := rfl

theorem loadedPart_good (b : Bridge) {ack : Bool} (h : b.loadResult ack = .good) : b.loadedPart ack =
    (b.loadImage b.agent.configMem.image).modAgent fun a => { a with loadResult := .good, setup := false } := by
  simp only [loadedPart, h, if_true, ne_eq, not_true_eq_false, decide_false]

theorem loadedPart_bad (b : Bridge) {ack : Bool} (h : b.loadResult ack ≠ .good) : b.loadedPart ack =
    (b.withImage {} defaultEntries (Vector.replicate 8 {})).modAgent
      fun a => { a with loadResult := b.loadResult ack, setup := true } := by
  simp only [loadedPart, h, if_false, ne_eq, not_false_eq_true, decide_true]

/-- Whatever the result, the load leaves the part with the settings of some image and its feed controllers restarted. -/
theorem loadedPart_cases (b : Bridge) (ack : Bool) : ∃ x es bs r setup,
    b.loadedPart ack = (b.withImage x es bs).modAgent fun a => { a with loadResult := r, setup } := by
  by_cases h : b.loadResult ack = .good
  · exact ⟨_, _, _, _, _, b.loadedPart_good h⟩
  · exact ⟨_, _, _, _, _, b.loadedPart_bad h⟩

theorem feed_loadedPart (b : Bridge) (ack : Bool) (i : PairNo) :
    (b.loadedPart ack).feed i = Feed.restart (b.loadedPart ack).settings.pairing[i] feedCounters := by
  obtain ⟨x, es, bs, r, setup, h⟩ := b.loadedPart_cases ack
  rw [h]
  exact b.feed_withImage x es bs i

/-- The load touches neither the reset controller nor the pair port nor the delivery unit. -/
theorem rest_loadedPart (b : Bridge) (ack : Bool) :
    (b.loadedPart ack).ctl = b.ctl ∧ (b.loadedPart ack).pair = b.pair ∧ (b.loadedPart ack).delivery = b.delivery := by
  obtain ⟨x, es, bs, r, setup, h⟩ := b.loadedPart_cases ack
  rw [h]
  exact ⟨rfl, rfl, rfl⟩

theorem ctl_loadedPart (b : Bridge) (ack : Bool) : (b.loadedPart ack).ctl = b.ctl := (b.rest_loadedPart ack).1

theorem pair_loadedPart (b : Bridge) (ack : Bool) : (b.loadedPart ack).pair = b.pair := (b.rest_loadedPart ack).2.1

theorem delivery_loadedPart (b : Bridge) (ack : Bool) : (b.loadedPart ack).delivery = b.delivery := (b.rest_loadedPart ack).2.2

theorem queue_loadedPart (b : Bridge) (ack : Bool) (l : Lp) : ((b.loadedPart ack).lp l).queue = [] := by
  obtain ⟨x, es, bs, r, setup, h⟩ := b.loadedPart_cases ack
  rw [h]
  exact congrArg LogicalPrinter.queue (b.lp_withImage x es bs l)

theorem endLoad_started (b : Bridge) (ack : Bool) : b.endLoad ack = (b.loadedPart ack).started.refreshReach := by
  rw [endLoad_eq, startUp_eq _ fun i => by rw [feed_loadedPart]; rfl]

/-! ## The result of the load (R188) -/

/-- Marker, check, and the checks C1 to C7 of the image's plan. -/
theorem loadResult_good_iff (b : Bridge) (ack : Bool) : b.loadResult ack = .good ↔
    ack = true ∧ b.agent.configMem.marker = true ∧
      b.agent.configMem.check = checkOf (Config.imageBytes b.agent.configMem.image) ∧
      (b.loadImage b.agent.configMem.image).plan.check (b.loadImage b.agent.configMem.image).segments = none := by
  have hgood : b.imageGood = true ↔ b.agent.configMem.marker = true ∧
      b.agent.configMem.check = checkOf (Config.imageBytes b.agent.configMem.image) ∧
      (b.loadImage b.agent.configMem.image).plan.check (b.loadImage b.agent.configMem.image).segments = none := by
    simp only [imageGood, Bool.and_eq_true, decide_eq_true_eq, Option.isNone_iff_eq_none, and_assoc]
  rw [← hgood]
  cases ack <;> cases h : b.imageGood <;> simp [loadResult, h]

theorem loadResult_not_good (b : Bridge) (ack : Bool) (h : b.loadResult ack ≠ .good) :
    b.loadResult ack = if ack then .bad else .absent := by
  cases ack with
  | false => rfl
  | true =>
    have hb : ¬ b.imageGood = true := fun e => h (by simp [loadResult, e])
    simp [loadResult, hb]

/-! ## The end of a command in a part without jobs -/

/-- With no logical printer WAITING and every queue empty, no printer is dispatched (R142). -/
theorem dispatch_idle (b : Bridge) (hw : b.delivery.waiting = []) (hq : ∀ l, (b.lp l).queue = []) :
    b.dispatch = b.modDelivery fun u => { u with ended := [] } := by
  have hready (l : Lp) : b.readyHead l = none := by simp [readyHead, hq]
  have hoffer (l : Lp) : b.offerIdle l = b := by simp [offerIdle, hready]
  have hfold (l : List Lp) : l.foldl offerIdle b = b := List.foldl_fixed' hoffer l
  unfold dispatch
  dsimp only
  rw [hw, List.foldl_nil, hfold, hfold]

/-- With no delivery record in use, no frame is handed over (R143). -/
theorem handOvers_idle (m : Store) (b : Bridge) (hr : ∀ l, b.record l = none) : ∀ k, handOvers m k b = b
  | 0 => rfl
  | k + 1 => by
    have hnone : (List.finRange 8).find? b.mayHandOver = none := List.find?_eq_none.2 fun l _ => by simp [mayHandOver, hr]
    rw [handOvers, hnone]

theorem rest_handToPhy (b : Bridge) : b.handToPhy.dir = b.dir ∧ b.handToPhy.spool = b.spool := by
  unfold handToPhy
  split
  · split <;> exact ⟨rfl, rfl⟩
  · exact ⟨rfl, rfl⟩

section
variable (b : Bridge) (m : Store) (hw : b.delivery.waiting = []) (hq : ∀ l, (b.lp l).queue = []) (hr : ∀ l, b.record l = none)
include hw hq hr

/-- The end of a command with nothing to deliver leaves the directory and the logical printers as they are. -/
theorem settle_idle : (b.settle m).dir = b.dir ∧ ∀ l, (b.settle m).lp l = b.lp l := by
  have hh : handOvers m handOverLimit b.dispatch = b.modDelivery fun u => { u with ended := [] } := by
    rw [b.dispatch_idle hw hq]
    exact handOvers_idle m (b.modDelivery fun u => { u with ended := [] }) hr _
  obtain ⟨hdir, hspool⟩ := rest_handToPhy (b.modDelivery fun u => { u with ended := [] })
  unfold settle
  rw [hh]
  refine ⟨hdir, fun l => ?_⟩
  have hl := congrArg (fun x : Spool => x.lps[l]) hspool
  exact hl

end

/-! ## The bridge after the load's end -/

section
variable {b c : Bridge} {ack : Bool} (k : BridgeKept (b.endLoad ack) c)
include k

theorem loadEnd_kept : BridgeKept (b.loadedPart ack).started.refreshReach c := endLoad_started b ack ▸ k

theorem loadEnd_settings : c.settings = (b.loadedPart ack).settings := (loadEnd_kept k).settings

theorem loadEnd_agent : c.agent = (b.loadedPart ack).agent := (loadEnd_kept k).agent

theorem loadEnd_phase : c.ctl.phase = .running := by rw [(loadEnd_kept k).ctl]; rfl

theorem loadEnd_link : c.pair.link = b.pair.link := by
  rw [(loadEnd_kept k).link, ← b.pair_loadedPart ack]
  rfl

theorem loadEnd_waitFrom : c.pair.waitFrom = if b.pair.indication then some b.ctl.now else none := by
  rw [(loadEnd_kept k).waitFrom, ← b.pair_loadedPart ack, ← b.ctl_loadedPart ack]
  rfl

theorem loadEnd_ageingDue : c.dir.ageingDue = b.ctl.now + 125000 * c.settings.ageingPeriod := by
  rw [(loadEnd_kept k).ageingDue, loadEnd_settings k, ← b.ctl_loadedPart ack]
  rfl

theorem loadEnd_refillDue : c.refillDue = b.ctl.now + 125 := by
  rw [(loadEnd_kept k).refillDue, ← b.ctl_loadedPart ack]
  rfl

theorem loadEnd_mon (p : Port) : c.mon p = Monitor.restart b.ctl.now (c.portSettings p) {} := by
  rw [mon_eq, ((loadEnd_kept k).port p).mon, portSettings, loadEnd_settings k, ← b.ctl_loadedPart ack]
  exact (b.loadedPart ack).mon_timed p

theorem loadEnd_allowance (p : Port) : (c.port p).allowance = (c.portSettings p).cap ∧ (c.port p).remainder = 0 := by
  have hp := (b.loadedPart ack).port_timed p
  rw [((loadEnd_kept k).port p).allowance, ((loadEnd_kept k).port p).remainder, portSettings, loadEnd_settings k]
  exact ⟨congrArg PortState.allowance hp, congrArg PortState.remainder hp⟩

/-- Every enabled port is TESTING with its test owed, every other one OFF; every allowance is at its cap (R96, R172). -/
theorem loadEnd_port (p : Port) : (c.mon p).state = (if (c.portSettings p).enable then .testing else .off) ∧
    (c.mon p).testOwed = (c.portSettings p).enable ∧ (c.mon p).hold = {} ∧ (c.mon p).latched = {} ∧
    (c.port p).allowance = (c.portSettings p).cap ∧ (c.port p).remainder = 0 := by
  rw [loadEnd_mon k p]
  exact ⟨rfl, rfl, rfl, rfl, loadEnd_allowance k p⟩

/-- Every sampler has started (R167). -/
theorem loadEnd_sampler (p : Port) : (c.mon p).mode = (c.portSettings p).sampling ∧ (c.mon p).lastSample = b.ctl.now ∧
    (c.mon p).lastAmp = none ∧ (c.mon p).runFrom = (if (c.portSettings p).enable then some b.ctl.now else none) := by
  rw [loadEnd_mon k p]
  exact ⟨rfl, rfl, rfl, rfl⟩

theorem loadEnd_feed (i : PairNo) : c.feed i =
    { paired := c.settings.pairing[i],
      startWait := c.settings.pairing[i] && ((c.portSettings (lowerOf i)).enable || (c.portSettings (upperOf i)).enable) } := by
  have hf : c.feed i = (b.loadedPart ack).softFeed i := by
    rw [feed_eq, (loadEnd_kept k).feeds]
    exact (b.loadedPart ack).feed_started i
  rw [hf, softFeed, feed_loadedPart, portSettings, portSettings, portSettings, portSettings, loadEnd_settings k]
  rfl

end

/-- The entries and the logical printers that the load's plan gives a part without deliveries (R63). -/
theorem loadEnd_plan (b : Bridge) (ack : Bool) (m : Store) (hw : b.delivery.waiting = []) (hr : ∀ l, b.record l = none) :
    (∀ n, ((b.endLoad ack).settle m).entry n = ((b.loadedPart ack).entry n).map (b.loadedPart ack).started.reached) ∧
    ∀ l, ((b.endLoad ack).settle m).lp l = (b.loadedPart ack).lp l := by
  rw [endLoad_started]
  have hd := b.delivery_loadedPart ack
  obtain ⟨hdir, hlp⟩ := settle_idle (b.loadedPart ack).started.refreshReach m
    ((congrArg DeliveryUnit.waiting hd).trans hw) (b.queue_loadedPart ack)
    fun l => (congrArg (fun x : DeliveryUnit => x.records[l]) hd).trans (hr l)
  refine ⟨fun n => ?_, hlp⟩
  exact (congrArg (fun x : Directory => look n x.entries) hdir).trans (entry_refreshReach _ n)

/-! ## The plans (R41, R63) -/

section
variable (b : Bridge) {ack : Bool} (h : b.loadResult ack = .good)
include h

theorem entry_image {n : DirNo} {e : PlanEntry} (hp : b.agent.configMem.image.entries.Pairwise fun x y => x.1 ≠ y.1)
    (he : (n, e) ∈ b.agent.configMem.image.entries) : ∃ lower, (b.loadedPart ack).entry n = some (loadedEntry lower e) := by
  rw [b.loadedPart_good h]
  exact ⟨_, look_foldl_put_mem (loadedEntry _) _ [] hp he⟩

theorem free_image {n : DirNo} (he : ∀ e, (n, e) ∉ b.agent.configMem.image.entries) : (b.loadedPart ack).entry n = none := by
  rw [b.loadedPart_good h]
  exact look_foldl_put_absent (loadedEntry _) n _ [] he

theorem lp_image (l : Lp) : (b.loadedPart ack).lp l = { binding := b.agent.configMem.image.bindings[l] } := by
  rw [b.loadedPart_good h]
  exact b.lp_withImage _ _ _ l

end

section
variable (b : Bridge) {ack : Bool} (h : b.loadResult ack ≠ .good)
include h

theorem entry_default (n : DirNo) : (b.loadedPart ack).entry n = look n defaultEntries := by rw [b.loadedPart_bad h]; rfl

theorem lp_default (l : Lp) : (b.loadedPart ack).lp l = {} := by
  rw [b.loadedPart_bad h]
  exact (b.lp_withImage _ _ _ l).trans (by simp)

end

/-- Entries 2 to 9 of the bad-image plan, and no other but entry 1 (R63). -/
theorem look_defaultEntries (n : Nat) : look n defaultEntries =
    if n = 1 then some bridgeEntry else if 2 ≤ n ∧ n ≤ 9 then some spoolEntry else none := by
  have hspool : ∀ (k a : Nat), look n ((List.range' a k).map fun n => (n, spoolEntry)) =
      if a ≤ n ∧ n < a + k then some spoolEntry else none := by
    intro k
    induction k with
    | zero => intro a; rw [if_neg (by omega)]; rfl
    | succ k ih =>
      intro a
      rw [List.range'_succ, List.map_cons, look, ih]
      by_cases hn : a = n
      · rw [if_pos hn, if_pos (by omega)]
      · rw [if_neg hn]
        exact if_congr (by omega) rfl rfl
  rw [defaultEntries, look, hspool]
  by_cases hn : n = 1
  · rw [if_pos hn.symm, if_pos hn]
  · rw [if_neg (Ne.symm hn), if_neg hn]
    exact if_congr (by omega) rfl rfl

theorem look_defaultEntries_spool {n : Nat} (h2 : 2 ≤ n) (h9 : n ≤ 9) : look n defaultEntries = some spoolEntry := by
  rw [look_defaultEntries, if_neg (by omega), if_pos ⟨h2, h9⟩]

theorem look_defaultEntries_free {n : Nat} (h : n = 0 ∨ 9 < n) : look n defaultEntries = none := by
  rw [look_defaultEntries, if_neg (by omega), if_neg (by omega)]

/-- An entry homed on INTERNAL is REACHABLE (R58). -/
theorem reached_internal (b : Bridge) {e : Entry} (h : e.home = .internal) : b.reached e = { e with reachable := true } := by
  simp only [reached, reachOf, h]

end Bridge

theorem exec_configLoadEnd (s : State) (ack : Bool) : exec (.configLoadEnd ack) s = .next (s.after [] (s.bridge.takeLoadEnd ack)) :=
  rfl

/-- Settles O52: what the load puts in place, what starts with it, and a first command's end with nothing to deliver. -/
theorem loadEndStartsThePart : Obligations.LoadEndStartsThePart := by
  refine ⟨fun s ack hload => ?_, fun s ack hn => ?_⟩
  · intro m loaded good
    have hgood : good ↔ s.bridge.loadResult ack = .good := (s.bridge.loadResult_good_iff ack).symm
    have hexec : exec (.configLoadEnd ack) s = .next (s.after [] (s.bridge.endLoad ack)) := by
      rw [exec_configLoadEnd, Bridge.takeLoadEnd, if_pos hload]
    have k : BridgeKept (s.bridge.endLoad ack) (s.after [] (s.bridge.endLoad ack)).bridge := Bridge.kept_settle _ _
    refine ⟨_, hexec, Bridge.loadEnd_phase k, fun hg => ?_, fun hg => ?_, Bridge.loadEnd_port k, Bridge.loadEnd_link k,
      Bridge.loadEnd_waitFrom k, Bridge.loadEnd_ageingDue k, Bridge.loadEnd_refillDue k, Bridge.loadEnd_sampler k,
      Bridge.loadEnd_feed k, fun hpower hg hp => ?_, fun hpower hg => ?_⟩
    · rw [Bridge.loadEnd_agent k, Bridge.loadEnd_settings k, s.bridge.loadedPart_good (hgood.1 hg)]
      exact ⟨rfl, rfl, rfl⟩
    · have hb := mt hgood.2 hg
      rw [Bridge.loadEnd_agent k, Bridge.loadEnd_settings k, s.bridge.loadedPart_bad hb]
      exact ⟨s.bridge.loadResult_not_good ack hb, rfl, rfl⟩
    · obtain ⟨hentry, hlp⟩ := s.bridge.loadEnd_plan ack (storeAfter s.store [] (s.bridge.endLoad ack)) hpower.delivery.2.1
        fun l => (hpower.delivery.2.2.2 l).1
      refine ⟨fun n e he => ?_, fun n he => ?_, fun l => ?_⟩
      · obtain ⟨lower, hn⟩ := s.bridge.entry_image (hgood.1 hg) hp he
        exact ⟨_, (hentry n).trans (congrArg _ hn), rfl, rfl, rfl, rfl, rfl, rfl, rfl, rfl⟩
      · exact (hentry n).trans (congrArg _ (s.bridge.free_image (hgood.1 hg) he))
      · exact (hlp l).trans (s.bridge.lp_image (hgood.1 hg) l)
    · have hb := mt hgood.2 hg
      obtain ⟨hentry, hlp⟩ := s.bridge.loadEnd_plan ack (storeAfter s.store [] (s.bridge.endLoad ack)) hpower.delivery.2.1
        fun l => (hpower.delivery.2.2.2 l).1
      have hdefault (n : DirNo) : (s.after [] (s.bridge.endLoad ack)).bridge.entry n =
          (look n defaultEntries).map (s.bridge.loadedPart ack).started.reached := by
        rw [← s.bridge.entry_default hb]
        exact hentry n
      refine ⟨?_, fun n h2 h9 => ?_, fun n hn => ?_, fun l => (hlp l).trans (s.bridge.lp_default hb l)⟩
      · rw [hdefault]
        exact congrArg some (Bridge.reached_internal _ rfl)
      · rw [hdefault, Bridge.look_defaultEntries_spool h2 h9]
        exact congrArg some (Bridge.reached_internal _ rfl)
      · rw [hdefault, Bridge.look_defaultEntries_free hn]
        rfl
  · rw [exec_configLoadEnd, Bridge.takeLoadEnd, if_neg hn]

end Sys2Proof.Machine

/-! # The pair link (O17). -/

namespace Sys2Proof.Machine
open Sys2Proof

/-! ## What the reports of a lost link leave of the PAIR group -/

/-- The link and the start of the seconds counter as they were, and, with the link DOWN, the PAIR group: no full pair queue drops an
answer then (R32). -/
structure PairGroupKept (b c : Bridge) : Prop where
  link : c.pair.link = b.pair.link
  secondsFrom : c.ctl.secondsFrom = b.ctl.secondsFrom
  group : b.pair.link = false → c.group 4 = b.group 4

namespace PairGroupKept

theorem refl (b : Bridge) : PairGroupKept b b := ⟨rfl, rfl, fun _ => rfl⟩

theorem trans {b c d : Bridge} (h : PairGroupKept b c) (k : PairGroupKept c d) : PairGroupKept b d where
  link := k.link.trans h.link
  secondsFrom := k.secondsFrom.trans h.secondsFrom
  group e := (k.group (h.link.trans e)).trans (h.group e)

theorem ofKept {b c : Bridge} (h : BridgeKept b c) : PairGroupKept b c where
  link := h.link
  secondsFrom := by rw [h.ctl]
  group _ := h.group 4 (by decide)

theorem foldl {α : Type} (f : Bridge → α → Bridge) (hf : ∀ b x, PairGroupKept b (f b x)) :
    ∀ (l : List α) (b : Bridge), PairGroupKept b (l.foldl f b)
  | [], b => refl b
  | x :: l, b => (hf b x).trans (foldl f hf l (f b x))

theorem ofCount (b : Bridge) {g : Fin 9} (hg : g ≠ 4) (c : Ctr) : PairGroupKept b (b.count g c) where
  link := rfl
  secondsFrom := rfl
  group _ := b.group_modGroup_ne hg _

end PairGroupKept

namespace Bridge
open PairGroupKept

theorem lineGroup_ne_pairGroup (p : Port) : lineGroup p ≠ 4 := by revert p; decide

theorem pairGroupKept_answer (b : Bridge) (a : Asker) (x : Answer) (named : Bool) : PairGroupKept b (b.answer a x named) := by
  cases a with
  | coax p src dst seq e =>
    cases hx : x.short with
    | true =>
      rw [answer_class0 b p src dst seq e x named hx]
      split
      · exact ⟨rfl, rfl, fun _ => rfl⟩
      · exact (ofKept (kept_nextSerial b)).trans (ofCount _ (lineGroup_ne_pairGroup p) _)
    | false =>
      rw [answer_class1 b p src dst seq e x named hx]
      split <;> exact ⟨rfl, rfl, fun _ => rfl⟩
  | pair mac dst tag seq e =>
    have hoffer (c : Carrier) : PairGroupKept b (b.offeredPair c .answer) := by
      unfold offeredPair
      split <;> exact ⟨rfl, rfl, fun _ => rfl⟩
    rw [answer_pair b mac dst tag seq e x named]
    split
    · rename_i h
      exact ⟨(hoffer _).link, (hoffer _).secondsFrom, fun hl => by rw [h.1] at hl; cases hl⟩
    · exact hoffer _

theorem pairGroupKept_closeExchange (b : Bridge) (t : Nat) : PairGroupKept b (b.closeExchange t) := by
  unfold closeExchange
  split
  · rename_i x _
    have hdrop : PairGroupKept b (b.setExchanges (drop t b.exchanges)) := ⟨rfl, rfl, fun _ => rfl⟩
    exact hdrop.trans ((ofKept (kept_unpin _ x.requester)).trans (ofKept (kept_unpin _ x.target)))
  · exact .refl b

theorem pairGroupKept_failExchange (b : Bridge) (t : Nat) (r : FailReason) : PairGroupKept b (b.failExchange t r) := by
  unfold failExchange
  split
  · exact (pairGroupKept_answer b _ _ _).trans (pairGroupKept_closeExchange _ t)
  · exact .refl b

theorem pairGroupKept_exchangeLoss (b : Bridge) (f : Route → Bool) (t : Nat) : PairGroupKept b (b.exchangeLoss f t) := by
  unfold exchangeLoss
  split
  · dsimp only
    split
    · refine PairGroupKept.trans ?_ (ofCount _ (by decide) _)
      split
      · exact pairGroupKept_failExchange b t _
      · exact pairGroupKept_closeExchange b t
    · exact .refl b
  · exact .refl b

theorem pairGroupKept_exchangeLosses (b : Bridge) (f : Route → Bool) : PairGroupKept b (b.exchangeLosses f) :=
  foldl _ (fun b t => pairGroupKept_exchangeLoss b f t) _ b

theorem kept_deliveryLosses (b : Bridge) (f : Route → Bool) : BridgeKept b (b.deliveryLosses f) :=
  .foldl _ (fun b l => by
    split
    · exact kept_stop b l
    · exact .refl b) _ b

theorem kept_listedPairFlushed (b : Bridge) (l : Lp) : BridgeKept b (b.listedPairFlushed l) := by
  unfold listedPairFlushed
  split
  · exact kept_tryEnds b l
  · exact .refl b

theorem kept_deliveryNotSent (b : Bridge) (l : Lp) (n : Nat) : BridgeKept b (b.deliveryNotSent l n) := by
  unfold deliveryNotSent
  split
  · exact kept_tryEnds b l
  · exact .refl b

/-- The loss of a flushed frame, by its originator, but for a forwarded REQUEST. -/
theorem pairGroupKept_lossReport (b : Bridge) {o : Origin} (n : Nat) (h : ∀ tag, o ≠ .request tag) :
    PairGroupKept b (b.lossReport .flushed o n) := by
  cases o with
  | forward => exact ⟨rfl, rfl, fun _ => rfl⟩
  | relay i => exact ⟨rfl, rfl, fun _ => rfl⟩
  | request tag => exact absurd rfl (h tag)
  | delivery l => exact ofKept (kept_deliveryNotSent b l n)
  | query m => exact ofKept (kept_modPrinter b m _)
  | agent => exact ⟨rfl, rfl, fun _ => rfl⟩
  | notice => exact ⟨rfl, rfl, fun _ => rfl⟩
  | jobNotice => exact ofCount b (by decide) _
  | answer => exact .refl b

theorem pairGroupKept_pairFrameLost (b : Bridge) (f : PairFrame) : PairGroupKept b (b.pairFrameLost f) := by
  by_cases h : ∃ tag, f.origin = .request tag
  · obtain ⟨tag, ho⟩ := h
    rw [b.pairFrameLost_request f ho]
    exact .refl b
  · have ho : ∀ tag, f.origin ≠ .request tag := fun tag e => h ⟨tag, e⟩
    rw [b.pairFrameLost_other f ho]
    exact pairGroupKept_lossReport b _ ho

/-! ## The stages of a loss of the link (R23; log 50) -/

/-- The pair port with the link DOWN and nothing queued, handed over, waiting or remembered, and the reach that follows. -/
def linkEmptied (b : Bridge) : Bridge :=
  (b.modPair fun x =>
    { x with link := false, indication := false, waitFrom := none, queue := [], handing := none, waiting := [],
             repeats := [] }).refreshReach

theorem ctl_linkEmptied (b : Bridge) : b.linkEmptied.ctl = b.ctl := rfl
theorem link_linkEmptied (b : Bridge) : b.linkEmptied.pair.link = false := rfl
theorem group_linkEmptied (b : Bridge) (g : Fin 9) : b.linkEmptied.group g = b.group g := rfl

/-- The exchanges and deliveries with a PAIR route closed and stopped. -/
def linkClosed (b : Bridge) : Bridge := (b.linkEmptied.exchangeLosses onPair).deliveryLosses onPair

/-- LINK_LOST counted and captured. -/
def linkCounted (b : Bridge) : Bridge := b.linkClosed.countCapture 4 .linkLost .none

theorem linkLost_eq (b : Bridge) : b.linkLost =
    b.pair.waiting.foldl listedPairFlushed (b.pair.queue.foldl pairFrameLost b.linkCounted) := rfl

theorem steady_linkClosed (b : Bridge) : Steady b.linkEmptied b.linkClosed :=
  (steady_exchangeLosses _ _).trans (steady_deliveryLosses _ _)

theorem steady_linkCounted (b : Bridge) : Steady b.linkClosed b.linkCounted := steady_countCapture _ _ _ _

theorem steady_linkLost (b : Bridge) : Steady b.linkEmptied b.linkLost := by
  rw [linkLost_eq]
  exact (b.steady_linkClosed.trans b.steady_linkCounted).trans
    ((Steady.foldl _ steady_pairFrameLost _ _).trans (Steady.foldl _ steady_listedPairFlushed _ _))

theorem pairGroupKept_linkClosed (b : Bridge) : PairGroupKept b.linkEmptied b.linkClosed :=
  (pairGroupKept_exchangeLosses _ _).trans (ofKept (kept_deliveryLosses _ _))

theorem pairGroupKept_reports (b : Bridge) : PairGroupKept b.linkCounted b.linkLost :=
  (PairGroupKept.foldl _ pairGroupKept_pairFrameLost _ _).trans
    (PairGroupKept.foldl _ (fun b l => ofKept (kept_listedPairFlushed b l)) _ _)

/-! ## A count with its capture (R185) -/

theorem group_notify (b : Bridge) (ev : NoticeEvent) (g : Fin 9) : (b.notify ev).group g = b.group g :=
  (group_noticeTo _ _ _ g).trans (group_noticeTo _ _ _ g)

theorem group_capture (b : Bridge) (g : Fin 9) (kind : Ctr) (detail : ErrorDetail) : (b.capture g kind detail).group g =
    { counters := (b.group g).counters, first := some ((b.group g).first.getD (b.firstError kind detail)),
      multiple := (b.group g).multiple || (b.group g).first.isSome } := by
  cases h : (b.group g).first with
  | some e =>
    rw [capture_held b g kind detail h, group_modGroup_self]
    simp [h]
  | none =>
    have hg := b.group_modGroup_self g fun x => { x with first := some (b.firstError kind detail) }
    rw [capture_first b g kind detail h]
    split
    · rw [hg]; simp
    · rw [group_notify, hg]; simp

theorem ctl_capture (b : Bridge) (g : Fin 9) (kind : Ctr) (detail : ErrorDetail) : (b.capture g kind detail).ctl = b.ctl := by
  cases h : (b.group g).first with
  | some e => rw [capture_held b g kind detail h]; rfl
  | none =>
    rw [capture_first b g kind detail h]
    split
    · rfl
    · exact (kept_notify _ _).ctl

theorem ctl_countCapture (b : Bridge) (g : Fin 9) (kind : Ctr) (detail : ErrorDetail) : (b.countCapture g kind detail).ctl = b.ctl :=
  ctl_capture (b.count g kind) g kind detail

theorem group_countCapture (b : Bridge) (g : Fin 9) (kind : Ctr) (detail : ErrorDetail) :
    (b.countCapture g kind detail).group g =
      { counters := (b.group g).counters.map fun y => if y.1 = kind then (y.1, min 65535 (y.2 + 1)) else y,
        first := some ((b.group g).first.getD (b.firstError kind detail)),
        multiple := (b.group g).multiple || (b.group g).first.isSome } := by
  have hc : (b.count g kind).group g = { b.group g with counters := bump kind (b.group g).counters } := group_modGroup_self b g _
  rw [countCapture, group_capture, hc]
  rfl

/-! ## The PAIR group and the reset controller after a loss of the link -/

theorem group_linkLost (b : Bridge) : b.linkLost.group 4 =
    { counters := (b.group 4).counters.map fun y => if y.1 = .linkLost then (y.1, min 65535 (y.2 + 1)) else y,
      first := some ((b.group 4).first.getD (b.firstError .linkLost .none)),
      multiple := (b.group 4).multiple || (b.group 4).first.isSome } := by
  have hclosed : b.linkClosed.group 4 = b.group 4 := (b.pairGroupKept_linkClosed.group b.link_linkEmptied).trans (b.group_linkEmptied 4)
  have hfirst : b.linkClosed.firstError .linkLost .none = b.firstError .linkLost .none := by
    rw [firstError, b.steady_linkClosed.now, b.pairGroupKept_linkClosed.secondsFrom, b.ctl_linkEmptied, firstError]
  have hdown : b.linkCounted.pair.link = false :=
    b.steady_linkCounted.link.trans (b.steady_linkClosed.link.trans b.link_linkEmptied)
  rw [b.pairGroupKept_reports.group hdown, linkCounted, group_countCapture, hclosed, hfirst]

theorem secondsFrom_linkLost (b : Bridge) : b.linkLost.ctl.secondsFrom = b.ctl.secondsFrom := by
  rw [b.pairGroupKept_reports.secondsFrom, linkCounted, ctl_countCapture, b.pairGroupKept_linkClosed.secondsFrom, ctl_linkEmptied]

/-! ## What a loss of the link stops and reports (R23, R33, R153) -/

theorem onPair_iff (r : Route) : onPair r = true ↔ ∃ mac, r = .pair mac := by
  cases r <;> simp [onPair]

theorem listedForPair_isSome (b : Bridge) (l : Lp) : (b.listedForPair l).isSome = true ↔
    ∃ d f y mac, b.record l = some d ∧ d.phase = .listed ∧ d.frame = some f ∧ f.built = some y ∧ d.route = .pair mac := by
  constructor
  · intro h
    unfold listedForPair at h
    split at h
    next d hd =>
      split at h
      next f mac hp hf hr =>
        obtain ⟨y, hy⟩ := Option.isSome_iff_exists.1 (Option.isSome_map.symm.trans h)
        exact ⟨d, f, y, mac, hd, hp, hf, hy, hr⟩
      next => cases h
    next => cases h
  · rintro ⟨d, f, y, mac, hd, hp, hf, hy, hr⟩
    simp [listedForPair, hd, hp, hf, hy, hr]

end Bridge

/-! ## The link's commands (R22, R23) -/

theorem exec_linkIndicationOn (s : State) : exec .linkIndicationOn s = .next (s.after [] s.bridge.indicationOn) := rfl

theorem exec_linkIndicationBreak (s : State) : exec .linkIndicationBreak s = .next (s.after [] s.bridge.indicationBreak) := rfl

theorem exec_linkUp (s : State) (h : s.takesTraffic) : exec .linkUp s = .next (s.after [] s.bridge.linkComesUp) :=
  s.command_run [] _ h

theorem exec_linkDown (s : State) : exec .linkDown s = .next (s.after [] s.bridge.linkGoesDown) := rfl

namespace Bridge

theorem indicationOn_eq (b : Bridge) : b.indicationOn = b.modPair fun x =>
    { x with indication := true, waitFrom := if b.ctl.phase = .running ∧ x.link = false then some b.ctl.now else x.waitFrom } := by
  simp only [indicationOn, Bool.not_eq_true']

theorem indicationBreak_down (b : Bridge) (h : b.pair.link = false) :
    b.indicationBreak = b.modPair fun x => { x with indication := false, waitFrom := none } := if_neg (by simp [h])

theorem indicationBreak_up (b : Bridge) (h : b.pair.link = true) : b.indicationBreak = b := if_pos h

theorem linkComesUp_waited (b : Bridge) {t : Time} (hl : b.pair.link = false) (hw : b.pair.waitFrom = some t)
    (ht : t + 62500 ≤ b.ctl.now) : b.linkComesUp = (b.modPair fun x => { x with link := true, waitFrom := none }).refreshReach :=
  if_pos ⟨by simp [hl], by rw [hw]; exact decide_eq_true ht⟩

/-- The link stays as it is where it is UP, no wait has begun, or the 500 ms have not passed. -/
theorem linkComesUp_not (b : Bridge) (h : b.pair.link = true ∨ ∀ t, b.pair.waitFrom = some t → b.ctl.now < t + 62500) :
    b.linkComesUp = b := by
  refine if_neg fun ⟨hl, hw⟩ => ?_
  obtain ⟨t, ht, hle⟩ := (Option.any_eq_true _ _).1 hw
  rcases h with h | h
  · simp [h] at hl
  · exact absurd (of_decide_eq_true hle) (Nat.not_le.2 (h t ht))

theorem linkGoesDown_up (b : Bridge) (h : b.pair.link = true) : b.linkGoesDown = b.linkLost := if_pos h

theorem linkGoesDown_down (b : Bridge) (h : b.pair.link = false) :
    b.linkGoesDown = b.modPair fun x => { x with indication := false, waitFrom := none } :=
  (if_neg (by simp [h])).trans (b.indicationBreak_down h)

end Bridge

/-- Settles O17: the link's commands case by case, and a loss of the link by its stages. -/
theorem linkFollowsItsIndication : Obligations.LinkFollowsItsIndication := by
  have hdown (s : State) (h : s.bridge.pair.link = true) : exec .linkDown s = .next (s.after [] s.bridge.linkLost) := by
    rw [exec_linkDown, s.bridge.linkGoesDown_up h]
  have hsteady (s : State) : Steady s.bridge.linkEmptied (s.after [] s.bridge.linkLost).bridge :=
    s.bridge.steady_linkLost.trans (Bridge.steady_settle _ _)
  have hgroup (s : State) : PairGroupKept s.bridge.linkLost (s.after [] s.bridge.linkLost).bridge :=
    .ofKept (Bridge.kept_settle _ _)
  refine ⟨fun s => ?_, fun s h => ?_, fun s h => ?_, fun s t hr hl hw ht => ?_, fun s hr h => ?_, fun s t hr hw ht => ?_,
    fun s h => ⟨_, hdown s h, ?_⟩, fun s h => ?_, fun s h => hdown s h, fun s h => ⟨_, hdown s h, ?_⟩, Bridge.onPair_iff,
    fun b concerns => ?_, fun b l => ⟨fun h => ?_, fun h => ?_⟩⟩
  · rw [exec_linkIndicationOn, s.bridge.indicationOn_eq]
  · rw [exec_linkIndicationBreak, s.bridge.indicationBreak_down h]
  · rw [exec_linkIndicationBreak, s.bridge.indicationBreak_up h]
  · rw [exec_linkUp s hr, s.bridge.linkComesUp_waited hl hw ht]
  · rw [exec_linkUp s hr, s.bridge.linkComesUp_not (h.imp_right fun hw t ht => by rw [hw] at ht; cases ht)]
  · rw [exec_linkUp s hr, s.bridge.linkComesUp_not (.inr fun u hu => by rw [hw] at hu; cases hu; exact ht)]
  · have st := hsteady s
    have quiet := st.pairDown rfl
    exact ⟨st.link, quiet.queue, quiet.handing, quiet.waiting, quiet.repeats rfl, rfl, st.now, st.phase, st.cause,
      (hgroup s).secondsFrom.trans s.bridge.secondsFrom_linkLost, st.settings, st.mon⟩
  · rw [exec_linkDown, s.bridge.linkGoesDown_down h]
  · exact ((hgroup s).group s.bridge.steady_linkLost.link).trans s.bridge.group_linkLost
  · refine congrArg (fun f => (List.finRange 8).foldl f b) (funext fun c => funext fun l => ?_)
    cases h : c.record l with
    | none => rfl
    | some d => exact if_congr (by simp) rfl rfl
  · exact if_pos ((b.listedForPair_isSome l).2 h)
  · exact if_neg (mt (b.listedForPair_isSome l).1 h)

end Sys2Proof.Machine

/-! # Records that stay sound: the operations on the records (O45). -/

namespace Sys2Proof.Machine
open Sys2Proof

/-! ## Sound records, part by part -/

/-- A latched route with end UNKNOWN names the lower port of its segment (R105). -/
def namesLower (r : Route) : Prop := ∀ p, r = .unknownEnd p → p.val % 2 = 0

/-- At most 32 edits are staged, one for an item (R66). -/
def stagingSound (l : List Edit) : Prop := l.Pairwise (fun x y => x.sameItem y = false) ∧ l.length ≤ 32

/-- The exchanges stand by rising tag below 16, their target routes named as R105 has it (R100). -/
def exchangesSound (l : List (Nat × Exchange)) : Prop :=
  rising l = true ∧ ∀ x ∈ l, x.1 < 16 ∧ namesLower x.2.targetRoute

/-- At most 32 jobs are in use, no two under one number (R123, R126). -/
def jobsSound (l : List Job) : Prop := l.Pairwise (fun x y => x.number ≠ y.number) ∧ l.length ≤ 32

/-- Every delivery's latched route is named as R105 has it. -/
def deliveriesSound (v : Vector (Option Delivery) 8) : Prop := ∀ l : Lp, ∀ d ∈ v[l], namesLower d.route

/-- Entries, edits, exchanges, jobs and deliveries that are sound. -/
structure RecordsHold (es : Entries) (st : List Edit) (xs : List (Nat × Exchange)) (js : List Job) (ds : Vector (Option Delivery) 8) :
    Prop where
  entries : rising es = true
  staging : stagingSound st
  exchanges : exchangesSound xs
  jobs : jobsSound js
  deliveries : deliveriesSound ds

/-- A bridge whose records are sound. It is said of the records alone, so that a change of anything else keeps it by definition. -/
def Bridge.RecordsSound (b : Bridge) : Prop :=
  RecordsHold b.dir.entries b.dir.staging b.exchanges b.spool.jobs b.delivery.records

theorem recordsSound_iff (s : State) : s.recordsSound ↔ s.bridge.RecordsSound where
  mp h := ⟨h.entries, ⟨h.staging, h.stagingSize⟩, ⟨h.exchanges, fun x hx => ⟨h.tags x hx, h.targetEnd x hx⟩⟩,
    ⟨h.jobs, h.jobCount⟩, h.deliveryEnd⟩
  mpr h := ⟨h.entries, h.staging.1, h.staging.2, h.exchanges.1, fun x hx => (h.exchanges.2 x hx).1, h.jobs.1, h.jobs.2,
    fun x hx => (h.exchanges.2 x hx).2, h.deliveries⟩

theorem namesLower_port (p : Port) : namesLower (.port p) := fun _ e => nomatch e

theorem namesLower_pair (m : Mac) : namesLower (.pair m) := fun _ e => nomatch e

theorem namesLower_lowerOf (i : PairNo) : namesLower (.unknownEnd (lowerOf i)) := by
  rintro p ⟨⟩
  exact Nat.mul_mod_right 2 i.val

namespace Bridge

variable {b : Bridge}

/-- The route that an entry's home gives names the lower port of its segment (R105). -/
theorem namesLower_routeOf {e : Entry} {r : Route} (h : b.routeOf e = some r) : namesLower r := by
  unfold routeOf at h
  split at h
  case h_1 => exact nomatch h
  case h_2 => cases h; exact namesLower_pair _
  case h_3 =>
    split at h
    next =>
      split at h <;> cases h
      · exact namesLower_port _
      · exact namesLower_port _
      · exact namesLower_lowerOf _
    next => cases h; exact namesLower_port _

/-! ## Changes of one part -/

namespace RecordsSound

/-- What leaves the records as they are keeps them sound. -/
theorem congr {c : Bridge} (h : b.RecordsSound) (hd : c.dir = b.dir) (hx : c.exchanges = b.exchanges) (hs : c.spool = b.spool)
    (hr : c.delivery = b.delivery) : c.RecordsSound :=
  ⟨hd ▸ h.entries, hd ▸ h.staging, hx ▸ h.exchanges, hs ▸ h.jobs, hr ▸ h.deliveries⟩

theorem modEntries (h : b.RecordsSound) (f : Entries → Entries) (hf : rising b.dir.entries = true → rising (f b.dir.entries) = true) :
    (b.modEntries f).RecordsSound :=
  { h with entries := hf h.entries }

theorem setExchanges (h : b.RecordsSound) {l : List (Nat × Exchange)} (hl : exchangesSound l) : (b.setExchanges l).RecordsSound :=
  { h with exchanges := hl }

theorem modSpool (h : b.RecordsSound) (f : Spool → Spool) (hf : jobsSound b.spool.jobs → jobsSound (f b.spool).jobs) :
    (b.modSpool f).RecordsSound :=
  { h with jobs := hf h.jobs }

theorem modDelivery (h : b.RecordsSound) (f : DeliveryUnit → DeliveryUnit)
    (hf : deliveriesSound b.delivery.records → deliveriesSound (f b.delivery).records) : (b.modDelivery f).RecordsSound :=
  { h with deliveries := hf h.deliveries }

/-- Fold over a list, each step of which keeps the records sound. -/
theorem foldl {α : Type} {f : Bridge → α → Bridge} (hf : ∀ {b : Bridge}, b.RecordsSound → ∀ x, (f b x).RecordsSound) :
    ∀ (l : List α) {b : Bridge}, b.RecordsSound → (l.foldl f b).RecordsSound
  | [], _, h => h
  | x :: l, _, h => foldl hf l (hf h x)

theorem modEntry (h : b.RecordsSound) (n : DirNo) (f : Entry → Entry) : (b.modEntry n f).RecordsSound :=
  h.modEntries _ fun hr => rising_change n f hr

theorem modJob (h : b.RecordsSound) (n : Nat) {f : Job → Job} (hf : ∀ j, j.number = n → (f j).number = n) :
    (b.modJob n f).RecordsSound :=
  have hn (j : Job) : (if j.number = n then f j else j).number = j.number := by
    split
    next e => rw [hf j e, e]
    next => rfl
  h.modSpool _ fun ⟨hp, hl⟩ => ⟨List.pairwise_map.2 (hp.imp fun {x y} hne => by rw [hn, hn]; exact hne), by simpa using hl⟩

theorem modLp (h : b.RecordsSound) (l : Lp) (f : LogicalPrinter → LogicalPrinter) : (b.modLp l f).RecordsSound :=
  h.modSpool _ id

theorem setRecord (h : b.RecordsSound) (l : Lp) {d : Option Delivery} (hd : ∀ x ∈ d, namesLower x.route) :
    (b.setRecord l d).RecordsSound :=
  h.modDelivery _ fun hr k x hx => by
    by_cases e : l = k
    · subst e
      exact hd x (by simpa using hx)
    · have e' : l.val ≠ k.val := fun e' => e (Fin.ext e')
      exact hr k x (by simpa [Vector.getElem_set, e'] using hx)

theorem route (h : b.RecordsSound) {l : Lp} {d : Delivery} (hd : b.record l = some d) : namesLower d.route := h.deliveries l d hd

theorem modRecord (h : b.RecordsSound) (l : Lp) {f : Delivery → Delivery} (hf : ∀ d, (f d).route = d.route) :
    (b.modRecord l f).RecordsSound :=
  h.setRecord l fun x hx => by
    obtain ⟨d, hd, rfl⟩ := Option.map_eq_some_iff.1 hx
    rw [hf]
    exact h.route hd

theorem modPrinter (h : b.RecordsSound) (n : DirNo) (f : Printer → Printer) : (b.modPrinter n f).RecordsSound :=
  h.modDelivery _ id

theorem countDelivery (h : b.RecordsSound) (c : Ctr) : (b.countDelivery c).RecordsSound := h.modDelivery _ id

theorem modExchange (h : b.RecordsSound) (tag : Nat) {f : Exchange → Exchange} (hf : ∀ x, (f x).targetRoute = x.targetRoute) :
    (b.modExchange tag f).RecordsSound := by
  obtain ⟨hr, hx⟩ := h.exchanges
  refine h.setExchanges ⟨rising_change tag f hr, fun x hm => ?_⟩
  have hl : look x.1 (change tag f b.exchanges) = some x.2 := look_of_mem (rising_change tag f hr) hm
  by_cases e : x.1 = tag
  · rw [e, look_change_self] at hl
    obtain ⟨y, hy, hfy⟩ := Option.map_eq_some_iff.1 hl
    rw [← hfy, hf, e]
    exact hx _ (mem_of_look hy)
  · rw [look_change_ne e] at hl
    exact hx _ (mem_of_look hl)

/-- Entries freed, and no other record changed. -/
theorem freed {c : Bridge} (h : b.RecordsSound) (k : Freed b c) : c.RecordsSound := by
  have he := k.entries h.entries
  obtain ⟨es, rs, ps, rfl⟩ := k.rest
  exact { h with entries := he }

/-- Frames placed, and no record changed. -/
theorem placed {P : Origin → Prop} {c : Bridge} (h : b.RecordsSound) (k : Placed P b c) : c.RecordsSound := by
  obtain ⟨v, q, n, rfl⟩ := k.rest
  exact h

theorem pin (h : b.RecordsSound) (n : DirNo) : (b.pin n).RecordsSound := h.modEntry n _

theorem unpin (h : b.RecordsSound) (n : DirNo) : (b.unpin n).RecordsSound := h.freed (freed_unpin b n)

theorem refreshReach (h : b.RecordsSound) : b.refreshReach.RecordsSound :=
  modEntries (b := b.modDelivery _) (modDelivery h _ id) _ fun hr => rising_map _ hr

/-! ## Offers, answers, notices and captures -/

theorem offer0 (h : b.RecordsSound) (p : Port) (f : CoaxFrame) : (b.offer0 p f).RecordsSound := by
  unfold Bridge.offer0
  split <;> exact h

theorem offer1 (h : b.RecordsSound) (p : Port) (f : CoaxFrame) : (b.offer1 p f).RecordsSound := h.placed (placed_offer1 b p f)

theorem offerPair (h : b.RecordsSound) (f : PairFrame) : (b.offerPair f).2.RecordsSound := by
  unfold Bridge.offerPair
  split
  · exact h
  · split <;> exact h

theorem sendEach (h : b.RecordsSound) (ps : List Port) (x : Block) (o : Origin) (n : Option Port) :
    (b.sendEach ps x o n).2.RecordsSound := h.placed (placed_sendEach b ps x o n)

theorem sendPair (h : b.RecordsSound) (x : Carrier) (o : Origin) : (b.sendPair x o).2.RecordsSound := h.placed (placed_sendPair b x o)

theorem count (h : b.RecordsSound) (g : Fin 9) (c : Ctr) : (b.count g c).RecordsSound := h

theorem answer (h : b.RecordsSound) (a : Asker) (x : Answer) (named : Bool) : (b.answer a x named).RecordsSound := by
  cases a with
  | coax p src dst seq e =>
    simp only [Bridge.answer]
    split
    · exact offer0 (b := b.nextSerial) h _ _
    · exact offer1 (b := b.nextSerial) h _ _
  | pair mac dst tag seq e =>
    simp only [Bridge.answer]
    have hs := h.sendPair (answerFrame mac dst tag seq e x) .answer
    split <;> next heq => rw [heq] at hs; exact hs

theorem noticed {P : Origin → Prop} {c : Bridge} (h : b.RecordsSound) (k : Noticed P b c) : c.RecordsSound := by
  obtain ⟨v, q, n, r, rfl⟩ := Noticed.rest k
  exact h

theorem notify (h : b.RecordsSound) (ev : NoticeEvent) : (b.notify ev).RecordsSound := h.noticed (noticed_notify b ev)

theorem capture (h : b.RecordsSound) (g : Fin 9) (k : Ctr) (d : ErrorDetail) : (b.capture g k d).RecordsSound := by
  unfold Bridge.capture
  split
  · exact h
  · simp only
    split
    · exact notify (b := b.modGroup g _) h _
    · exact h

theorem countCapture (h : b.RecordsSound) (g : Fin 9) (c : Ctr) (d : ErrorDetail) : (b.countCapture g c d).RecordsSound :=
  capture (b := b.count g c) h g c d

end RecordsSound
end Bridge
end Sys2Proof.Machine

/-! # Records that stay sound: spool, deliveries and exchanges (O45). -/

namespace Sys2Proof.Machine
open Sys2Proof

namespace Bridge
namespace RecordsSound

variable {b : Bridge}

/-! ## The spool -/

/-- Jobs that are some of the jobs, in their order. -/
theorem jobsSound_sublist {l k : List Job} (h : jobsSound l) (hk : k.Sublist l) : jobsSound k :=
  ⟨h.1.sublist hk, hk.length_le.trans h.2⟩

theorem placeJob (h : b.RecordsSound) (l : Lp) (n : Nat) : (b.placeJob l n).RecordsSound := h.modLp l _

theorem leaveQueue (h : b.RecordsSound) (l : Lp) (n : Nat) : (b.leaveQueue l n).RecordsSound := h.modLp l _

theorem retireJob (h : b.RecordsSound) (j : Job) : (b.retireJob j).RecordsSound :=
  (h.leaveQueue j.lp j.number).modSpool _ fun hj => jobsSound_sublist hj List.filter_sublist

theorem jobNotice (h : b.RecordsSound) (j : Job) (o : JobOutcome) (r : JobReason) : (b.jobNotice j o r).RecordsSound :=
  h.noticed (noticed_jobNotice b j o r)

theorem endJob (h : b.RecordsSound) (n : Nat) (o : JobOutcome) (r : JobReason) : (b.endJob n o r).RecordsSound := by
  unfold Bridge.endJob
  split
  · exact ((h.retireJob _).jobNotice _ o r).unpin _
  · exact h

theorem requeue (h : b.RecordsSound) (j : Job) : (b.requeue j).RecordsSound := (h.modJob j.number fun _ e => by exact e).modLp j.lp _

/-! ## Deliveries: choosing, starting and offering -/

theorem buildFrame (h : b.RecordsSound) (l : Lp) : (b.buildFrame l).RecordsSound := by
  unfold Bridge.buildFrame
  split
  next d hd =>
    have hr := h.route hd
    split
    · split <;> exact h.setRecord l (by rintro x ⟨⟩; exact hr)
    · exact h
  next => exact h

theorem startJob (h : b.RecordsSound) (l : Lp) (j : Job) (n : DirNo) : (b.startJob l j n).RecordsSound := by
  unfold Bridge.startJob
  split
  next e _ =>
    split
    next r hr =>
      refine buildFrame (modDelivery (setRecord (pin (modPrinter (modLp (modJob (h.leaveQueue l j.number) j.number ?_) l _) n _) n) l
        ?_) _ id) l
      · exact fun _ e => e
      · rintro x ⟨⟩
        exact namesLower_routeOf hr
    next => exact h
  next => exact h

theorem tryStart (h : b.RecordsSound) {l : Lp} {c : Bridge} (hc : b.tryStart l = some c) : c.RecordsSound := by
  unfold Bridge.tryStart at hc
  split at hc
  · split at hc <;> cases hc
    exact h.startJob l _ _
  · cases hc

theorem offerWaiting (h : b.RecordsSound) (l : Lp) : (b.offerWaiting l).RecordsSound := by
  unfold Bridge.offerWaiting
  simp only
  split
  · exact (h.modLp l _).modDelivery _ id
  · split
    next hc => exact (h.tryStart hc).modDelivery _ id
    next => exact h

theorem offerIdle (h : b.RecordsSound) (l : Lp) : (b.offerIdle l).RecordsSound := by
  unfold Bridge.offerIdle
  split
  · split
    next hc => exact h.tryStart hc
    next => exact (h.modLp l _).modDelivery _ id
  · exact h

theorem dispatch (h : b.RecordsSound) : b.dispatch.RecordsSound :=
  modDelivery (.foldl offerIdle _ (.foldl offerIdle _ (.foldl offerWaiting _ h))) _ id

/-! ## Deliveries: their end -/

theorem releasePrinter (h : b.RecordsSound) (n : DirNo) : (b.releasePrinter n).RecordsSound := (h.modPrinter n _).unpin n

theorem emptyRecord (h : b.RecordsSound) (l : Lp) : (b.emptyRecord l).RecordsSound :=
  ((h.setRecord l fun _ hx => absurd hx (Option.not_mem_none _)).modLp l _).modDelivery _ id

theorem finish (h : b.RecordsSound) (l : Lp) (o : JobOutcome) (r : JobReason) : (b.finish l o r).RecordsSound := by
  unfold Bridge.finish
  split
  · exact (((h.releasePrinter _).emptyRecord l).endJob _ o r).dispatch
  · exact h

theorem finishCancelled (h : b.RecordsSound) (l : Lp) : (b.finishCancelled l).RecordsSound := by
  unfold Bridge.finishCancelled
  split
  · exact h.finish l _ _
  · exact h

theorem failover (h : b.RecordsSound) (l : Lp) (n : DirNo) : (b.failover l n).RecordsSound := by
  unfold Bridge.failover
  simp only
  split
  · split <;> exact h
  · split
    · split <;> exact h
    · exact h

theorem stopQuiet (h : b.RecordsSound) (l : Lp) : (b.stopQuiet l).RecordsSound := by
  unfold Bridge.stopQuiet
  split
  next d _ =>
    have he := ((h.releasePrinter d.target).failover l d.target).emptyRecord l
    refine countDelivery ?_ _
    split
    · split
      · exact he.endJob _ _ _
      · split
        · exact he.requeue _
        · exact he.endJob _ _ _
    · exact he
  next => exact h

theorem stop (h : b.RecordsSound) (l : Lp) : (b.stop l).RecordsSound := (h.stopQuiet l).dispatch

/-! ## Deliveries: tries and answers -/

theorem setNotResponding (h : b.RecordsSound) (n : DirNo) : (b.setNotResponding n).RecordsSound := h.modPrinter n _

theorem resend (h : b.RecordsSound) (l : Lp) (t : Nat) : (b.resend l t).RecordsSound := h.modRecord l fun _ => rfl

theorem tryEnds (h : b.RecordsSound) (l : Lp) : (b.tryEnds l).RecordsSound := by
  unfold Bridge.tryEnds
  split
  · split
    · exact h.resend l _
    · exact ((h.setNotResponding _).countDelivery _).stop l
  · exact h

theorem holdFrame (h : b.RecordsSound) (l : Lp) (n : Nat) : (b.holdFrame l n).RecordsSound := by
  unfold Bridge.holdFrame
  split
  next d hd => exact (h.modPrinter _ _).setRecord l (by rintro x ⟨⟩; exact h.route (l := l) (d := d) hd)
  next => exact h

theorem pauseFrame (h : b.RecordsSound) (l : Lp) (c : StatusCode) : (b.pauseFrame l c).RecordsSound := by
  unfold Bridge.pauseFrame
  split
  next d hd => exact (h.modPrinter _ _).setRecord l (by rintro x ⟨⟩; exact h.route (l := l) (d := d) hd)
  next => exact h

theorem number_of_job {n : Nat} {j : Job} (hj : b.job n = some j) : j.number = n := by
  simpa using List.find?_some hj

theorem replyFrame (h : b.RecordsSound) (l : Lp) : (b.replyFrame l).RecordsSound := by
  unfold Bridge.replyFrame
  split
  case h_2 => exact h
  case h_1 d _ =>
  split
  case h_2 => exact h
  case h_1 f j _ _ =>
  have hp := h.modPrinter d.target fun r => { r with question := .none }
  extract_lets b₁ j₁ b₂ b₃
  have h₂ : b₂.RecordsSound := by
    unfold b₂
    split
    · exact hp.modJob _ fun _ _ => by rfl
    · exact modSpool (hp.modJob _ fun _ _ => by rfl) _ id
  split
  · have h₃ : b₃.RecordsSound := h₂.modJob _ fun _ e => by exact e
    split
    · exact (h₃.modJob _ fun _ e => by exact e).buildFrame l
    · exact h₃.finish l _ _
  · exact h₂.buildFrame l

theorem frameAnswered (h : b.RecordsSound) (l : Lp) (a : PrinterAnswer) : (b.frameAnswered l a).RecordsSound := by
  unfold Bridge.frameAnswered
  extract_lets c
  have hc : c.RecordsSound := by
    unfold c
    split
    · exact h.countDelivery _
    · exact h
  clear_value c
  split
  next d _ =>
    split
    next =>
      refine finishCancelled ?_ l
      split
      · exact hc.modPrinter _ _
      · exact hc.modPrinter _ _
      · exact hc.modPrinter _ _
      · exact hc
    next =>
      split
      · exact hc.replyFrame l
      · exact hc.holdFrame l _
      · exact hc.holdFrame l _
      · exact hc.holdFrame l _
      · exact (hc.modPrinter _ _).resend l 1
      · exact hc.pauseFrame l _
      · exact hc.tryEnds l
  next => exact hc

theorem leaveSilence (h : b.RecordsSound) (n : DirNo) (s : PrinterStatus) : (b.leaveSilence n s).RecordsSound := h.modPrinter n _

theorem queryAnswered (h : b.RecordsSound) (n : DirNo) (l : Option Lp) (c : StatusCode) : (b.queryAnswered n l c).RecordsSound := by
  unfold Bridge.queryAnswered
  extract_lets silent c
  have hc : c.RecordsSound := h.modPrinter n _
  clear_value c
  split
  · split
    · exact (hc.modPrinter n _).resend _ 1
    · exact hc
  · exact hc

theorem printerAnswer (h : b.RecordsSound) (n : DirNo) (q : OutSeq) (tag : Option Nat) (a : PrinterAnswer) :
    (b.printerAnswer n q tag a).RecordsSound := by
  have hs := (h.countDelivery .unexpectedAnswer).leaveSilence n .unknown
  unfold Bridge.printerAnswer
  simp only
  split
  · split
    · split
      · exact h.frameAnswered _ a
      · exact hs
    · exact hs
  · split
    · split
      · exact h.queryAnswered n _ _
      · exact (h.modPrinter _ _).leaveSilence n _
    · exact hs
  · exact hs

theorem toldOfData (h : b.RecordsSound) (l : Lp) : (b.toldOfData l).RecordsSound := by
  unfold Bridge.toldOfData
  split
  · exact h.buildFrame l
  · exact h

theorem cancelDelivery (h : b.RecordsSound) (l : Lp) (r : JobReason) : (b.cancelDelivery l r).RecordsSound := by
  unfold Bridge.cancelDelivery
  split
  next d _ =>
    have hc : (b.modJob d.job fun j => { j with cancelReason := some r }).RecordsSound := h.modJob _ fun _ e => e
    simp only
    split
    · exact (hc.modJob _ fun _ e => by exact e).modLp l _
    · exact (hc.modJob _ fun _ e => by exact e).modLp l _
    · exact hc.finish l _ _
  next => exact h

theorem cancelJob (h : b.RecordsSound) (n : Nat) (r : JobReason) : (b.cancelJob n r).RecordsSound := by
  unfold Bridge.cancelJob
  split
  · split
    · exact h.endJob n _ _
    · exact h.endJob n _ _
    · exact h.cancelDelivery _ r
    · exact h
  · exact h

/-! ## Deliveries: handing over -/

theorem newQuestion (h : b.RecordsSound) (n : DirNo) (r : Route) : (b.newQuestion n r).2.RecordsSound := by
  unfold Bridge.newQuestion
  split
  · exact h
  · exact h.modEntry n _

theorem joinWaiting (h : b.RecordsSound) (p : Port) (l : Lp) : (b.joinWaiting p l).RecordsSound := h

theorem parityError (h : b.RecordsSound) (l : Lp) (n : Nat) (k : BlockNo) : (b.parityError l n k).RecordsSound := by
  unfold Bridge.parityError
  refine countCapture ?_ _ _ _
  split
  · exact h.finishCancelled l
  · exact h.finish l _ _

theorem offerFrame (h : b.RecordsSound) (l : Lp) {d : Delivery} (hd : namesLower d.route) (f : DeliveryFrame) (q : OutSeq)
    (x : List Byte) : (b.offerFrame l d f q x).RecordsSound := by
  have hset {c : Bridge} (hc : c.RecordsSound) (ph : FramePhase) (g : Option DeliveryFrame) :
      (c.setRecord l (some { d with phase := ph, frame := g })).RecordsSound := hc.setRecord l (by rintro y ⟨⟩; exact hd)
  unfold Bridge.offerFrame
  split
  next mac _ =>
    have hs := h.sendPair (deliveryCarrier l d mac q x) (.delivery l)
    simp only
    split
    next heq => rw [heq] at hs; exact hset hs _ _
    next heq => rw [heq] at hs; exact hset hs _ _
    next heq => rw [heq] at hs; exact (hset hs _ _).tryEnds l
  next =>
    have hs := h.sendEach (b.routePorts d.route) (b.deliveryBlock d q x) (.delivery l) d.route.named
    simp only
    split
    · exact .foldl (fun h p => joinWaiting h p l) _ (hset hs _ _)
    · exact hset hs _ _

theorem handOver (h : b.RecordsSound) (m : Store) (l : Lp) : (b.handOver m l).RecordsSound := by
  unfold Bridge.handOver
  split
  case h_2 => exact h
  case h_1 d hd =>
  have hr := h.route hd
  split
  case h_2 => exact h
  case h_1 f j _ _ =>
  simp only
  split
  · exact h.parityError l _ _
  · have hp : (if d.pace = 0 then b
        else b.modDelivery fun u => { u with pace := u.pace.set l (u.pace[l] - paceWeight f.count) }).RecordsSound := by
      split
      · exact h
      · exact h.modDelivery _ id
    split
    · exact hp.offerFrame l hr _ _ _
    · exact ((hp.newQuestion _ _).modPrinter _ _).offerFrame l hr _ _ _

theorem handOvers (m : Store) : ∀ (k : Nat) {b : Bridge}, b.RecordsSound → (handOvers m k b).RecordsSound
  | 0, _, h => h
  | k + 1, b, h => by
    rw [Bridge.handOvers]
    split
    · exact handOvers m k (h.handOver m _)
    · exact h

theorem handToPhy (h : b.RecordsSound) : b.handToPhy.RecordsSound := by
  unfold Bridge.handToPhy
  split
  · split <;> exact h
  · exact h

theorem settle (h : b.RecordsSound) (m : Store) : (b.settle m).RecordsSound :=
  modSpool (handToPhy (handOvers m _ h.dispatch)) (fun x => { x with toWrite := [] }) id

/-! ## Deliveries: waiting lists and reports -/

theorem listedAccepted (h : b.RecordsSound) (l : Lp) : (b.listedAccepted l).RecordsSound := h.modRecord l fun _ => rfl

theorem offerPlace (p : Port) : ∀ (l : List Lp) {b : Bridge}, b.RecordsSound → (b.offerPlace p l).RecordsSound
  | [], _, h => h
  | l :: rest, b, h => by
    rw [Bridge.offerPlace]
    split
    · exact listedAccepted (offer1 (b := b.modPort p fun x => { x with waiting := rest }) h p _) l
    · exact offerPlace p rest h

theorem offerPairPlace : ∀ (l : List Lp) {b : Bridge}, b.RecordsSound → (b.offerPairPlace l).RecordsSound
  | [], _, h => h
  | l :: rest, b, h => by
    rw [Bridge.offerPairPlace]
    split
    · exact listedAccepted (offerPair (b := b.modPair fun x => { x with waiting := rest }) h _) l
    · exact offerPairPlace rest h

theorem deliverySent (h : b.RecordsSound) (l : Lp) (n : Nat) (w : Time) : (b.deliverySent l n w).RecordsSound :=
  h.modRecord l fun d => by split <;> rfl

theorem deliveryNotSent (h : b.RecordsSound) (l : Lp) (n : Nat) : (b.deliveryNotSent l n).RecordsSound := by
  unfold Bridge.deliveryNotSent
  split
  · exact h.tryEnds l
  · exact h

theorem querySent (h : b.RecordsSound) (n : DirNo) (k : Nat) (w : Time) : (b.querySent n k w).RecordsSound := h.modPrinter n _

theorem queryNotSent (h : b.RecordsSound) (n : DirNo) (k : Nat) : (b.queryNotSent n k).RecordsSound := h.modPrinter n _

theorem listedFlushed (h : b.RecordsSound) (p : Port) (l : Lp) : (b.listedFlushed p l).RecordsSound := by
  unfold Bridge.listedFlushed
  split
  · exact h.tryEnds l
  · exact h

theorem listedPairFlushed (h : b.RecordsSound) (l : Lp) : (b.listedPairFlushed l).RecordsSound := by
  unfold Bridge.listedPairFlushed
  split
  · exact h.tryEnds l
  · exact h

theorem deliveryLosses (h : b.RecordsSound) (f : Route → Bool) : (b.deliveryLosses f).RecordsSound :=
  .foldl (fun h l => by
    split
    · exact h.stop l
    · exact h) _ h

/-! ## Exchanges -/

theorem closeExchange (h : b.RecordsSound) (tag : Nat) : (b.closeExchange tag).RecordsSound :=
  freed (h.setExchanges ⟨rising_drop tag h.exchanges.1, fun x hx => h.exchanges.2 x (mem_drop hx)⟩) (freed_closeExchange b tag)

theorem failExchange (h : b.RecordsSound) (tag : Nat) (r : FailReason) : (b.failExchange tag r).RecordsSound := by
  unfold Bridge.failExchange
  split
  · exact (h.answer _ _ _).closeExchange tag
  · exact h

theorem sendQuestion (h : b.RecordsSound) (tag : Nat) : (b.sendQuestion tag).2.RecordsSound := by
  unfold Bridge.sendQuestion
  split
  case h_2 => exact h
  case h_1 x _ =>
  have hq : (b.modExchange tag fun x => { x with state := .opened .queued, sending := b.serial }).RecordsSound :=
    h.modExchange tag fun _ => rfl
  simp only
  split
  next mac _ =>
    have hs := hq.sendPair
      ((b.modExchange tag fun x => { x with state := .opened .queued, sending := b.serial }).requestFrame tag x mac) (.request tag)
    split <;> next heq => rw [heq] at hs; exact hs
  next => exact hq.sendEach _ _ _ _

theorem resendQuestion (h : b.RecordsSound) (tag : Nat) : (b.resendQuestion tag).RecordsSound := by
  have hs := h.sendQuestion tag
  unfold Bridge.resendQuestion
  split
  next heq => rw [heq] at hs; exact hs
  next heq => rw [heq] at hs; exact hs.failExchange tag _

theorem questionUnanswered (h : b.RecordsSound) (tag : Nat) : (b.questionUnanswered tag).RecordsSound := by
  unfold Bridge.questionUnanswered
  split
  · split
    · exact (h.modExchange tag fun _ => by rfl).resendQuestion tag
    · exact h.failExchange tag _
  · exact h

theorem questionSent (h : b.RecordsSound) (tag k : Nat) (pairSide : Bool) : (b.questionSent tag k pairSide).RecordsSound := by
  unfold Bridge.questionSent
  split
  · exact h.modExchange tag fun _ => rfl
  · exact h

theorem questionNotSent (h : b.RecordsSound) (tag k : Nat) : (b.questionNotSent tag k).RecordsSound := by
  unfold Bridge.questionNotSent
  split
  · exact h.questionUnanswered tag
  · exact h

theorem closeAnswerWindow (h : b.RecordsSound) (tag : Nat) : (b.closeAnswerWindow tag).RecordsSound := by
  unfold Bridge.closeAnswerWindow
  split
  · split
    · split
      · exact h.questionUnanswered tag
      · exact h
    · exact h
  · exact h

theorem endBusyDelay (h : b.RecordsSound) (tag : Nat) : (b.endBusyDelay tag).RecordsSound := by
  unfold Bridge.endBusyDelay
  split
  · split
    · split
      · exact h.resendQuestion tag
      · exact h
    · exact h
  · exact h

theorem timeOutExchange (h : b.RecordsSound) (tag : Nat) : (b.timeOutExchange tag).RecordsSound := by
  unfold Bridge.timeOutExchange
  split
  · split
    · exact h.failExchange tag _
    · exact h
  · exact h

/-- A FREE tag is one of the 16 (R106). -/
theorem lt_of_freeTag {l : List (Nat × Exchange)} {t : Nat} (ht : freeTag l = some t) : t < 16 :=
  List.mem_range.1 (List.mem_of_find?_eq_some ht)

theorem namesLower_resolveRoute {n m : DirNo} {e : Entry} {q : ReqSeq} {d : Direction} {r : Route} {x y : Nat} {u : Bool} {o : OutSeq}
    (hr : b.resolveRoute n m e q = .resolved d r x y u o) : namesLower r := by
  unfold resolveRoute at hr
  split at hr
  next hroute _ =>
    simp only at hr
    split at hr
    next => cases hr; exact namesLower_routeOf hroute
    next =>
      split at hr
      · split at hr <;> cases hr
        exact namesLower_routeOf hroute
      · cases hr
  next hroute _ => cases hr; exact namesLower_routeOf hroute
  next => cases hr

theorem openExchange (h : b.RecordsSound) {tag : Nat} (ht : tag < 16) (a : Asker) {x : Exchange} (hx : namesLower x.targetRoute) :
    (b.openExchange tag a x).RecordsSound := by
  have hput : exchangesSound (put tag x b.exchanges) :=
    ⟨rising_put tag x h.exchanges.1, fun y hy => (mem_put hy).elim (fun e => e ▸ ⟨ht, hx⟩) (h.exchanges.2 y)⟩
  have hs := (((h.setExchanges hput).pin x.requester).pin x.target).sendQuestion tag
  unfold Bridge.openExchange
  simp only
  split
  next heq => rw [heq] at hs; exact hs.failExchange tag _
  next heq => rw [heq] at hs; exact hs.answer _ _ _

theorem advanceSequence (h : b.RecordsSound) (n : DirNo) (u : Bool) (q : OutSeq) : (b.advanceSequence n u q).RecordsSound := by
  unfold Bridge.advanceSequence
  split
  · split
    · exact h.modEntry n _
    · exact h
  · exact h

theorem takeRequest (h : b.RecordsSound) (a : Asker) (n m : DirNo) (e : Entry) (copy : List Byte) (pad : Bool) :
    (b.takeRequest a n m e copy pad).RecordsSound := by
  unfold Bridge.takeRequest
  split
  split
  · exact h.answer _ _ _
  extract_lets c
  have hc : c.RecordsSound := by
    unfold c
    split
    · exact h.closeExchange _
    · exact h
  clear_value c
  split
  · exact hc.answer _ _ _
  split
  · exact hc.answer _ _ _
  split
  · exact hc.answer _ _ _
  split
  · exact hc.answer _ _ _
  next tag htag =>
    split
    · exact hc.answer _ _ _
    next hres => exact (hc.advanceSequence _ _ _).openExchange (lt_of_freeTag htag) a (namesLower_resolveRoute hres)

theorem targetAnswered (h : b.RecordsSound) (tag : Nat) (a : TargetAnswer) : (b.targetAnswered tag a).RecordsSound := by
  unfold Bridge.targetAnswered
  split
  case h_2 => exact h
  case h_1 x _ =>
  split
  · exact h.modExchange tag fun _ => rfl
  · exact h.modExchange tag fun x => by split <;> rfl
  · refine closeExchange ?_ tag
    unfold relayReply
    split
    · exact h.sendEach _ _ _ _
    · exact h.sendPair _ _
  · refine closeExchange (b := b.relayFail x _) ?_ tag
    unfold relayFail
    split
    · exact h.answer _ _ _
    · exact h.sendPair _ _

theorem unexpected (h : b.RecordsSound) (a : TargetAnswer) (d : ErrorDetail) : (b.unexpected a d).RecordsSound := by
  unfold Bridge.unexpected
  split
  · exact h.countCapture _ _ _
  · exact h

theorem exchangeCoaxAnswer (h : b.RecordsSound) (p : Port) (blk : Block) : (b.exchangeCoaxAnswer p blk).RecordsSound := by
  unfold Bridge.exchangeCoaxAnswer
  split
  · split
    · exact h.targetAnswered _ _
    · exact h.unexpected _ _
  · exact h

theorem exchangePairAnswer (h : b.RecordsSound) (f : Carrier) : (b.exchangePairAnswer f).RecordsSound := by
  unfold Bridge.exchangePairAnswer
  split
  · split
    · exact h.targetAnswered _ _
    · exact h.unexpected _ _
  · exact h

theorem exchangeLoss (h : b.RecordsSound) (f : Route → Bool) (tag : Nat) : (b.exchangeLoss f tag).RecordsSound := by
  unfold Bridge.exchangeLoss
  split
  case h_2 => exact h
  case h_1 x _ =>
  simp only
  split
  · refine count ?_ _ _
    split
    · exact h.failExchange tag _
    · exact h.closeExchange tag
  · exact h

theorem exchangeLosses (h : b.RecordsSound) (f : Route → Bool) : (b.exchangeLosses f).RecordsSound :=
  .foldl (fun h tag => h.exchangeLoss f tag) _ h

end RecordsSound
end Bridge
end Sys2Proof.Machine

/-! # Records that stay sound: reports, monitors, plans and print requests (O45). -/

namespace Sys2Proof.Machine
open Sys2Proof

namespace Bridge
namespace RecordsSound

variable {b : Bridge}

/-! ## Send reports, losses and flushes -/

theorem sendReport (h : b.RecordsSound) (o : Origin) (n : Nat) (pairSide : Bool) : (b.sendReport o n pairSide).RecordsSound := by
  unfold Bridge.sendReport
  simp only
  split
  · exact h.questionSent _ _ _
  · exact h.deliverySent _ _ _
  · exact h.querySent _ _ _
  · exact h
  · exact h

theorem frameSent (h : b.RecordsSound) (f : CoaxFrame) : (b.frameSent f).RecordsSound := by
  unfold Bridge.frameSent
  simp only
  split
  · exact h
  · exact sendReport (b := b.markSent f.serial) h _ _ _

theorem lossReport (h : b.RecordsSound) (c : LossCause) (o : Origin) (n : Nat) : (b.lossReport c o n).RecordsSound := by
  unfold Bridge.lossReport
  split
  · split <;> exact h
  · exact h
  · exact h.questionNotSent _ _
  · exact h.deliveryNotSent _ _
  · exact h.queryNotSent _ _
  · exact h
  · exact h
  · exact h
  · exact h

theorem frameLost (h : b.RecordsSound) (c : LossCause) (f : CoaxFrame) : (b.frameLost c f).RecordsSound := by
  unfold Bridge.frameLost
  split
  · exact h
  · exact h.lossReport _ _ _

theorem framesFlushed : ∀ (l : List CoaxFrame) {b : Bridge}, b.RecordsSound → (b.framesFlushed l).RecordsSound
  | [], _, h => h
  | f :: rest, b, h => by
    rw [Bridge.framesFlushed]
    refine framesFlushed rest ?_
    split
    · exact h
    · exact h.frameLost _ _

theorem pairFrameLost (h : b.RecordsSound) (f : PairFrame) : (b.pairFrameLost f).RecordsSound := by
  unfold Bridge.pairFrameLost
  split
  · exact h
  · exact h.lossReport _ _ _

theorem takeFlush (h : b.RecordsSound) (p : Port) : (b.takeFlush p).2.RecordsSound := h

theorem reportFlush (h : b.RecordsSound) (l : List Flush) : (b.reportFlush l).RecordsSound :=
  .foldl (fun h x => .foldl (fun h w => h.listedFlushed x.port w) _ h) _ (framesFlushed _ h)

/-- Ports flushed one after another. -/
theorem takeFlushes (ps : List Port) : ∀ {y : List Flush × Bridge}, y.2.RecordsSound →
    (ps.foldl (fun y p => let x := y.2.takeFlush p; (y.1 ++ [x.1], x.2)) y).2.RecordsSound := by
  induction ps with
  | nil => exact id
  | cons p ps ih => exact fun h => ih (takeFlush h p)

/-! ## The feed state -/

theorem clearEnds (h : b.RecordsSound) (p : Port) : (b.clearEnds p).RecordsSound := h.freed (freed_clearEnds b p)

theorem changeFeed (h : b.RecordsSound) (i : PairNo) (g : Feed → Feed) : (b.changeFeed i g).2.RecordsSound := by
  unfold Bridge.changeFeed
  extract_lets ends could old b₁ new b₂ b₃
  have h₁ : b₁.RecordsSound := h
  have h₂ : b₂.RecordsSound := by
    unfold b₂
    split
    · split
      · exact .foldl (fun h _ => by exact h) _ h₁
      · exact h₁.clearEnds _
    · exact h₁
  have h₃ : b₃.RecordsSound := .foldl (fun h _ => by exact h) _ h₂
  exact takeFlushes _ h₃

theorem follow (h : b.RecordsSound) (i : PairNo) : (b.follow i).2.RecordsSound := by
  unfold Bridge.follow
  extract_lets f a c
  split
  · exact h
  · split
    · split
      · exact h
      · exact h.changeFeed i _
    · split
      · exact h
      · exact h
      · exact h
      · exact h.changeFeed i _

theorem feedNotice (h : b.RecordsSound) (i : PairNo) (s : FeedState) : (b.feedNotice i s).RecordsSound :=
  h.noticed (noticed_feedNotice b i s)

theorem concludeChange (h : b.RecordsSound) (before : Bridge) (l : List Flush) : (b.concludeChange before l).RecordsSound := by
  unfold Bridge.concludeChange
  extract_lets lost b₁ b₂ b₃
  have h₂ : b₂.RecordsSound := by
    unfold b₂
    split
    · exact h.refreshReach
    · exact (h.refreshReach.exchangeLosses _).deliveryLosses _
  exact ((h₂.feedNotice 0 _).feedNotice 1 _).reportFlush l

theorem changeState (h : b.RecordsSound) (p : Port) (s : PortMode) : (b.changeState p s).RecordsSound := by
  unfold Bridge.changeState
  extract_lets old c₁ c₂ z x y
  split
  · exact h
  · have h₂ : c₂.RecordsSound := by
      unfold c₂
      split <;> exact h
    have hx : x.2.RecordsSound := by
      unfold x
      split <;> exact h₂
    exact (hx.follow _).concludeChange _ _

theorem feedEvent (h : b.RecordsSound) (i : PairNo) (g : Feed → Feed) : (b.feedEvent i g).RecordsSound :=
  (h.changeFeed i g).concludeChange _ _

theorem tellOpen (h : b.RecordsSound) (p : Port) : (b.tellOpen p).RecordsSound := by
  unfold Bridge.tellOpen
  simp only
  split <;> exact h

theorem redistribute (h : b.RecordsSound) (p q : Port) : (b.redistribute p q).2.RecordsSound :=
  .foldl (fun h _ => offerPlace p _ h) _ h

theorem countFeed (h : b.RecordsSound) (i : PairNo) (c : Ctr) : (b.countFeed i c).RecordsSound := h

theorem splitNow (h : b.RecordsSound) (i : PairNo) : (b.splitNow i).RecordsSound := by
  unfold Bridge.splitNow
  extract_lets feeding y z
  have hy : y.2.RecordsSound := h.changeFeed i _
  have hz : z.2.RecordsSound := hy.redistribute _ _
  exact (hz.countFeed i _).concludeChange _ _

theorem linkLost (h : b.RecordsSound) : b.linkLost.RecordsSound := by
  unfold Bridge.linkLost
  extract_lets frames waiting b₁ b₂ b₃ b₄
  have h₂ : b₂.RecordsSound := refreshReach (b := b₁) h
  have h₄ : b₄.RecordsSound := ((h₂.exchangeLosses _).deliveryLosses _).countCapture _ _ _
  exact .foldl listedPairFlushed _ (.foldl pairFrameLost _ h₄)

/-! ## The line monitor -/

theorem modMon (h : b.RecordsSound) (p : Port) (f : Monitor → Monitor) : (b.modMon p f).RecordsSound := h

theorem isolate (h : b.RecordsSound) (p : Port) (k : FaultKind) : (b.isolate p k).RecordsSound := (h.modMon p _).changeState p _

theorem latch (h : b.RecordsSound) (p : Port) (k : FaultKind) : (b.latch p k).RecordsSound := by
  unfold Bridge.latch
  split
  · exact h
  · exact (h.modMon p _).capture _ _ _

theorem detect (h : b.RecordsSound) (p : Port) (k : FaultKind) {f : Bridge → Bridge}
    (hf : ∀ {c : Bridge}, c.RecordsSound → (f c).RecordsSound) : (b.detect p k f).RecordsSound := by
  have hc : (f ((b.countLine p (faultCtr k)).latch p k)).RecordsSound := hf (latch (b := b.countLine p (faultCtr k)) h p k)
  unfold Bridge.detect
  simp only
  split
  · exact hc.notify _
  · exact hc

theorem recoveries (h : b.RecordsSound) (p : Port) (l : List FaultKind) : (b.recoveries p l).RecordsSound :=
  .foldl (fun h k => by
    split
    · exact h.notify _
    · exact h) _ h

theorem leaveHold (h : b.RecordsSound) (p : Port) (l : List FaultKind) : (b.leaveHold p l).RecordsSound := by
  unfold Bridge.leaveHold
  extract_lets b₁ m b₂
  have h₁ : b₁.RecordsSound := .foldl (fun h _ => h.modMon p _) _ h
  refine recoveries ?_ p l
  unfold b₂
  split
  · exact h₁.changeState p _
  · exact h₁

theorem testOpen (h : b.RecordsSound) (p : Port) : (b.testOpen p).RecordsSound := by
  unfold Bridge.testOpen
  split
  · exact (h.changeState p _).tellOpen p
  · split
    · exact h.isolate p _
    · exact h.changeState p _

theorem testResult (h : b.RecordsSound) (p : Port) (r : TestResult) : (b.testResult p r).RecordsSound := by
  unfold Bridge.testResult
  extract_lets c
  have hc : c.RecordsSound := h
  split
  · exact hc.changeState p _
  · exact hc.detect p _ fun h => h.isolate p _
  · exact detect (b := c.noteOpenInWait p) hc p _ fun h => h.testOpen p

theorem interruptTest (h : b.RecordsSound) (p : Port) : (b.interruptTest p).RecordsSound := by
  unfold Bridge.interruptTest
  split
  · exact h
  · exact ((h.modMon p _).countCapture _ _ _).changeState p _

theorem echoOpen (h : b.RecordsSound) (p : Port) : (b.echoOpen p).RecordsSound := by
  unfold Bridge.echoOpen
  split
  · exact h.tellOpen p
  · split
    · exact h.isolate p _
    · exact h

theorem measureEcho (h : b.RecordsSound) (p : Port) (a : Nat) : (b.measureEcho p a).RecordsSound := by
  unfold Bridge.measureEcho
  extract_lets c
  have hc : c.RecordsSound := h
  split
  · exact hc
  · split
    · split
      · exact hc
      · exact (hc.modMon p _).detect p _ fun h => h.echoOpen p
    · exact hc

theorem lowSignal (h : b.RecordsSound) (p : Port) : (b.lowSignal p).RecordsSound :=
  (h.modMon p _).detect p _ fun h => by
    split
    · exact h.isolate p _
    · exact h

theorem runCount (h : b.RecordsSound) (p : Port) (n : Nat) : (b.runCount p n).RecordsSound := by
  unfold Bridge.runCount
  split
  · split
    · exact h.lowSignal p
    · exact h
  · extract_lets c
    have hc : c.RecordsSound := h
    split
    · exact hc.leaveHold p _
    · exact hc

theorem degradedFlag (h : b.RecordsSound) (p : Port) : (b.degradedFlag p).RecordsSound := by
  unfold Bridge.degradedFlag
  split
  · split
    · extract_lets c
      have hc : c.RecordsSound := h
      split
      · exact hc.notify _
      · exact hc
    · split <;> exact h
  · exact h

theorem takeSample (h : b.RecordsSound) (p : Port) (w : Option Nat) : (b.takeSample p w).RecordsSound := by
  unfold Bridge.takeSample
  extract_lets w a b₁ b₂
  have h₁ : b₁.RecordsSound := by
    unfold b₁
    split <;> exact h
  have h₂ : b₂.RecordsSound := h₁
  clear_value a b₂
  split
  · exact ((h₂.modMon p _).runCount p _).degradedFlag p
  · exact h₂

theorem disablePort (h : b.RecordsSound) (p : Port) : (b.disablePort p).RecordsSound := (h.modMon p _).changeState p _

theorem enablePort (h : b.RecordsSound) (p : Port) : (b.enablePort p).RecordsSound := (h.modMon p _).changeState p _

theorem clearFaults (h : b.RecordsSound) (p : Port) (k : FaultSet) : (b.clearFaults p k).RecordsSound := by
  unfold Bridge.clearFaults
  extract_lets c removed
  have hc : c.RecordsSound := h
  split
  · exact hc
  · exact (hc.modMon p _).leaveHold p _

/-! ## The plan -/

theorem mem_stageEdit {x y : Edit} : ∀ {l : List Edit}, y ∈ stageEdit x l → y = x ∨ y ∈ l
  | [], hy => .inl (List.mem_singleton.1 hy)
  | z :: l, hy => by
    rw [stageEdit] at hy
    split at hy
    · exact (List.mem_cons.1 hy).imp_right (List.mem_cons_of_mem _)
    · exact (List.mem_cons.1 hy).elim (fun e => .inr (e ▸ List.mem_cons_self)) fun hy =>
        (mem_stageEdit hy).imp_right (List.mem_cons_of_mem _)

theorem sameItem_comm (x y : Edit) : x.sameItem y = y.sameItem x := by
  cases x <;> cases y <;> simp [Edit.sameItem, eq_comm]

theorem sameItem_trans {x y z : Edit} (hxy : x.sameItem y = true) (hyz : y.sameItem z = true) : x.sameItem z = true := by
  cases x <;> cases y <;> cases z <;> simp_all [Edit.sameItem]

/-- An edit takes the place of the pending edit of its item, so that no item has two. -/
theorem pairwise_stageEdit (x : Edit) : ∀ {l : List Edit}, l.Pairwise (fun x y => x.sameItem y = false) →
    (stageEdit x l).Pairwise fun x y => x.sameItem y = false
  | [], _ => List.pairwise_singleton _ _
  | z :: l, h => by
    obtain ⟨hz, hl⟩ := List.pairwise_cons.1 h
    rw [stageEdit]
    split
    next hxz =>
      refine List.pairwise_cons.2 ⟨fun y hy => Bool.eq_false_iff.2 fun hxy => ?_, hl⟩
      exact Bool.eq_false_iff.1 (hz y hy) (sameItem_trans (sameItem_comm x z ▸ hxz) hxy)
    next hxz =>
      refine List.pairwise_cons.2 ⟨fun y hy => ?_, pairwise_stageEdit x hl⟩
      obtain rfl | hy := mem_stageEdit hy
      · rw [sameItem_comm]
        exact Bool.eq_false_iff.2 hxz
      · exact hz y hy

theorem length_stageEdit (x : Edit) : ∀ l : List Edit,
    (stageEdit x l).length = if l.any x.sameItem then l.length else l.length + 1
  | [] => rfl
  | z :: l => by
    have ih := length_stageEdit x l
    cases hz : x.sameItem z <;> simp only [stageEdit, hz, List.any_cons, Bool.true_or, Bool.false_or, if_true, List.length_cons]
    · simp only [Bool.false_eq_true, if_false, List.length_cons, ih]
      split <;> rfl

theorem stage (h : b.RecordsSound) (x : Edit) : (b.stage x).2.2.RecordsSound := by
  unfold Bridge.stage
  extract_lets replaced c
  split
  next => exact h
  next hroom =>
    refine { h with staging := ⟨pairwise_stageEdit x h.staging.1, ?_⟩ }
    have hold := h.staging.2
    have hlen := length_stageEdit x b.dir.staging
    simp only [replaced, Bool.and_eq_true, Bool.not_eq_true', decide_eq_true_eq, not_and, not_le] at hroom
    cases hr : b.dir.staging.any x.sameItem with
    | true => rw [hr] at hlen; exact hlen.trans_le hold
    | false => rw [hr] at hlen; exact hlen.trans_le (hroom hr)

theorem setStaging (h : b.RecordsSound) : (b.modDir fun d => { d with staging := [] }).RecordsSound :=
  { h with staging := ⟨.nil, Nat.zero_le _⟩ }

theorem freeQuiet (h : b.RecordsSound) (n : DirNo) : (b.freeQuiet n).RecordsSound := h.freed (freed_freeQuiet b n)

theorem retireQuiet (h : b.RecordsSound) (n : DirNo) : (b.retireQuiet n).RecordsSound := h.modEntry n _

theorem liftAll (h : b.RecordsSound) (l : List (Port × Nat)) : (b.liftAll l).RecordsSound := h.freed (freed_liftAll b l)

theorem followPrinter (h : b.RecordsSound) (n : DirNo) (k : EntryKind) : (b.followPrinter n k).RecordsSound :=
  h.modDelivery _ fun hr => by
    split
    · exact hr
    · exact hr

theorem stopMoved (h : b.RecordsSound) (l : List Edit) : (b.stopMoved l).RecordsSound :=
  .foldl (fun h n => by
    split
    · exact h.stopQuiet _
    · exact h) _ h

theorem applyEdit {y : Tally × Bridge} (h : y.2.RecordsSound) (x : Edit) : (applyEdit y x).2.RecordsSound := by
  unfold Bridge.applyEdit
  split
  · split
    · simp only
      split
      · exact h.freeQuiet _
      · exact h.retireQuiet _
    · exact h
  · exact (h.modEntries _ fun hr => rising_put _ _ hr).followPrinter _ _
  · split
    · exact h.modLp _ _
    · exact h

theorem applyEdits : ∀ (l : List Edit) {y : Tally × Bridge}, y.2.RecordsSound → (l.foldl Bridge.applyEdit y).2.RecordsSound
  | [], _, h => h
  | x :: l, _, h => applyEdits l (applyEdit h x)

theorem endSetup (h : b.RecordsSound) : b.endSetup.RecordsSound := by
  unfold Bridge.endSetup
  split <;> exact h

theorem applyCommit (h : b.RecordsSound) : b.applyCommit.2.RecordsSound := by
  unfold Bridge.applyCommit
  extract_lets edits y c
  have hy : y.2.RecordsSound := applyEdits _ (h.stopMoved _)
  have hc : c.RecordsSound := .foldl (fun h x => h.liftAll x.2) _ hy
  exact hc.setStaging.refreshReach.endSetup

/-! ## Management -/

theorem settingChanged (h : b.RecordsSound) (p : Port) (x y : PortSettings) : (b.settingChanged p x y).RecordsSound := by
  unfold Bridge.settingChanged
  extract_lets b₁ b₂
  have h₂ : b₂.RecordsSound := h
  split
  · exact h₂
  · split
    · exact h₂.enablePort p
    · exact h₂.disablePort p

theorem setSetting (h : b.RecordsSound) (sel id : Nat) (v : SettingValue) : (b.setSetting sel id v).2.2.RecordsSound := by
  unfold Bridge.setSetting
  split
  · exact h
  · split
    · exact h
    next x _ =>
      have hx : (b.setSettings x).RecordsSound := h
      exact hx.settingChanged _ _ _

theorem readSetting (h : b.RecordsSound) (sel id : Nat) : (b.readSetting sel id).2.2.RecordsSound := by
  unfold Bridge.readSetting
  split <;> exact h

theorem editEntry (h : b.RecordsSound) (sel : Nat) (x : EntryEdit) : (b.editEntry sel x).2.2.RecordsSound := by
  unfold Bridge.editEntry
  extract_lets malformed
  split
  · exact h
  · split
    · exact h
    · exact h.stage _

theorem editPrinter (h : b.RecordsSound) (sel : Nat) (x : Binding) : (b.editPrinter sel x).2.2.RecordsSound := by
  unfold Bridge.editPrinter
  extract_lets bad
  split
  · exact h
  · exact h.stage _

theorem commit (h : b.RecordsSound) : b.commit.2.2.RecordsSound := by
  unfold Bridge.commit
  split
  · exact h
  · split
    · exact h
    · split
      · exact h
      · split
        · exact h
        · exact h.applyCommit

theorem onPort (h : b.RecordsSound) (sel : Nat) {f : Port → Result × AnswerBody × AfterAnswer × Bridge}
    (hf : ∀ p, (f p).2.2.2.RecordsSound) : (b.onPort sel f).2.2.2.RecordsSound := by
  unfold Bridge.onPort
  split
  · exact hf _
  · exact h

theorem onGroup (h : b.RecordsSound) (sel : Nat) {f : Fin 9 → Result × AnswerBody × AfterAnswer × Bridge}
    (hf : ∀ g, (f g).2.2.2.RecordsSound) : (b.onGroup sel f).2.2.2.RecordsSound := by
  unfold Bridge.onGroup
  split
  · exact hf _
  · exact h

theorem requestReset (h : b.RecordsSound) (k : ArmedReset) : (b.requestReset k).2.2.2.RecordsSound := by
  unfold Bridge.requestReset
  split <;> exact h

theorem carryOut (h : b.RecordsSound) (r : ManageReq) : (b.carryOut r).2.2.2.RecordsSound := by
  cases r with
  | setSetting sel id v => exact h.setSetting sel id v
  | readSetting sel id => exact h.readSetting sel id
  | editEntry sel e => exact h.editEntry sel e
  | editPrinter sel x => exact h.editPrinter sel x
  | discardEdits => exact h.setStaging
  | commit => exact h.commit
  | readPort sel => exact h.onPort sel fun _ => h
  | clearFaults sel kinds foreign =>
    refine h.onPort sel fun p => ?_
    split
    · exact h
    · exact h.clearFaults p kinds
  | cancelJob sel =>
    simp only [Bridge.carryOut]
    split
    · exact h.cancelJob _ _
    · exact h
  | readEntry sel =>
    simp only [Bridge.carryOut]
    split <;> exact h
  | readPrinter sel clear =>
    simp only [Bridge.carryOut]
    split
    · exact h.modDelivery _ id
    · exact h
  | readErrors sel => exact h.onGroup sel fun _ => h
  | clearErrors sel clear => exact h.onGroup sel fun _ => h
  | readForwarding clear =>
    simp only [Bridge.carryOut]
    split <;> exact h
  | save =>
    simp only [Bridge.carryOut, plain, beginSave]
    split <;> exact h
  | resetBridge => exact h.requestReset _
  | resetPort sel => exact h.onPort sel fun _ => h.requestReset _
  | readStatus => exact h
  | readSpool sel => exact h
  | readJob sel => exact h

theorem manageAnswer (h : b.RecordsSound) (a : Asker) (l : List Byte) : (b.manageAnswer a l).2.RecordsSound := by
  cases a with
  | coax p src dst seq e =>
    have hs := h.sendEach [p] (Block.build src dst .manage seq l) .agent none
    simp only [Bridge.manageAnswer]
    split <;> exact hs
  | pair mac dst tag seq e =>
    have hs := h.sendPair { mac, kind := .manage, seq, tag, dst := e.getD 0, src := dst, data := l } .agent
    simp only [Bridge.manageAnswer]
    split <;> next heq => rw [heq] at hs; exact hs

theorem takeManage (h : b.RecordsSound) (a : Asker) (code sel : Nat) (r : Option ManageReq) :
    (b.takeManage a code sel r).RecordsSound := by
  unfold Bridge.takeManage
  extract_lets x c y
  have hc : c.RecordsSound := by
    unfold c x
    split
    · split
      · exact h.carryOut _
      · exact h
    · exact h
  have hy : y.2.RecordsSound := hc.manageAnswer a _
  unfold Bridge.armReset
  split <;> exact hy

theorem completeSave (h : b.RecordsSound) (ack : Bool) : (b.completeSave ack).RecordsSound := by
  unfold Bridge.completeSave
  split <;> exact h

/-! ## The job number of a PRINT-OPEN (R123) -/

theorem nextNumber_pos (n : Nat) : 1 ≤ nextNumber n := by
  unfold nextNumber
  split <;> omega

/-- Numbers advanced a few times: ahead by as many, or wrapped to a number no higher than that. -/
theorem nextNumber_iterate (n : Nat) : ∀ d, nextNumber^[d] n = n + d ∨ (nextNumber^[d] n ≤ d ∧ 65535 < n + d)
  | 0 => .inl rfl
  | d + 1 => by
    rw [Function.iterate_succ_apply', nextNumber]
    have ih := nextNumber_iterate n d
    split <;> omega

/-- Numbers advanced from a number at most 32 times do not come back to it. -/
theorem nextNumber_iterate_ne {n d : Nat} (hd : d < 32) : nextNumber^[d + 1] n ≠ n := by
  have h := nextNumber_iterate n (d + 1)
  omega

theorem pickNumber_free (jobs : List Job) : ∀ (k n : Nat),
    (∀ j ∈ jobs, j.number ≠ pickNumber jobs k n) ∨ ∀ d < k, ∃ j ∈ jobs, j.number = nextNumber^[d] n
  | 0, n => .inr fun d hd => absurd hd (Nat.not_lt_zero d)
  | k + 1, n => by
    rw [pickNumber]
    split
    next hin =>
      obtain ⟨j, hj, hjn⟩ : ∃ j ∈ jobs, j.number = n := by simpa using hin
      refine (pickNumber_free jobs k (nextNumber n)).imp_right fun h d hd => ?_
      cases d with
      | zero => exact ⟨j, hj, hjn⟩
      | succ d => exact h d (by omega)
    next hout => exact .inl (by simpa using hout)

/-- The number picked for a new job is in use by none, while fewer than 32 jobs are (R123). -/
theorem pickNumber_ne {jobs : List Job} (hlt : jobs.length < 32) (n : Nat) : ∀ j ∈ jobs, j.number ≠ pickNumber jobs 32 n := by
  obtain h | h := pickNumber_free jobs 32 n
  · exact h
  have hinj : Function.Injective fun d : Fin 32 => nextNumber^[d.val] n := by
    have key : ∀ c d : Nat, c < d → d < 32 → nextNumber^[c] n ≠ nextNumber^[d] n := by
      intro c d hcd hd heq
      obtain ⟨e, rfl⟩ := Nat.exists_eq_add_of_lt hcd
      rw [show c + e + 1 = (e + 1) + c by omega, Function.iterate_add_apply] at heq
      exact nextNumber_iterate_ne (d := e) (by omega) heq.symm
    intro c d heq
    rcases Nat.lt_trichotomy c.val d.val with hcd | hcd | hcd
    · exact absurd heq (key _ _ hcd d.isLt)
    · exact Fin.ext hcd
    · exact absurd heq.symm (key _ _ hcd c.isLt)
  have hsub : (Finset.univ.image fun d : Fin 32 => nextNumber^[d.val] n) ⊆ (jobs.map (·.number)).toFinset := by
    intro m hm
    obtain ⟨d, -, rfl⟩ := Finset.mem_image.1 hm
    obtain ⟨j, hj, hjn⟩ := h d.val d.isLt
    exact List.mem_toFinset.2 (hjn ▸ List.mem_map_of_mem hj)
  have hcard := (Finset.card_le_card hsub).trans (List.toFinset_card_le _)
  rw [Finset.card_image_of_injective _ hinj, Finset.card_univ, Fintype.card_fin, List.length_map] at hcard
  omega

/-! ## Print requests -/

theorem openJob (h : b.RecordsSound) (owner : DirNo) (l : Lp) (n copies : Nat) (urgent : Bool)
    (hn : ∀ j ∈ b.spool.jobs, j.number ≠ n) (hlt : b.spool.jobs.length < 32) : (b.openJob owner l n copies urgent).RecordsSound := by
  unfold Bridge.openJob
  extract_lets m j b₁ b₂
  have h₁ : b₁.RecordsSound := h.modSpool _ fun hj =>
    ⟨List.pairwise_append.2 ⟨hj.1, List.pairwise_singleton _ _, fun x hx y hy => by
      rw [List.mem_singleton.1 hy]; exact hn x hx⟩, by rw [List.length_append]; exact hlt⟩
  have h₂ : b₂.RecordsSound := h₁.pin owner
  split
  · exact h₂.placeJob l n
  · exact h₂

theorem appendData (h : b.RecordsSound) (j : Job) (need : Nat) (data : List Byte) : (b.appendData j need data).RecordsSound := by
  unfold Bridge.appendData
  extract_lets chain b₁ b₂
  have h₁ : b₁.RecordsSound := h.modSpool _ id
  have h₂ : b₂.RecordsSound := h₁.modJob _ fun _ e => by exact e
  split
  · exact h₂.toldOfData _
  · exact h₂

theorem closeJob (h : b.RecordsSound) (j : Job) : (b.closeJob j).RecordsSound := by
  unfold Bridge.closeJob
  extract_lets c
  have hc : c.RecordsSound := h.modJob _ fun _ e => by exact e
  split
  · split
    · exact hc.endJob _ _ _
    · exact (hc.modJob _ fun _ e => by exact e).placeJob _ _
  · split
    · exact hc.endJob _ _ _
    · split
      · exact hc.toldOfData _
      · exact hc

theorem stallJob (h : b.RecordsSound) (j : Job) : (b.stallJob j).RecordsSound := by
  unfold Bridge.stallJob
  refine countCapture ?_ _ _ _
  split
  · exact h.endJob _ _ _
  · extract_lets c
    have hc : c.RecordsSound := h.modJob _ fun _ e => by exact e
    split
    · exact hc.endJob _ _ _
    · split
      · exact hc.toldOfData _
      · exact hc

/-- What a judgement does keeps the records sound, in a bridge with the jobs it was passed on. -/
def JudgedSound (b : Bridge) (y : Judgement) : Prop :=
  ∀ c : Bridge, c.RecordsSound → c.spool.jobs = b.spool.jobs → (y.2 c).RecordsSound

theorem judgeOpen (b : Bridge) (owner : DirNo) (l : Lp) (copies : Nat) (urgent : Bool) :
    JudgedSound b (b.judgeOpen owner l copies urgent) := by
  unfold Bridge.judgeOpen
  split
  · exact fun c hc _ => hc
  split
  · exact fun c hc _ => hc
  next hlt =>
  split
  · exact fun c hc _ => hc
  · intro c hc hj
    have hlt' : b.spool.jobs.length < 32 := Nat.lt_of_not_le hlt
    exact hc.openJob _ _ _ _ _ (hj ▸ pickNumber_ne hlt' _) (hj ▸ hlt')

theorem judgeAppend (b : Bridge) (j : Job) (data : List Byte) : JudgedSound b (b.judgeAppend j data) := by
  unfold Bridge.judgeAppend
  extract_lets blocks need
  split
  · split
    · exact fun c hc _ => (hc.endJob _ _ _).countCapture _ _ _
    · exact fun c hc _ => hc
  · split
    · exact fun c hc _ => hc
    · exact fun c hc _ => hc.appendData _ _ _

theorem judgeData (b : Bridge) (owner : DirNo) (l : Lp) (n seq : Nat) (data : List Byte) :
    JudgedSound b (b.judgeData owner l n seq data) := by
  unfold Bridge.judgeData
  split
  · exact fun c hc _ => hc
  split
  · exact fun c hc _ => hc
  split
  · exact fun c hc _ => hc
  split
  · exact fun c hc _ => hc
  split
  · exact fun c hc _ => hc
  · exact judgeAppend b _ data

theorem judgeClose (b : Bridge) (owner : DirNo) (l : Lp) (n flag : Nat) : JudgedSound b (b.judgeClose owner l n flag) := by
  unfold Bridge.judgeClose
  split
  · exact fun c hc _ => hc
  split
  · exact fun c hc _ => hc
  split
  · exact fun c hc _ => hc
  split
  · exact fun c hc _ => hc.cancelJob _ _
  split
  · exact fun c hc _ => hc
  · exact fun c hc _ => hc.closeJob _

theorem judgePrint (b : Bridge) (owner : DirNo) (l : Lp) (k : Kind) (o : Order) (data : List Byte) :
    JudgedSound b (b.judgePrint owner l k o data) := by
  unfold Bridge.judgePrint
  split
  · exact judgeOpen b _ _ _ _
  · exact judgeData b _ _ _ _ _
  · exact judgeClose b _ _ _ _

theorem rememberAnswer (h : b.RecordsSound) (a : Asker) (k : Kind) (x : Answer) : (b.rememberAnswer a k x).RecordsSound := by
  unfold Bridge.rememberAnswer
  split
  · exact h
  · split <;> exact h

theorem spool_rememberAnswer (b : Bridge) (a : Asker) (k : Kind) (x : Answer) : (b.rememberAnswer a k x).spool = b.spool := by
  unfold Bridge.rememberAnswer
  split
  · rfl
  · split <;> rfl

theorem spool_answer (b : Bridge) (a : Asker) (x : Answer) (named : Bool) : (b.answer a x named).spool = b.spool := by
  cases a with
  | coax p src dst seq e =>
    simp only [Bridge.answer, Bridge.offer0, Bridge.offer1]
    split <;> split <;> rfl
  | pair mac dst tag seq e =>
    obtain ⟨v, q, n, hrest⟩ := (placed_sendPair b (answerFrame mac dst tag seq e x) .answer).rest
    simp only [Bridge.answer]
    split <;> next heq => rw [heq] at hrest; subst hrest; rfl

theorem printRequest (h : b.RecordsSound) (a : Asker) (owner : DirNo) (l : Lp) (k : Kind) (o : Order) (data : List Byte) :
    (b.printRequest a owner l k o data).RecordsSound := by
  unfold Bridge.printRequest
  split
  · exact h.answer _ _ _
  · exact judgePrint b owner l k o data _ ((h.answer _ _ _).rememberAnswer _ _ _)
      (by rw [spool_rememberAnswer, spool_answer])

end RecordsSound
end Bridge
end Sys2Proof.Machine

/-! # Records that stay sound: arrivals, resets and every step (O45). -/

namespace Sys2Proof.Machine
open Sys2Proof

namespace Bridge
namespace RecordsSound

variable {b : Bridge}

/-! ## Arrivals -/

theorem heardFrom (h : b.RecordsSound) (n : DirNo) : (b.heardFrom n).RecordsSound := h.modEntry n _

theorem withdraw (h : b.RecordsSound) (s : Port) (n : Nat) (e : DirNo) : (b.withdraw s n e).RecordsSound :=
  (h.modEntry e _).countCapture _ _ _

theorem checkConflict (h : b.RecordsSound) (s : Port) (n : Nat) : (b.checkConflict s n).RecordsSound := by
  unfold Bridge.checkConflict
  split
  · exact h.withdraw _ _ _
  · exact h

theorem putEntry (h : b.RecordsSound) (n : DirNo) (e : Entry) : (b.modEntries (put n e)).RecordsSound :=
  h.modEntries _ fun hr => rising_put n e hr

theorem learn (h : b.RecordsSound) (s : Port) (n : Nat) : (b.learn s n).2.RecordsSound := by
  unfold Bridge.learn
  split
  · split
    · exact (h.putEntry _ _).refreshReach
    · exact h.countCapture _ _ _
  · exact h

theorem setEnd (h : b.RecordsSound) (p : Port) (n : DirNo) : (b.setEnd p n).RecordsSound := by
  unfold Bridge.setEnd
  split
  · exact (h.modEntry n _).refreshReach
  · exact h

theorem sourceLookup (h : b.RecordsSound) (p : Port) (n : Nat) : (b.sourceLookup p n).2.RecordsSound := by
  unfold Bridge.sourceLookup
  extract_lets s
  split
  · exact (h.heardFrom _).setEnd p _
  · have hl := (h.checkConflict s n).learn s n
    split
    next heq => rw [heq] at hl; exact hl.setEnd p _
    next heq => rw [heq] at hl; exact hl

theorem countForward (h : b.RecordsSound) (c : Ctr) : (b.countForward c).RecordsSound := h

theorem placeData (h : b.RecordsSound) (ps : List Port) (x : Block) : (b.placeData ps x).RecordsSound := by
  have hs := h.sendEach ps x .forward none
  unfold Bridge.placeData
  simp only
  split
  · exact hs
  · exact hs

theorem placePairData (h : b.RecordsSound) (c : Carrier) : (b.placePairData c).RecordsSound := by
  have hs := h.sendPair c .forward
  unfold Bridge.placePairData
  split <;> next heq => rw [heq] at hs; exact hs

theorem forwardData (h : b.RecordsSound) (src : Option DirNo) (n : DirNo) (e : Entry) (a : Arrival) :
    (b.forwardData src n e a).RecordsSound := by
  unfold Bridge.forwardData
  split
  · exact h
  · split
    · split
      · exact h.placeData _ _
      · exact h
    · exact h.placePairData _
    · exact h

theorem copyToSegment (src : Option DirNo) (a : Arrival) (h : b.RecordsSound) (t : Port) : (copyToSegment src a b t).RecordsSound := by
  unfold Bridge.copyToSegment
  extract_lets ps
  split
  · exact h
  · split
    · exact h.placeData _ _
    · exact h

theorem copyToPair (src : Option DirNo) (a : Arrival) (h : b.RecordsSound) : (copyToPair src a b).RecordsSound := by
  unfold Bridge.copyToPair
  split
  · exact h.placePairData _
  · exact h

theorem broadcast (h : b.RecordsSound) (src : Option DirNo) (a : Arrival) : (b.broadcast src a).RecordsSound := by
  unfold Bridge.broadcast
  split
  · exact h
  · split
    · extract_lets s set c
      have hc : c.RecordsSound := .foldl (copyToSegment src _) _ h
      split
      · exact copyToPair src _ hc
      · exact hc
    · exact .foldl (copyToSegment src _) _ h

theorem refuse (h : b.RecordsSound) (a : Asker) : (b.refuse a).RecordsSound := h.answer _ _ _

theorem answerArrival (h : b.RecordsSound) (src : Option DirNo) (a : Arrival) : (b.answerArrival src a).RecordsSound := by
  unfold Bridge.answerArrival
  split
  · exact h.printerAnswer _ _ _ _
  · split
    · exact h
    · split
      · exact h.exchangeCoaxAnswer _ _
      · exact h.exchangePairAnswer _

theorem requestArrival (h : b.RecordsSound) (src : Option DirNo) (n : DirNo) (e : Entry) (a : Arrival) :
    (b.requestArrival src n e a).RecordsSound := by
  unfold Bridge.requestArrival
  split
  · split <;> exact h.takeRequest _ _ _ _ _ _
  · exact h.refuse _

theorem printArrival (h : b.RecordsSound) (src : Option DirNo) (n : DirNo) (a : Arrival) : (b.printArrival src n a).RecordsSound := by
  unfold Bridge.printArrival
  split
  · exact h.printRequest _ _ _ _ _ _
  · exact h.refuse _

theorem dispatchTarget (h : b.RecordsSound) (src : Option DirNo) (n : DirNo) (e : Entry) (a : Arrival) :
    (b.dispatchTarget src n e a).RecordsSound := by
  unfold Bridge.dispatchTarget
  split
  · exact h.answerArrival _ _
  · split
    · split
      · exact h.forwardData _ _ _ _
      · exact h
    · exact h.requestArrival _ _ _ _
    · exact h.printArrival _ _ _
    · exact h.printArrival _ _ _
    · exact h.printArrival _ _ _
    · split
      · exact h.takeManage _ _ _ _
      · exact h.refuse _
    · exact h

theorem dispatchUnknown (h : b.RecordsSound) (src : Option DirNo) (a : Arrival) : (b.dispatchUnknown src a).RecordsSound := by
  unfold Bridge.dispatchUnknown
  split
  · exact h.answerArrival _ _
  · split <;> exact h

theorem dispatchPairLocal (h : b.RecordsSound) (src : Option DirNo) (a : Arrival) : (b.dispatchPairLocal src a).RecordsSound := by
  unfold Bridge.dispatchPairLocal
  split
  · exact h.answerArrival _ _
  · split
    · exact h.refuse _
    · exact h

theorem relay (h : b.RecordsSound) (p : Port) (blk : Block) : (b.relay p blk).RecordsSound := by
  unfold Bridge.relay
  extract_lets q i x
  have hx : x.2.RecordsSound := h.sendEach _ _ _ _
  split
  · split <;> exact hx.countFeed _ _
  · exact h.countFeed _ _

theorem relayIfSplit (h : b.RecordsSound) (p : Port) (blk : Block) (c : Class) : (b.relayIfSplit p blk c).RecordsSound := by
  unfold Bridge.relayIfSplit
  split
  · split
    · exact h.relay p blk
    · exact h
  · split
    · exact h.relay p blk
    · exact h
  · exact h

theorem heardPrinter (h : b.RecordsSound) (src : Option DirNo) : (b.heardPrinter src).RecordsSound := by
  unfold Bridge.heardPrinter
  split
  · split
    · exact h.leaveSilence _ _
    · exact h
  · exact h

theorem dispatchArrival (h : b.RecordsSound) (src : Option DirNo) (k : Class) (a : Arrival) :
    (b.dispatchArrival src k a).RecordsSound := by
  unfold Bridge.dispatchArrival
  extract_lets handed c
  have hc : c.RecordsSound := by
    unfold c
    split
    · exact h
    · exact h.heardPrinter src
  clear_value c
  split
  · exact hc.broadcast _ _
  · exact hc
  · exact hc.dispatchTarget _ _ _ _
  · exact hc.dispatchPairLocal _ _
  · exact hc.dispatchUnknown _ _

theorem takeArrival (h : b.RecordsSound) (src : ArrivalSource) : (b.takeArrival src).RecordsSound := by
  unfold Bridge.takeArrival
  split
  · split
    next rest _ =>
      have hp (p : Port) : (b.modPort p fun x => { x with arrivals := rest }).RecordsSound := h
      exact (((hp _).sourceLookup _ _).relayIfSplit _ _ _).dispatchArrival _ _ _
    next => exact h
  · split
    next rest _ =>
      have hp : (b.modPair fun x => { x with arrivals := rest }).RecordsSound := h
      exact hp.dispatchArrival _ _ _
    next => exact h

/-! ## Carrier frames and the link -/

theorem answerHello (h : b.RecordsSound) (f : Carrier) (k : Kind) (reason dst : Nat) : (b.answerHello f k reason dst).RecordsSound := by
  have hs := h.sendPair { mac := f.mac, kind := k, reason, seq := f.seq, tag := f.tag, dst, src := 1 } .answer
  unfold Bridge.answerHello
  split <;> next heq => rw [heq] at hs; exact hs

theorem hello (h : b.RecordsSound) (f : Carrier) : (b.hello f).RecordsSound := by
  unfold Bridge.hello
  split
  · exact (h.heardFrom _).answerHello _ _ _ _
  · split
    · exact h.answerHello _ _ _ _
    · split
      · exact (h.putEntry _ _).answerHello _ _ _ _
      · exact (h.countCapture _ _ _).answerHello _ _ _ _

theorem fromKnown (h : b.RecordsSound) (f : Carrier) (n : DirNo) : (b.fromKnown f n).RecordsSound := by
  unfold Bridge.fromKnown
  extract_lets b₁ b₂
  have h₁ : b₁.RecordsSound := h.heardFrom n
  have h₂ : b₂.RecordsSound := by
    unfold b₂
    split <;> exact h₁
  exact h₂

theorem receiveFrame (h : b.RecordsSound) (f : EtherIn) : (b.receiveFrame f).RecordsSound := by
  unfold Bridge.receiveFrame
  split
  · exact h
  split
  · exact h
  split
  · exact h
  split
  · exact h
  split
  · exact h
  split
  · exact h
  split
  · exact h
  next c _ =>
    unfold knowSender
    split
    · exact h.hello c
    · split
      · exact h.fromKnown c _
      · split
        · exact h.takeManage _ _ _ _
        · exact h

theorem completeHandover (h : b.RecordsSound) : b.completeHandover.RecordsSound := by
  unfold Bridge.completeHandover
  split
  · extract_lets c
    have hc : c.RecordsSound := h
    exact (offerPairPlace _ hc).sendReport _ _ _
  · exact h

theorem linkComesUp (h : b.RecordsSound) : b.linkComesUp.RecordsSound := by
  unfold Bridge.linkComesUp
  split
  next =>
    have hp : (b.modPair fun x => { x with link := true, waitFrom := none }).RecordsSound := h
    exact hp.refreshReach
  next => exact h

theorem linkGoesDown (h : b.RecordsSound) : b.linkGoesDown.RecordsSound := by
  unfold Bridge.linkGoesDown
  split
  · exact h.linkLost
  · unfold indicationBreak
    split <;> exact h

/-! ## Coax commands -/

theorem receiveBurst (h : b.RecordsSound) (p : Port) (x : Burst) : (b.receiveBurst p x).RecordsSound := by
  unfold Bridge.receiveBurst
  split
  · exact h
  · split
    · exact h
    · unfold handOn
      split <;> exact h

theorem keepAmplitude (h : b.RecordsSound) (p : Port) (x : Burst) : (b.keepAmplitude p x).RecordsSound := by
  unfold Bridge.keepAmplitude
  split <;> exact h

theorem startAttempt (h : b.RecordsSound) (p : Port) : (b.startAttempt p).RecordsSound := by
  unfold Bridge.startAttempt
  split
  · split
    · exact h
    · split <;> exact h
    · exact h
  · exact h

theorem removeHead (h : b.RecordsSound) (p : Port) (k : Bool) : (b.removeHead p k).RecordsSound := by
  unfold Bridge.removeHead
  split
  · exact h
  · extract_lets c
    have hc : c.RecordsSound := h
    exact offerPlace p _ hc

theorem collide (h : b.RecordsSound) (p : Port) : (b.collide p).RecordsSound := by
  unfold Bridge.collide
  split
  · extract_lets c
    have hc : c.RecordsSound := h
    clear_value c
    split
    · split
      · exact hc
      · refine frameLost (removeHead ?_ p _) _ _
        exact hc
    · exact hc
  · exact h

theorem completeSend (h : b.RecordsSound) (p : Port) : (b.completeSend p).RecordsSound := by
  unfold Bridge.completeSend
  split
  · split
    · extract_lets frame c
      have hc : c.RecordsSound := h
      clear_value c frame
      split
      · exact (hc.removeHead p _).frameSent _
      · exact hc
    · exact h
  · exact h

theorem endBackoff (h : b.RecordsSound) (p : Port) : (b.endBackoff p).RecordsSound := by
  unfold Bridge.endBackoff
  split <;> exact h

theorem refillAll (h : b.RecordsSound) : b.refillAll.RecordsSound := by
  unfold Bridge.refillAll
  split
  · have hf : ((List.finRange 4).foldl
        (fun b p => b.modPort p (refill (b.portSettings p).share (b.portSettings p).cap)) b).RecordsSound :=
      .foldl (fun h _ => by exact h) _ h
    exact hf
  · exact h

/-! ## Timers of jobs, entries and deliveries -/

theorem jobStalls (h : b.RecordsSound) (n : Nat) : (b.jobStalls n).RecordsSound := by
  unfold Bridge.jobStalls
  split
  · split
    · exact h.stallJob _
    · exact h
  · exact h

theorem endAgeingPeriod (h : b.RecordsSound) : b.endAgeingPeriod.RecordsSound := by
  unfold Bridge.endAgeingPeriod
  split
  · extract_lets c
    have hc : c.RecordsSound := { h with entries := rising_map _ h.entries }
    exact hc.freed (freed_freeEntries _ c)
  · exact h

theorem paceRefills (h : b.RecordsSound) (l : Lp) : (b.paceRefills l).RecordsSound := by
  unfold Bridge.paceRefills
  split
  next d hd =>
    split
    · exact (h.setRecord l (by rintro x ⟨⟩; exact h.route (l := l) (d := d) hd)).modDelivery _ id
    · exact h
  next => exact h

theorem deliveryWindowCloses (h : b.RecordsSound) (l : Lp) : (b.deliveryWindowCloses l).RecordsSound := by
  unfold Bridge.deliveryWindowCloses
  split
  · split
    · exact h.tryEnds l
    · exact h
  · exact h

theorem holdWaitEnds (h : b.RecordsSound) (l : Lp) : (b.holdWaitEnds l).RecordsSound := by
  unfold Bridge.holdWaitEnds
  split
  · split
    · exact h.resend l 1
    · exact h
  · exact h

theorem nextSerial (h : b.RecordsSound) : b.nextSerial.RecordsSound := h

theorem offerQuery (h : b.RecordsSound) (ps : List Port) (f : CoaxFrame) : (b.offerQuery ps f).RecordsSound :=
  .foldl (fun h p => h.offer0 p f) _ h

theorem sendQuery (h : b.RecordsSound) (n : DirNo) (r : Route) (src : Nat) : (b.sendQuery n r src).RecordsSound := by
  unfold Bridge.sendQuery
  extract_lets q serial c
  have hc : c.RecordsSound := (h.newQuestion n r).modPrinter n _
  clear_value c
  split
  next mac seq =>
    have hs := hc.sendPair { mac, kind := .status, seq, tag := 1, dst := n, src := 1 } (.query n)
    split
    next heq => rw [heq] at hs; exact hs
    next heq => rw [heq] at hs; exact hs.queryNotSent _ _
  next => exact hc.nextSerial.offerQuery _ _

theorem queryDue (h : b.RecordsSound) (n : DirNo) : (b.queryDue n).RecordsSound := by
  unfold Bridge.queryDue
  split
  · exact h.sendQuery _ _ _
  · split
    · split
      · split
        · exact h.sendQuery _ _ _
        · exact h
      · exact h
    · exact h

theorem pollDue (h : b.RecordsSound) (n : DirNo) : (b.pollDue n).RecordsSound := by
  unfold Bridge.pollDue
  split
  · split
    · exact (h.modPrinter n _).queryDue n
    · exact h
  · exact h

theorem queryWindowCloses (h : b.RecordsSound) (n : DirNo) : (b.queryWindowCloses n).RecordsSound := by
  unfold Bridge.queryWindowCloses
  split
  · split
    · exact h.modPrinter n _
    · exact h
  · exact h

theorem pauseEnds (h : b.RecordsSound) (n : DirNo) : (b.pauseEnds n).RecordsSound := by
  unfold Bridge.pauseEnds
  split
  · extract_lets c
    have hc : c.RecordsSound := (h.setNotResponding n).countDelivery _
    clear_value c
    split
    · exact hc.stop _
    · exact hc
  · exact h

/-! ## Line and feed commands -/

theorem testRunEnds (h : b.RecordsSound) (p : Port) (r : TestResult) : (b.testRunEnds p r).RecordsSound := by
  unfold Bridge.testRunEnds
  split
  · exact h.testResult p r
  · exact h

theorem testInterrupted (h : b.RecordsSound) (p : Port) : (b.testInterrupted p).RecordsSound := by
  unfold Bridge.testInterrupted
  split
  · exact h.interruptTest p
  · exact h

theorem testResumes (h : b.RecordsSound) (p : Port) : (b.testResumes p).RecordsSound := by
  unfold Bridge.testResumes
  split <;> exact h

theorem shortDetected (h : b.RecordsSound) (p : Port) (t : Nat) : (b.shortDetected p t).RecordsSound := by
  unfold Bridge.shortDetected
  split
  · exact h.detect p _ fun h => h.isolate p _
  · exact h

theorem jabberDetected (h : b.RecordsSound) (p : Port) : (b.jabberDetected p).RecordsSound := by
  unfold Bridge.jabberDetected
  split
  · refine detect ?_ p _ fun h => h.isolate p _
    exact h
  · exact h

theorem jabberRecovers (h : b.RecordsSound) (p : Port) : (b.jabberRecovers p).RecordsSound := by
  unfold Bridge.jabberRecovers
  split
  · exact h.leaveHold p _
  · exact h

theorem echoMeasured (h : b.RecordsSound) (p : Port) (a : Nat) : (b.echoMeasured p a).RecordsSound := by
  unfold Bridge.echoMeasured
  split
  · exact h.measureEcho p a
  · exact h

theorem sampleDue (h : b.RecordsSound) (p : Port) (w : Option Nat) : (b.sampleDue p w).RecordsSound := by
  unfold Bridge.sampleDue
  split
  · exact h.takeSample p w
  · exact h

theorem switchWindowCloses (h : b.RecordsSound) (i : PairNo) : (b.switchWindowCloses i).RecordsSound := by
  unfold Bridge.switchWindowCloses
  split
  · exact h.feedEvent i _
  · exact h

theorem splitWindowCloses (h : b.RecordsSound) (i : PairNo) : (b.splitWindowCloses i).RecordsSound := by
  unfold Bridge.splitWindowCloses
  split
  · exact h.splitNow i
  · exact h

theorem probeFallsDue (h : b.RecordsSound) (i : PairNo) : (b.probeFallsDue i).RecordsSound := by
  unfold Bridge.probeFallsDue
  split
  · split <;> exact h
  · exact h

theorem pulse (h : b.RecordsSound) (i : PairNo) (a : Nat) (foreign : Bool) : (b.pulse i a foreign).RecordsSound := by
  unfold Bridge.pulse
  extract_lets level disturbed c
  have hc : c.RecordsSound := .foldl (fun h _ => by exact h) _ h
  clear_value c
  split
  · split
    · exact (hc.feedEvent i _).countFeed i _
    · exact hc
  · exact h

/-! ## Resets and the load -/

theorem restartPort (h : b.RecordsSound) (p : Port) (k : FaultSet) : (b.restartPort p k).RecordsSound := h

theorem restartFeed (h : b.RecordsSound) (i : PairNo) (on : Bool) (k : Counters) : (b.restartFeed i on k).RecordsSound := by
  have hf : (b.modFeed i fun _ => Feed.restart on k).RecordsSound := h
  unfold Bridge.restartFeed
  simp only
  split
  · exact hf.clearEnds _
  · exact hf

theorem followBoth (h : b.RecordsSound) : b.followBoth.2.RecordsSound := (h.follow 0).follow 1

theorem endDeliveries (h : b.RecordsSound) : b.endDeliveries.RecordsSound :=
  modSpool (h.modDelivery (fun u =>
    { u with records := Vector.replicate 8 none, pace := Vector.replicate 8 Config.paceLimit, waiting := [], ended := [],
             printers := u.printers.map fun x => (x.1, {}) }) fun _ l d hd => by simp at hd) _ id

theorem resetJobs (h : b.RecordsSound) : b.resetJobs.RecordsSound :=
  .foldl (fun h j => by
    split
    · exact h.retireJob j
    · split
      · exact h.requeue j
      · exact h) _ h

/-- The stages 1 to 4 of a soft reset. -/
theorem softStopped (h : b.RecordsSound) : b.softStopped.RecordsSound := by
  have h₁ : b.softEmptied.RecordsSound := by
    have hp : ((List.finRange 4).foldl emptyPort b).RecordsSound := .foldl (fun h p => by exact h.takeFlush p) _ h
    unfold softEmptied
    exact hp
  have h₂ : b.softClosed.RecordsSound := by
    unfold softClosed
    exact .foldl closeExchange _ h₁
  unfold Bridge.softStopped
  exact h₂.endDeliveries.resetJobs

/-- The stages of a soft reset before its notices. -/
theorem softEnded (h : b.RecordsSound) : b.softEnded.RecordsSound := by
  have h₃ : b.softPinned.RecordsSound := freed h.softStopped.setStaging (freed_softPinned b)
  have h₄ : b.softRestarted.RecordsSound := by
    unfold softRestarted
    exact .foldl (fun h p => by exact h.restartPort p _) _ h₃
  have h₅ : b.softFed.RecordsSound := by
    unfold softFed
    exact (h₄.restartFeed _ _ _).restartFeed _ _ _
  have h₆ : b.softSettled.RecordsSound := by
    unfold softSettled
    exact h₅.followBoth
  have h₇ := h₆.concludeChange b b.softFed.followBoth.1
  unfold Bridge.softEnded
  exact h₇

theorem softReset (h : b.RecordsSound) : b.softReset.RecordsSound := by
  rw [softReset_eq]
  exact h.softEnded.noticed (noticed_resetNotices _ _)

theorem changePairing (h : b.RecordsSound) (i : PairNo) (on : Bool) : (b.changePairing i on).RecordsSound :=
  h.freed (freed_changePairing b i on)

theorem resetFeed (h : b.RecordsSound) (i : PairNo) : (b.resetFeed i).RecordsSound := by
  unfold Bridge.resetFeed
  extract_lets on was c
  have hc : c.RecordsSound := by
    unfold c
    split
    · exact h
    · exact h.changePairing i on
  clear_value c
  split
  · exact hc.restartFeed i _ _
  · exact hc

theorem zeroFeedCounters (h : b.RecordsSound) (i : PairNo) (before : Bridge) : (b.zeroFeedCounters i before).RecordsSound := by
  unfold Bridge.zeroFeedCounters
  split <;> exact h

theorem resetPrinters (h : b.RecordsSound) (ps : List Port) : (b.resetPrinters ps).RecordsSound := h.modDelivery _ id

theorem portReset (h : b.RecordsSound) (p : Port) : (b.portReset p).RecordsSound := by
  unfold Bridge.portReset
  extract_lets before ps x b₁ b₂ ctl b₃ y b₄
  have hx : x.2.RecordsSound := takeFlushes _ h
  have h₁ : b₁.RecordsSound := hx
  have h₂ : b₂.RecordsSound := resetFeed (.foldl (fun h q => by exact h.restartPort q {}) _ h₁) _
  have h₃ : b₃.RecordsSound := h₂
  have h₄ : b₄.RecordsSound := ((h₃.follow _).concludeChange _ _).zeroFeedCounters _ _
  exact resetPrinters (.foldl (fun h q => by exact h) _ h₄) ps

theorem rising_foldl_put {α β : Type} (g : β → α) : ∀ (l : List (Nat × β)) {es : List (Nat × α)}, rising es = true →
    rising (l.foldl (fun es x => put x.1 (g x.2) es) es) = true
  | [], _, h => h
  | x :: l, _, h => rising_foldl_put g l (rising_put x.1 (g x.2) h)

theorem withImage (h : b.RecordsSound) (s : Settings) {es : Entries} (he : rising es = true) (v : Vector Binding 8) :
    (b.withImage s es v).RecordsSound := by
  unfold Bridge.withImage
  extract_lets b₁ b₂ b₃
  have h₁ : b₁.RecordsSound := h
  have h₂ : b₂.RecordsSound := .foldl (fun h _ => by exact h) _ h₁
  have h₃ : b₃.RecordsSound := h₂.modEntries _ fun _ => he
  exact h₃.modSpool _ id

theorem startUp (h : b.RecordsSound) : b.startUp.RecordsSound := by
  unfold Bridge.startUp
  extract_lets b₁ b₂ b₃ b₄ b₅ ctl b₆ x
  have h₁ : b₁.RecordsSound := .foldl (fun h p => by exact h.restartPort p {}) _ h
  have h₄ : b₄.RecordsSound := h₁
  have h₅ : b₅.RecordsSound := h₄.modDelivery _ id
  have h₆ : b₆.RecordsSound := h₅
  exact h₆.followBoth.concludeChange _ _

theorem endLoad (h : b.RecordsSound) (ack : Bool) : (b.endLoad ack).RecordsSound := by
  unfold Bridge.endLoad
  extract_lets r c
  have hc : c.RecordsSound := by
    unfold c
    split
    · exact h.withImage _ (rising_foldl_put _ _ rfl) _
    · exact h.withImage _ (by decide) _
  exact startUp hc

theorem powerValues (b : Bridge) (ph : Phase) (c : ResetCause) : (b.powerValues ph c).RecordsSound where
  entries := rfl
  staging := ⟨.nil, Nat.zero_le _⟩
  exchanges := ⟨rfl, fun _ hx => nomatch hx⟩
  jobs := ⟨.nil, Nat.zero_le _⟩
  deliveries := fun l d hd => by simp [Bridge.powerValues] at hd

theorem pinReset (h : b.RecordsSound) : b.pinReset.RecordsSound := by
  unfold Bridge.pinReset
  split
  · exact h
  · exact powerValues b _ _

theorem resetEnd (h : b.RecordsSound) : b.resetEnd.RecordsSound := by
  unfold Bridge.resetEnd
  split <;> exact h

theorem takeSoftReset (h : b.RecordsSound) : b.takeSoftReset.RecordsSound := by
  unfold Bridge.takeSoftReset
  split
  · split
    · exact h.softReset
    · exact h
  · exact h

theorem takePortReset (h : b.RecordsSound) : b.takePortReset.RecordsSound := by
  unfold Bridge.takePortReset
  split
  · split
    · split
      · exact h.portReset _
      · exact h
    · exact h
  · exact h

theorem takeLoadEnd (h : b.RecordsSound) (ack : Bool) : (b.takeLoadEnd ack).RecordsSound := by
  unfold Bridge.takeLoadEnd
  split
  · exact h.endLoad ack
  · exact h

/-! ## Commands -/

theorem whenRunning (h : b.RecordsSound) {f : Bridge → Bridge} (hf : (f b).RecordsSound) : (b.whenRunning f).RecordsSound := by
  unfold Bridge.whenRunning
  split
  · exact hf
  · exact h

theorem whenPowered (h : b.RecordsSound) {f : Bridge → Bridge} (hf : (f b).RecordsSound) : (b.whenPowered f).RecordsSound := by
  unfold Bridge.whenPowered
  split
  · exact hf
  · exact h

theorem receivesBlock (h : b.RecordsSound) (p : Port) (x : Burst) :
    (((b.whenPowered (·.keepAmplitude p x)).carrierEnds p).whenPowered (·.receiveBurst p x)).RecordsSound := by
  have hk : (b.whenPowered (·.keepAmplitude p x)).RecordsSound := h.whenPowered (h.keepAmplitude p x)
  have hc : ((b.whenPowered (·.keepAmplitude p x)).carrierEnds p).RecordsSound := hk
  exact hc.whenPowered (hc.receiveBurst p x)

end RecordsSound
end Bridge

theorem recordsSound_command {s t : State} {u : List Nat} {f : Bridge → Bridge} (hf : (f s.bridge).RecordsSound)
    (ht : s.command u f = .next t) : t.bridge.RecordsSound := by
  cases ht
  exact hf.settle _

/-- Every command keeps the records sound. -/
theorem recordsSound_exec {s t : State} (c : Instr) (ht : exec c s = .next t) (h : s.bridge.RecordsSound) : t.bridge.RecordsSound := by
  have running {u : List Nat} {f : Bridge → Bridge} (hf : (f s.bridge).RecordsSound)
      (e : s.command u (·.whenRunning f) = .next t) : t.bridge.RecordsSound := recordsSound_command (h.whenRunning hf) e
  have manage (a : Asker) (r : ManageReq) (e : s.manage a r = .next t) : t.bridge.RecordsSound :=
    running (h.takeManage a _ _ _) e
  cases c with
  | receiveBlock p x => 
    exact recordsSound_command (f := fun b => ((b.whenPowered (·.keepAmplitude p x)).carrierEnds p).whenPowered (·.receiveBurst p x))
      (h.receivesBlock p x) ht
  | attemptStart p => exact running (h.startAttempt p) ht
  | collision p => exact running (h.collide p) ht
  | backoffEnd p => exact running (h.endBackoff p) ht
  | sendComplete p => exact running (h.completeSend p) ht
  | repeatMemoryExpire segment asker dst => exact running h ht
  | allowanceRefill => exact recordsSound_command (h.whenPowered h.refillAll) ht
  | linkIndicationOn => exact recordsSound_command (f := (·.indicationOn)) h ht
  | linkUp => exact running h.linkComesUp ht
  | linkDown => exact recordsSound_command h.linkGoesDown ht
  | pairFrameReceive f => exact running (h.receiveFrame f) ht
  | pairSendComplete => exact running h.completeHandover ht
  | pairRepeatExpire asker dst tag => exact running h ht
  | takeArrival src upset => exact running (h.takeArrival src) ht
  | exchangeWindowClose tag => exact running (h.closeAnswerWindow tag) ht
  | busyDelayEnd tag => exact running (h.endBusyDelay tag) ht
  | exchangeTimeout tag => exact running (h.timeOutExchange tag) ht
  | jobStall job => exact running (h.jobStalls job) ht
  | ageingPeriodEnd => exact running h.endAgeingPeriod ht
  | paceRefill lp upset => exact running (h.paceRefills lp) ht
  | deliveryWindowClose lp upset => exact running (h.deliveryWindowCloses lp) ht
  | holdWaitEnd lp upset => exact running (h.holdWaitEnds lp) ht
  | statusQueryDue printer => exact running (h.pollDue printer) ht
  | queryWindowClose printer => exact running (h.queryWindowCloses printer) ht
  | pauseLimit printer => exact running (h.pauseEnds printer) ht
  | saveComplete ack => exact running (h.completeSave ack) ht
  | softReset => exact running h.takeSoftReset ht
  | portReset => exact running h.takePortReset ht
  | powerOn => exact recordsSound_command (.powerValues _ _ _) ht
  | pinReset => exact recordsSound_command h.pinReset ht
  | resetEnd => exact recordsSound_command h.resetEnd ht
  | configLoadEnd ack => exact recordsSound_command (h.takeLoadEnd ack) ht
  | testRunEnd p result => exact running (h.testRunEnds p result) ht
  | testInterrupt p => exact running (h.testInterrupted p) ht
  | testRunResume p => exact running (h.testResumes p) ht
  | shortDetection x => exact running (h.shortDetected _ _) ht
  | jabberDetection p => exact running (h.jabberDetected p) ht
  | jabberRecovery p => exact running (h.jabberRecovers p) ht
  | echoMeasurement p amplitude => exact running (h.echoMeasured p amplitude) ht
  | levelSample x => exact running (h.sampleDue _ _) ht
  | switchWindowClose k => exact running (h.switchWindowCloses k) ht
  | splitWindowClose k => exact running (h.splitWindowCloses k) ht
  | probeDue k => exact running (f := (·.probeFallsDue k)) (h.probeFallsDue k) ht
  | probePulse k amplitude foreign => exact running (h.pulse k amplitude foreign) ht
  | linkIndicationBreak =>
    refine recordsSound_command (f := (·.indicationBreak)) ?_ ht
    simp only [Bridge.indicationBreak]
    split <;> exact h
  | foreignCarrierStart p => exact recordsSound_command (f := (·.carrierStarts p)) h ht
  | _ => exact manage _ _ ht

/-- Settles O45: every operation on a record keeps the records sound, and what is not a record does not matter. -/
theorem recordsStaySound : Obligations.RecordsStaySound := by
  intro s t hs ht
  have h := (recordsSound_iff s).1 hs
  refine (recordsSound_iff t).2 ?_
  unfold step at ht
  split at ht
  · cases ht
    exact h
  · exact recordsSound_exec _ ht h

end Sys2Proof.Machine

/-! # Reach and ageing (O18, O30). -/

namespace Sys2Proof.Machine
open Sys2Proof

namespace Bridge

/-! ## The reach of an entry by its home (R58) -/

theorem reachOf_internal (b : Bridge) {e : Entry} (h : e.home = .internal) : b.reachOf e = true := by rw [reachOf, h]

theorem reachOf_pair (b : Bridge) {e : Entry} {m : Mac} {o : Order} (h : e.home = .pair m o) : b.reachOf e = b.pair.link := by
  rw [reachOf, h]

theorem reachOf_own (b : Bridge) {e : Entry} {p : Port} {n : Nat} (h : e.home = .seg p n) (hp : b.paired p = false) :
    b.reachOf e = true ↔ (b.mon p).state = .active := by
  simp [reachOf, h, hp]

theorem reachOf_lower (b : Bridge) {e : Entry} {i : PairNo} {n : Nat} (h : e.home = .seg (lowerOf i) n)
    (hp : b.paired (lowerOf i) = true) :
    b.reachOf e = match e.endField with
      | some .a => b.canTransmit (lowerOf i)
      | some .b => b.canTransmit (upperOf i)
      | _ => b.canTransmit (lowerOf i) || b.canTransmit (upperOf i) := by
  rcases he : e.endField with _ | (_ | _ | _) <;> simp [reachOf, h, hp, he]

theorem reachOf_upper (b : Bridge) {e : Entry} {i : PairNo} {n : Nat} (h : e.home = .seg (upperOf i) n)
    (hp : b.paired (upperOf i) = true) : b.reachOf e = false := by
  have hne : upperOf i ≠ lowerOf i := (lowerOf_ne_upperOf i).symm
  simp only [reachOf, h, hp, pairOf_upperOf, if_true, if_neg hne]

/-! ## The report of the reach (R59, R150) -/

theorem pollAtReach_eq (now : Time) (old new : Bool) (r : Printer) :
    pollAtReach now old new r =
      if r.status = .notResponding ∧ old = false ∧ new = true then { r with pollFrom := some now }
      else if r.status = .notResponding ∧ old = true ∧ new = false then { r with pollFrom := none } else r := by
  unfold pollAtReach
  by_cases hs : r.status = .notResponding
  · cases old <;> cases new <;> simp [hs]
  · simp [hs]

theorem printer_refreshReach_eq (b : Bridge) (n : DirNo) :
    b.refreshReach.printer n = (b.printer n).map fun r =>
      match b.entry n with
      | some x =>
        if r.status = .notResponding ∧ x.reachable = false ∧ b.reachOf x = true then { r with pollFrom := some b.ctl.now }
        else if r.status = .notResponding ∧ x.reachable = true ∧ b.reachOf x = false then { r with pollFrom := none } else r
      | none => r := by
  refine (look_map_key _ (fun x => ?_) n b.delivery.printers).trans ?_
  · split <;> rfl
  · refine congrArg (fun f => (b.printer n).map f) (funext fun r => ?_)
    dsimp only
    cases b.entry n with
    | none => rfl
    | some x => exact pollAtReach_eq _ _ _ r

end Bridge

/-- Settles O18: the reach by the kind of home, and what the report of the reach changes. -/
theorem reachFollowsTheHome : Obligations.ReachFollowsTheHome := fun b _ =>
  ⟨b.reachOf_internal, fun _ _ => b.reachOf_pair, fun _ _ => b.reachOf_own, fun _ _ => b.reachOf_lower, fun _ _ => b.reachOf_upper,
    b.entry_refreshReach, b.printer_refreshReach_eq, rfl⟩

/-! ## Numbers on a segment, and withdrawals (R42, R53) -/

theorem numberOn_retiring {e : Entry} (t : Port) (h : e.state = .retiring) : numberOn e t = none := if_pos h

theorem numberOn_home {e : Entry} {t : Port} {k : Nat} (hs : e.state ≠ .retiring) (h : e.home = .seg t k) :
    numberOn e t = some k := by
  simp [numberOn, hs, h]

theorem numberOn_shown {e : Entry} {t : Port} (hs : e.state ≠ .retiring) (h : ∀ k, e.home ≠ .seg t k) :
    numberOn e t = if e.shown[t] = true ∧ e.withdrawn[t] = false then e.visible else none := by
  unfold numberOn
  rw [if_neg hs]
  split
  next p n hp =>
    have hpt : p ≠ t := fun e => h n (e ▸ hp)
    simp [hpt]
  next => simp

theorem drop_eq_filter {α : Type} (k : Nat) : ∀ l : List (Nat × α), drop k l = l.filter fun x => x.1 ≠ k
  | [] => rfl
  | (n, v) :: l => by
    have ih := drop_eq_filter k l
    by_cases h : n = k <;> simp [drop, h, ih]

theorem freeOn_iff {es : Entries} {t : Port} {k : Nat} : freeOn es t k = true ↔ ∀ x ∈ es, numberOn x.2 t ≠ some k := by
  simp [freeOn, findOn]

namespace Bridge

/-- The withdrawal of an entry from a segment under a number, which a lift looks for (R53). -/
def withdrawnUnder (t : Port) (k : Nat) (x : Nat × Entry) : Bool :=
  x.2.state ≠ .retiring && x.2.visible = some k && x.2.withdrawn[t]

theorem withdrawnUnder_iff {t : Port} {k : Nat} {x : Nat × Entry} :
    withdrawnUnder t k x = true ↔ x.2.state ≠ .retiring ∧ x.2.visible = some k ∧ x.2.withdrawn[t] = true := by
  simp [withdrawnUnder, and_assoc]

theorem lift_taken (b : Bridge) {t : Port} {k : Nat} (h : ∃ x ∈ b.dir.entries, numberOn x.2 t = some k) : b.lift t k = b := by
  obtain ⟨x, hx, hk⟩ := h
  exact if_neg fun hf => freeOn_iff.1 hf x hx hk

theorem lift_none (b : Bridge) {t : Port} {k : Nat} (h : ∀ x ∈ b.dir.entries, ¬ withdrawnUnder t k x = true) : b.lift t k = b := by
  have hf : b.dir.entries.find? (withdrawnUnder t k) = none := List.find?_eq_none.2 h
  unfold lift
  split
  · split
    next heq => exact nomatch hf.symm.trans heq
    next => rfl
  · rfl

theorem lift_first (b : Bridge) {t : Port} {k : Nat} {front back : Entries} {m : DirNo} {e : Entry}
    (hfree : ∀ x ∈ b.dir.entries, numberOn x.2 t ≠ some k) (hes : b.dir.entries = front ++ (m, e) :: back)
    (hfront : ∀ x ∈ front, ¬ withdrawnUnder t k x = true) (he : withdrawnUnder t k (m, e) = true) :
    b.lift t k = b.modEntry m fun x => { x with withdrawn := x.withdrawn.set t false } := by
  have hf : b.dir.entries.find? (withdrawnUnder t k) = some (m, e) := by
    rw [hes]
    exact find?_of_first (fun x hx => Bool.eq_false_iff.2 (hfront x hx)) (fun _ => id) he
  unfold lift
  rw [if_pos (freeOn_iff.2 hfree)]
  split
  next heq => cases hf.symm.trans heq; rfl
  next heq => exact nomatch hf.symm.trans heq

/-! ## Freeing an entry (R55) -/

theorem freeEntry_free (b : Bridge) {n : DirNo} (h : b.entry n = none) : b.freeEntry n = b := by rw [freeEntry, h]

theorem freeEntry_eq (b : Bridge) {n : DirNo} {e : Entry} (h : b.entry n = some e) :
    b.freeEntry n =
      (((List.finRange 4).filter fun t => b.segmentOf t = t).filterMap fun t => (numberOn e t).map fun k => (t, k)).foldl
        (fun c x => c.lift x.1 x.2)
        (((b.modEntries fun es => es.filter fun x => x.1 ≠ n).modPair fun x =>
          { x with repeats := x.repeats.filter fun r => r.asker ≠ n }).modDelivery fun x =>
            { x with printers := x.printers.filter fun y => y.1 ≠ n }) := by
  have hq : b.freeQuiet n = ((b.modEntries fun es => es.filter fun x => x.1 ≠ n).modPair fun x =>
          { x with repeats := x.repeats.filter fun r => r.asker ≠ n }).modDelivery fun x =>
            { x with printers := x.printers.filter fun y => y.1 ≠ n } := by
    have hd : (drop n : Entries → Entries) = fun es => es.filter fun x => x.1 ≠ n := funext (drop_eq_filter n)
    unfold freeQuiet
    rw [hd]
    simp only [drop_eq_filter]
  rw [freeEntry, h, ← hq]
  rfl

/-- Lifting withdrawals leaves the repeats of the pair side as they are. -/
theorem pairRepeats_liftAll (l : List (Port × Nat)) (b : Bridge) : (b.liftAll l).pair = b.pair := by
  induction l generalizing b with
  | nil => rfl
  | cons x l ih =>
    refine (ih (b.lift x.1 x.2)).trans ?_
    unfold lift
    split
    · split <;> rfl
    · rfl

theorem freeEntry_gone (b : Bridge) {n : DirNo} (h : b.entry n ≠ none) :
    (b.freeEntry n).entry n = none ∧ (b.freeEntry n).printer n = none ∧ ∀ r ∈ (b.freeEntry n).pair.repeats, r.asker ≠ n := by
  obtain ⟨e, he⟩ := Option.ne_none_iff_exists'.1 h
  have hl := freed_liftAll (b.freeQuiet n) (b.presences e)
  have heq : b.freeEntry n = (b.freeQuiet n).liftAll (b.presences e) := by rw [freeEntry, he]
  rw [heq]
  refine ⟨hl.free n (b.entry_freeQuiet_self n), hl.noPrinter (b.printer_freeQuiet_self n), fun r hr => ?_⟩
  rw [pairRepeats_liftAll] at hr
  simpa using (List.mem_filter.1 hr).2

/-! ## The end of an ageing period (R54) -/

theorem endAgeingPeriod_due (b : Bridge) (h : b.dir.ageingDue ≤ b.ctl.now) :
    b.endAgeingPeriod =
      ((b.dir.entries.map fun x => (x.1, aged x.2)).filter fun x =>
        x.2.state = .learned ∧ b.settings.ageLimit ≤ x.2.age ∧ x.2.pins = 0).foldl
        (fun b x => b.freeEntry x.1)
        (b.modDir fun d =>
          { d with entries := d.entries.map fun x => (x.1, aged x.2),
                   ageingDue := d.ageingDue + Time.sec b.settings.ageingPeriod }) := by
  unfold endAgeingPeriod
  rw [if_pos h]
  have hp (x : Nat × Entry) : decide (x.2.state = .learned ∧ b.settings.ageLimit ≤ x.2.age ∧ x.2.pins = 0) =
      (decide (x.2.state = .learned) && decide (b.settings.ageLimit ≤ x.2.age) && decide (x.2.pins = 0)) := by
    rw [Bool.decide_and, Bool.decide_and, Bool.and_assoc]
  simp only [hp]
  rfl

theorem endAgeingPeriod_early (b : Bridge) (h : b.ctl.now < b.dir.ageingDue) : b.endAgeingPeriod = b := if_neg (Nat.not_le.2 h)

end Bridge

theorem exec_ageingPeriodEnd (s : State) (h : s.takesTraffic) :
    exec .ageingPeriodEnd s = .next (s.after [] s.bridge.endAgeingPeriod) :=
  s.command_run [] _ h

/-- Settles O30: the end of a period, the freeing of an entry, the lifting of a withdrawal and the number of an entry on a segment. -/
theorem ageingFreesSilentEntries : Obligations.AgeingFreesSilentEntries := by
  refine ⟨fun s ht hdue => ?_, fun s ht hearly => ?_, fun b n => b.freeEntry_gone,
    fun b n => ⟨b.freeEntry_free, fun e => b.freeEntry_eq⟩,
    fun b t k => ⟨b.lift_taken, fun h => ?_, fun front m e back hfree hes hfront he => ?_⟩,
    fun e t => ⟨numberOn_retiring t, fun k => numberOn_home, numberOn_shown⟩⟩
  · rw [exec_ageingPeriodEnd s ht, Bridge.endAgeingPeriod_due _ hdue]
    rfl
  · rw [exec_ageingPeriodEnd s ht, Bridge.endAgeingPeriod_early _ hearly]
  · exact b.lift_none fun x hx hk => h x hx (Bridge.withdrawnUnder_iff.1 hk)
  · exact b.lift_first hfree hes (fun x hx hk => hfront x hx (Bridge.withdrawnUnder_iff.1 hk)) (Bridge.withdrawnUnder_iff.2 he)

end Sys2Proof.Machine

/-! # Sources of coax blocks: conflicts and learning (O27). -/

namespace Sys2Proof.Machine
open Sys2Proof

/-! ## Lookups that find the first listed entry (R44, R45) -/

/-- The home lookup of R44 asks for an entry in the plan with a home port and number. -/
theorem findHome_eq (es : Entries) (t : Port) (n : Nat) :
    findHome es t n = es.find? fun x => x.2.state ≠ .retiring ∧ x.2.home = .seg t n := by
  unfold findHome
  congr 1
  funext x
  cases hx : x.2.home <;> simp

theorem findHome_first {es front back : Entries} {t : Port} {n k : Nat} {e : Entry} (hes : es = front ++ (k, e) :: back)
    (hs : e.state ≠ .retiring) (he : e.home = .seg t n) (hf : ∀ x ∈ front, x.2.state = .retiring ∨ x.2.home ≠ .seg t n) :
    findHome es t n = some (k, e) := by
  rw [findHome_eq, hes]
  refine find?_of_first (p := fun x => decide (x.2.state ≠ .retiring ∧ x.2.home = .seg t n)) (fun x hx => ?_) (fun _ => id)
    (decide_eq_true ⟨hs, he⟩)
  exact decide_eq_false fun h => (hf x hx).elim h.1 fun hne => hne h.2

theorem findHome_none {es : Entries} {t : Port} {n : Nat} (h : ∀ x ∈ es, x.2.state = .retiring ∨ x.2.home ≠ .seg t n) :
    findHome es t n = none := by
  rw [findHome_eq]
  exact List.find?_eq_none.2 fun x hx hk => (h x hx).elim (of_decide_eq_true hk).1 fun hne => hne (of_decide_eq_true hk).2

theorem findOn_first {es front back : Entries} {t : Port} {n k : Nat} {e : Entry} (hes : es = front ++ (k, e) :: back)
    (he : numberOn e t = some n) (hf : ∀ x ∈ front, numberOn x.2 t ≠ some n) : findOn es t n = some (k, e) := by
  rw [hes]
  exact find?_of_first (p := fun x => decide (numberOn x.2 t = some n)) (fun x hx => decide_eq_false (hf x hx)) (fun _ => id)
    (decide_eq_true he)

theorem findOn_none {es : Entries} {t : Port} {n : Nat} (h : ∀ x ∈ es, numberOn x.2 t ≠ some n) : findOn es t n = none :=
  List.find?_eq_none.2 fun x hx hk => h x hx (of_decide_eq_true hk)

/-! ## The source lookup (R44, R48, R49, R51, R52, R60) -/

/-- The two ports of a pair lie on one feed controller, whichever of them gives the segment its number (R42). -/
theorem pairOf_segmentOf (b : Bridge) (p : Port) : pairOf (b.segmentOf p) = pairOf p := by
  unfold Bridge.segmentOf
  split
  · exact Bridge.pairOf_lowerOf _
  · rfl

theorem paired_segmentOf (b : Bridge) (p : Port) : b.paired (b.segmentOf p) = b.paired p := by
  simp only [Bridge.paired, pairOf_segmentOf]

theorem mem_segments {b : Bridge} {q : Port} : b.segments.contains q = true ↔ b.segmentOf q = q := by
  simp [Bridge.segments]

namespace Bridge

theorem steady_checkConflict (b : Bridge) (t : Port) (n : Nat) : Steady b (b.checkConflict t n) := by
  unfold checkConflict
  split
  · exact (Steady.ofKept (.ofEntries b _)).trans (steady_countCapture _ _ _ _)
  · exact .refl b

/-- A bridge whose entry has been heard on a port: in SPLIT the end of that port is written into it (R60). -/
theorem setEnd_eq {b c : Bridge} (h : Steady b c) (p : Port) (k : DirNo) :
    c.setEnd p k = if b.paired p = true ∧ (b.feed (pairOf p)).state = .split then
      (c.modEntry k fun x => { x with endField := some (if p.val % 2 = 0 then .a else .b) }).refreshReach
      else c := by
  have hs : (c.feed (pairOf p)).state = (b.feed (pairOf p)).state := congrArg (·.state) (h.feed (pairOf p))
  by_cases hp : p.val % 2 = 0 <;>
    simp only [setEnd, inSplit, h.paired p, hs, sideOf, hp, Bool.and_eq_true, decide_eq_true_eq, if_true, if_false]

/-- The set on which auto-show shows a station is known by its ports (R49). -/
theorem autoShown_eq {b c : Bridge} (h : Steady b c) {t : Port} {n : Nat} {shown : PortSet}
    (hshown : ∀ q : Port, shown[q] = true ↔ (b.portSettings t).autoShow = true ∧ b.segmentOf q = q ∧ q ≠ t ∧
      b.settings.autoShowSet[q] = true ∧ findOn c.dir.entries q n = none) : c.autoShown t n = shown := by
  refine Vector.ext fun i hi => ?_
  have hq := hshown ⟨i, hi⟩
  have hseg : c.segments.contains ⟨i, hi⟩ = true ↔ b.segmentOf ⟨i, hi⟩ = ⟨i, hi⟩ := by rw [mem_segments, h.segmentOf]
  refine Bool.eq_iff_iff.2 (Iff.trans ?_ hq.symm)
  simp only [autoShown, Vector.getElem_ofFn, Bool.and_eq_true, hseg, portSettings, h.settings, freeOn, decide_eq_true_eq,
    Option.isNone_iff_eq_none, and_assoc, ne_eq]

theorem learnedEntry_eq {b c : Bridge} (h : Steady b c) (p : Port) {n : Nat} {shown : PortSet}
    (hshown : c.autoShown (b.segmentOf p) n = shown) :
    c.learnedEntry (b.segmentOf p) n =
      { state := .learned, kind := .station, home := .seg (b.segmentOf p) n,
        endField := if b.paired p then some .unknown else none,
        visible := if shown = PortSet.none then none else some n, shown } := by
  simp only [learnedEntry, hshown, h.paired, paired_segmentOf, PortSet.isEmpty, decide_eq_true_eq]

theorem learn_off (c : Bridge) {t : Port} (n : Nat) (h : (c.portSettings t).learning = false) : c.learn t n = (none, c) := by
  simp [learn, h]

theorem learn_free (c : Bridge) {t : Port} (n : Nat) {k : DirNo} (h : (c.portSettings t).learning = true)
    (hk : lowestFree c.dir.entries = some k) :
    c.learn t n = (some k, (c.modEntries (put k (c.learnedEntry t n))).refreshReach) := by
  simp [learn, h, hk]

theorem learn_full (c : Bridge) {t : Port} (n : Nat) (h : (c.portSettings t).learning = true)
    (hk : lowestFree c.dir.entries = none) : c.learn t n = (none, c.countCapture mapGroup .mapFull (.learnCoax t n)) := by
  simp [learn, h, hk]

theorem sourceLookup_known (b : Bridge) (p : Port) {n : Nat} {k : DirNo} {e : Entry}
    (h : findHome b.dir.entries (b.segmentOf p) n = some (k, e)) : b.sourceLookup p n = (some k, (b.heardFrom k).setEnd p k) := by
  simp only [sourceLookup, h]

theorem sourceLookup_learned {b c : Bridge} {p : Port} {n : Nat} {k : DirNo} (h : findHome b.dir.entries (b.segmentOf p) n = none)
    (hl : (b.checkConflict (b.segmentOf p) n).learn (b.segmentOf p) n = (some k, c)) : b.sourceLookup p n = (some k, c.setEnd p k) := by
  simp only [sourceLookup, h, hl]

theorem sourceLookup_unlearned {b c : Bridge} {p : Port} {n : Nat} (h : findHome b.dir.entries (b.segmentOf p) n = none)
    (hl : (b.checkConflict (b.segmentOf p) n).learn (b.segmentOf p) n = (none, c)) : b.sourceLookup p n = (none, c) := by
  simp only [sourceLookup, h, hl]

/-- The conflict check, with what an entry found on the segment under the number undergoes (R51, R52). -/
theorem checkConflict_eq (b : Bridge) (t : Port) (n : Nat) :
    b.checkConflict t n = match findOn b.dir.entries t n with
      | some (m, _) =>
        ((b.modEntry m fun x => { x with withdrawn := x.withdrawn.set t true }).count 6 .conflict).capture 6 .conflict
          (.conflict t n m)
      | none => b := by
  unfold checkConflict
  cases findOn b.dir.entries t n <;> rfl

end Bridge

/-- Settles O27: the two cases of a source lookup, and the first entry that a lookup finds. -/
theorem conflictAndLearning : Obligations.ConflictAndLearning := by
  refine ⟨fun b p n => ?_, fun es front back t n k e hes => ⟨findHome_first hes, findOn_first hes⟩,
    fun es t n => ⟨findHome_none, findOn_none⟩⟩
  intro t heard
  refine ⟨fun k e h => ?_, fun h => ?_⟩
  · have hheard : Steady b (b.heardFrom k) := .ofKept (.ofEntries b _)
    rw [b.sourceLookup_known p h, Bridge.setEnd_eq hheard p k]
    rfl
  intro c
  have hc : b.checkConflict t n = c := b.checkConflict_eq t n
  have hbc : Steady b c := hc ▸ b.steady_checkConflict t n
  have hset : (c.portSettings t).learning = (b.portSettings t).learning := by rw [Bridge.portSettings, hbc.settings]; rfl
  clear_value c
  subst hc
  refine ⟨fun hoff => ?_, fun hon => ⟨fun k shown h10 h384 hk hlow hshown => ?_, fun hfull => ?_⟩⟩
  · exact Bridge.sourceLookup_unlearned h (Bridge.learn_off _ n (hset.trans hoff))
  · have hlearn := Bridge.learn_free _ n (hset.trans hon) (Bridge.lowestFree_of_lowest _ h10 h384 hk hlow)
    rw [Bridge.learnedEntry_eq hbc p (Bridge.autoShown_eq hbc hshown)] at hlearn
    rw [Bridge.sourceLookup_learned h hlearn,
      Bridge.setEnd_eq ((hbc.trans (.ofKept (.ofEntries _ _))).trans (Bridge.steady_refreshReach _)) p k]
  · exact Bridge.sourceLookup_unlearned h (Bridge.learn_full _ n (hset.trans hon) (Bridge.lowestFree_none _ hfull))

end Sys2Proof.Machine

/-! # Changes of port state, isolation and recovery (O55). -/

namespace Sys2Proof.Machine
open Sys2Proof

theorem lostBy_port (lost : List Port) (q : Port) : lostBy lost (.port q) = true ↔ q ∈ lost := List.contains_iff_mem

theorem lostBy_unknownEnd (lost : List Port) (q : Port) : lostBy lost (.unknownEnd q) = true ↔ ∃ x ∈ lost, pairOf x = pairOf q := by
  simp [lostBy]

namespace Bridge

/-! ## A change of port state (R157, R171) -/

/-- The port that takes a new state, its driver and its allowance, before anything is flushed or reported. -/
def turned (b : Bridge) (p : Port) (st : PortMode) : Bridge :=
  b.modPort p fun x =>
    { x with mon := { x.mon with state := st, runFrom := if st = .testing then some b.ctl.now else none,
                                 restarts := if st = .testing then 0 else x.mon.restarts,
                                 echo := if st = .active then 0 else x.mon.echo, echoDue := false },
             allowance := if st = .active then (b.portSettings p).cap else x.allowance,
             remainder := if st = .active then 0 else x.remainder }

theorem turned_eq (b : Bridge) (p : Port) (st : PortMode) :
    (if st = .active then (b.modMon p (Monitor.enter b.now st)).fullAllowance p else b.modMon p (Monitor.enter b.now st)) =
      b.turned p st := by
  by_cases h : st = .active
  · rw [if_pos h, fullAllowance, modMon, modPort_modPort]
    exact modPort_congr b p (by simp [h, Monitor.enter]; rfl)
  · rw [if_neg h]
    exact modPort_congr b p (by simp [h, Monitor.enter])

theorem changeState_same (b : Bridge) (p : Port) {st : PortMode} (h : (b.mon p).state = st) : b.changeState p st = b :=
  if_pos h.symm

theorem changeState_flushed (b : Bridge) (p : Port) {st : PortMode} (h : (b.mon p).state ≠ st)
    (hf : (b.mon p).state = .active ∨ st = .off) :
    b.changeState p st =
      (((b.turned p st).takeFlush p).2.follow (pairOf p)).2.concludeChange b
        (((b.turned p st).takeFlush p).1 :: (((b.turned p st).takeFlush p).2.follow (pairOf p)).1) := by
  simp only [changeState, if_neg h.symm, if_pos hf, turned_eq]
  rfl

theorem changeState_unflushed (b : Bridge) (p : Port) {st : PortMode} (h : (b.mon p).state ≠ st) (ha : (b.mon p).state ≠ .active)
    (ho : st ≠ .off) :
    b.changeState p st = ((b.turned p st).follow (pairOf p)).2.concludeChange b ((b.turned p st).follow (pairOf p)).1 := by
  have hf : ¬ ((b.mon p).state = .active ∨ st = .off) := not_or.2 ⟨ha, ho⟩
  simp only [changeState, if_neg h.symm, if_neg hf, turned_eq]
  rfl

theorem concludeChange_eq (b before : Bridge) (l : List Flush) :
    let lost := (List.finRange 4).filter fun p => before.canTransmit p = true ∧ b.canTransmit p = false
    let c := b.refreshReach
    let d := if lost = [] then c else (c.exchangeLosses (lostBy lost)).deliveryLosses (lostBy lost)
    b.concludeChange before l = ((d.feedNotice 0 (before.feed 0).state).feedNotice 1 (before.feed 1).state).reportFlush l := by
  have hlost : ((List.finRange 4).filter fun p => before.canTransmit p && !b.canTransmit p) =
      (List.finRange 4).filter fun p => before.canTransmit p = true ∧ b.canTransmit p = false :=
    List.filter_congr fun p _ => by cases before.canTransmit p <;> cases b.canTransmit p <;> rfl
  simp only [concludeChange, hlost, List.isEmpty_iff]

/-! ## Causes put into the hold set and taken out of it (R156, R157) -/

theorem leaveHold_one (b : Bridge) (p : Port) (k : FaultKind) :
    let c := b.modMon p (Monitor.releases k (b.portSettings p).sampling)
    let m := c.mon p
    let d := if m.state = .isolated ∧ m.hold.isEmpty = true then c.changeState p (if m.testOwed then .testing else .active) else c
    b.leaveHold p [k] = if (d.portSettings p).report.has k = true then d.notify (.recovery p k (d.mon p).state) else d := rfl

/-! ## What a change of port state leaves of the wires -/

theorem carrier_modPort (b : Bridge) (p q : Port) {f : PortState → PortState} (h : (f (b.port p)).carrier = (b.port p).carrier) :
    ((b.modPort p f).port q).carrier = (b.port q).carrier := by
  rw [port_modPort]
  split
  next e => subst e; exact h
  next => rfl

theorem carrier_takeFlushes (q : Port) : ∀ (ps : List Port) (y : List Flush × Bridge),
    ((ps.foldl (fun y p => let x := y.2.takeFlush p; (y.1 ++ [x.1], x.2)) y).2.port q).carrier = (y.2.port q).carrier
  | [], _ => rfl
  | p :: ps, y => (carrier_takeFlushes q ps _).trans (carrier_modPort y.2 p q rfl)

theorem carrier_foldl_modPort (q : Port) {f : Bridge → Port → PortState → PortState}
    (hf : ∀ c p, (f c p (c.port p)).carrier = (c.port p).carrier) : ∀ (ps : List Port) (b : Bridge),
    ((ps.foldl (fun c p => c.modPort p (f c p)) b).port q).carrier = (b.port q).carrier
  | [], _ => rfl
  | p :: ps, b => (carrier_foldl_modPort q hf ps _).trans (carrier_modPort b p q (hf b p))

theorem carrier_changeFeed (b : Bridge) (i : PairNo) (g : Feed → Feed) (q : Port) :
    ((b.changeFeed i g).2.port q).carrier = (b.port q).carrier := by
  unfold changeFeed
  extract_lets ends could old b₁ new b₂ b₃
  have h₂ : (b₂.port q).carrier = (b.port q).carrier := by
    unfold b₂
    split
    · split
      · exact carrier_foldl_modPort q (f := fun _ _ x => { x with mon := { x.mon with echo := 0 } }) (fun _ _ => rfl) _ b₁
      · rfl
    · rfl
  have h₃ : (b₃.port q).carrier = (b₂.port q).carrier :=
    carrier_foldl_modPort q (f := fun c p x => { x with allowance := (c.portSettings p).cap, remainder := 0 }) (fun _ _ => rfl) _ b₂
  exact (carrier_takeFlushes q _ _).trans (h₃.trans h₂)

theorem carrier_follow (b : Bridge) (i : PairNo) (q : Port) : ((b.follow i).2.port q).carrier = (b.port q).carrier := by
  unfold follow
  extract_lets f a c
  split
  · rfl
  · split
    · split
      · rfl
      · exact carrier_changeFeed _ _ _ _
    · split
      · rfl
      · rfl
      · rfl
      · exact carrier_changeFeed _ _ _ _

theorem carrier_changeState (b : Bridge) (p : Port) (st : PortMode) (q : Port) :
    ((b.changeState p st).port q).carrier = (b.port q).carrier := by
  have hturned : ((b.turned p st).port q).carrier = (b.port q).carrier := carrier_modPort b p q rfl
  by_cases h : (b.mon p).state = st
  · rw [b.changeState_same p h]
  by_cases hf : (b.mon p).state = .active ∨ st = .off
  · rw [b.changeState_flushed p h hf, (steady_concludeChange _ _ _).carrier, carrier_follow]
    exact (carrier_modPort (b.turned p st) p q rfl).trans hturned
  · obtain ⟨ha, ho⟩ := not_or.1 hf
    rw [b.changeState_unflushed p h ha ho, (steady_concludeChange _ _ _).carrier, carrier_follow, hturned]

theorem carrier_detect_isolate (b : Bridge) (p : Port) (k : FaultKind) (q : Port) :
    ((b.detect p k (·.isolate p k)).port q).carrier = (b.port q).carrier := by
  have hlatch (c : Bridge) : ((c.latch p k).port q).carrier = (c.port q).carrier := by
    unfold latch
    split
    · rfl
    · rw [(steady_capture _ _ _ _).carrier]
      exact carrier_modPort c p q rfl
  have hiso (c : Bridge) : ((c.isolate p k).port q).carrier = (c.port q).carrier := by
    rw [isolate, carrier_changeState]
    exact carrier_modPort c p q rfl
  unfold detect
  extract_lets fresh c
  have hc : (c.port q).carrier = (b.port q).carrier := by
    rw [hiso, hlatch]
    rfl
  split
  · rw [(steady_notify _ _).carrier, hc]
  · exact hc

/-- The monitor of a port that a detected fault has isolated: the kind latched, and held (R157, R165). -/
theorem mon_detect_isolate (b : Bridge) (p : Port) (k : FaultKind) :
    ((b.detect p k (·.isolate p k)).mon p).state = .isolated ∧
    ((b.detect p k (·.isolate p k)).mon p).hold = FaultSet.put (b.mon p).hold k true ∧
    ((b.detect p k (·.isolate p k)).mon p).latched = FaultSet.put (b.mon p).latched k true ∧
    (k = .jabber → ((b.detect p k (·.isolate p k)).mon p).jabberFrom = none) := by
  have hl : ((b.countLine p (faultCtr k)).latch p k).mon p = { b.mon p with latched := FaultSet.put (b.mon p).latched k true } := by
    rw [mon_latch, mon_modMon_self]
    rfl
  rw [mon_detect, mon_isolate, hl]
  split
  next h => exact ⟨h, rfl, rfl, fun e => if_pos e⟩
  next => exact ⟨rfl, rfl, rfl, fun e => if_pos e⟩

/-! ## The commands (R162, R163) -/

theorem shortLasts_iff (b : Bridge) (p : Port) (n : Nat) :
    b.shortLasts p n = true ↔ (b.portSettings p).deglitch ≤ n ∧ ∀ a, (b.port p).attempt = some a → n ≤ 8 * (b.ctl.now - a.start) := by
  simp [shortLasts, Option.all_eq_true]

theorem shortDetected_acts (b : Bridge) (p : Port) {n : Nat} (ha : (b.mon p).state = .active) (hd : b.driving p = true)
    (hn : (b.portSettings p).deglitch ≤ n) (hw : ∀ a, (b.port p).attempt = some a → n ≤ 8 * (b.ctl.now - a.start)) :
    b.shortDetected p n = b.detect p .short (·.isolate p .short) :=
  if_pos ⟨ha, hd, (b.shortLasts_iff p n).2 ⟨hn, hw⟩⟩

theorem shortDetected_idle (b : Bridge) (p : Port) {n : Nat}
    (h : (b.mon p).state ≠ .active ∨ b.driving p = false ∨ n < (b.portSettings p).deglitch ∨
      ∃ a, (b.port p).attempt = some a ∧ 8 * (b.ctl.now - a.start) < n) : b.shortDetected p n = b := by
  refine if_neg fun ⟨ha, hd, hs⟩ => ?_
  obtain ⟨hn, hw⟩ := (b.shortLasts_iff p n).1 hs
  obtain h | h | h | ⟨a, hat, h⟩ := h
  · exact h ha
  · exact Bool.false_ne_true (h.symm.trans hd)
  · exact absurd hn (Nat.not_le.2 h)
  · exact absurd (hw a hat) (Nat.not_le.2 h)

theorem jabberDetected_acts (b : Bridge) (p : Port) {c : Carriage} (ho : (b.mon p).state ≠ .off)
    (hc : (b.port p).carrier = some c) (hj : c.jabbered = false) (ht : c.start + 640 < b.ctl.now) :
    b.jabberDetected p =
      (b.modPort p fun x => { x with carrier := some { c with jabbered := true } }).detect p .jabber (·.isolate p .jabber) := by
  have hjab : b.jabbers p = true := by simpa [jabbers, hc, hj] using ht
  rw [jabberDetected, if_pos ⟨ho, hjab⟩]
  exact congrArg (fun d : Bridge => d.detect p .jabber (·.isolate p .jabber)) (modPort_congr b p (by rw [hc]; rfl))

theorem jabberDetected_idle (b : Bridge) (p : Port)
    (h : (b.mon p).state = .off ∨ (b.port p).carrier = none ∨
      ∃ c, (b.port p).carrier = some c ∧ (c.jabbered = true ∨ b.ctl.now ≤ c.start + 640)) : b.jabberDetected p = b := by
  refine if_neg fun ⟨ho, hj⟩ => ?_
  obtain h | h | ⟨c, hc, h⟩ := h
  · exact ho h
  · simp [jabbers, h] at hj
  · have hj' : c.jabbered = false ∧ c.start + 640 < b.ctl.now := by simpa [jabbers, hc] using hj
    obtain h | h := h
    · exact Bool.false_ne_true (hj'.1.symm.trans h)
    · exact absurd hj'.2 (Nat.not_lt.2 h)

theorem jabberRecovers_acts (b : Bridge) (p : Port) {t : Time} (hh : (b.mon p).hold.jabber = true) (hc : (b.port p).carrier = none)
    (hf : (b.mon p).jabberFrom = some t) (ht : t + 62500 ≤ b.ctl.now) : b.jabberRecovers p = b.leaveHold p [.jabber] :=
  if_pos ⟨hh, by rw [hc]; rfl, by rw [hf]; exact decide_eq_true ht⟩

theorem jabberRecovers_idle (b : Bridge) (p : Port)
    (h : (b.mon p).hold.jabber = false ∨ (b.port p).carrier ≠ none ∨ (b.mon p).jabberFrom = none ∨
      ∃ t, (b.mon p).jabberFrom = some t ∧ b.ctl.now < t + 62500) : b.jabberRecovers p = b := by
  refine if_neg fun ⟨hh, hc, hf⟩ => ?_
  obtain h | h | h | ⟨t, ht, h⟩ := h
  · exact Bool.false_ne_true (h.symm.trans hh)
  · exact h (Option.isNone_iff_eq_none.1 hc)
  · rw [h] at hf; exact Bool.false_ne_true hf
  · rw [ht] at hf
    exact absurd (of_decide_eq_true hf) (Nat.not_le.2 h)

theorem mon_jabberRecovers (b : Bridge) (p : Port) :
    ((b.leaveHold p [.jabber]).mon p).hold = { (b.mon p).hold with jabber := false } ∧
    ((b.leaveHold p [.jabber]).mon p).latched = (b.mon p).latched ∧
    ((b.leaveHold p [.jabber]).mon p).state =
      if (b.mon p).state = .isolated ∧ FaultSet.isEmpty { (b.mon p).hold with jabber := false } = true then
        (if (b.mon p).testOwed then .testing else .active)
      else (b.mon p).state := by
  rw [mon_leaveHold_one]
  extract_lets m
  have hstate : m.state = (b.mon p).state := rfl
  have hhold : m.hold = { (b.mon p).hold with jabber := false } := rfl
  rw [hstate, hhold]
  split
  · exact ⟨rfl, rfl, rfl⟩
  · exact ⟨rfl, rfl, rfl⟩

end Bridge

theorem exec_shortDetection (s : State) (p : Port) (n : Nat) (h : s.takesTraffic) :
    exec (.shortDetection ⟨p, n⟩) s = .next (s.after [] (s.bridge.shortDetected p n)) :=
  s.command_run [] (·.shortDetected p n) h

theorem exec_jabberDetection (s : State) (p : Port) (h : s.takesTraffic) :
    exec (.jabberDetection p) s = .next (s.after [] (s.bridge.jabberDetected p)) :=
  s.command_run [] (·.jabberDetected p) h

theorem exec_jabberRecovery (s : State) (p : Port) (h : s.takesTraffic) :
    exec (.jabberRecovery p) s = .next (s.after [] (s.bridge.jabberRecovers p)) :=
  s.command_run [] (·.jabberRecovers p) h

/-- The end of a command leaves the monitors as the command's own effect left them. -/
theorem mon_after (s : State) (u : List Nat) (b : Bridge) (p : Port) : (s.after u b).bridge.mon p = b.mon p :=
  (Bridge.steady_settle _ b).mon p

theorem carrier_after (s : State) (u : List Nat) (b : Bridge) (p : Port) :
    ((s.after u b).bridge.port p).carrier = (b.port p).carrier :=
  (Bridge.steady_settle _ b).carrier p

/-- Settles O55: a change of port state and its reports, the hold set's causes, and the commands that put JABBER and SHORT into it or
take JABBER out of it. -/
theorem detectionsIsolateThePort : Obligations.DetectionsIsolateThePort := by
  refine ⟨fun b p st => ⟨b.changeState_same p, b.changeState_flushed p, b.changeState_unflushed p⟩,
    fun b before l => b.concludeChange_eq before l, fun b i old => rfl,
    fun lost q mac => ⟨lostBy_port lost q, lostBy_unknownEnd lost q, rfl⟩, fun b p k => ⟨rfl, b.leaveHold_one p k⟩,
    fun s p ht => ⟨fun n ha hd hn hw => ?_, fun c ho hc hj hl => ?_, fun t0 hh hc hf hl => ?_, fun n ha hd hn hw => ?_, fun n h => ?_,
      fun c ho hc hj hl => ?_, fun h => ?_, fun t0 hh hc hf hl => ?_, fun h => ?_⟩⟩
  · rw [exec_shortDetection s p n ht, Bridge.shortDetected_acts _ p ha hd hn hw]
  · rw [exec_jabberDetection s p ht, Bridge.jabberDetected_acts _ p ho hc hj hl]
  · rw [exec_jabberRecovery s p ht, Bridge.jabberRecovers_acts _ p hh hc hf hl]
  · obtain ⟨hstate, hhold, hlatched, -⟩ := s.bridge.mon_detect_isolate p .short
    refine ⟨_, (exec_shortDetection s p n ht).trans (by rw [Bridge.shortDetected_acts _ p ha hd hn hw]), ?_⟩
    rw [mon_after]
    exact ⟨hstate, congrArg FaultSet.short hhold, hlatched⟩
  · rw [exec_shortDetection s p n ht, Bridge.shortDetected_idle _ p h]
  · let b := s.bridge.modPort p fun x => { x with carrier := some { c with jabbered := true } }
    obtain ⟨hstate, hhold, hlatched, hfrom⟩ := b.mon_detect_isolate p .jabber
    have hmon : b.mon p = s.bridge.mon p := by simp [b, Bridge.mon]
    have hcarrier : (b.port p).carrier = some { c with jabbered := true } := by simp [b]
    refine ⟨_, (exec_jabberDetection s p ht).trans (by rw [Bridge.jabberDetected_acts _ p ho hc hj hl]), ?_⟩
    rw [mon_after, carrier_after, Bridge.carrier_detect_isolate]
    exact ⟨hstate, congrArg FaultSet.jabber hhold, hmon ▸ hlatched, hcarrier, hfrom rfl⟩
  · rw [exec_jabberDetection s p ht, Bridge.jabberDetected_idle _ p h]
  · refine ⟨_, (exec_jabberRecovery s p ht).trans (by rw [Bridge.jabberRecovers_acts _ p hh hc hf hl]), ?_⟩
    rw [mon_after]
    exact s.bridge.mon_jabberRecovers p
  · rw [exec_jabberRecovery s p ht, Bridge.jabberRecovers_idle _ p h]

end Sys2Proof.Machine

/-! # Jobs that stall, close, are cancelled and end (O33). -/

namespace Sys2Proof.Machine
open Sys2Proof

namespace Bridge

/-! ## Owner notices (R133) -/

section
variable (b : Bridge) (o : Origin) (n : DirNo) {e : Entry} (source : Port → Option Nat) (k : Nat) (bytes : List Byte)

theorem placeNotice_pair {mac : Mac} {order : Order} (hh : e.home = .pair mac order) :
    b.placeNotice o n e source k bytes =
      (decide (¬ (b.pair.link = true ∧ b.pair.queue.length < 48)),
       b.offeredPair { mac, kind := .notice, dst := n, src := k, data := bytes } o) := by
  by_cases hq : b.pair.link = true ∧ b.pair.queue.length < 48
  · rw [offeredPair, if_pos hq, decide_eq_false (not_not.2 hq)]
    simp only [placeNotice, hh, sendPair_accepted b _ _ hq.1 hq.2]
    rfl
  · obtain ⟨x, hx, hsend⟩ := sendPair_not b { mac, kind := .notice, dst := n, src := k, data := bytes } o
      (by rw [← Bool.not_eq_true, ← Nat.not_lt]; exact not_and_or.1 hq)
    rw [offeredPair, if_neg hq, decide_eq_true hq]
    simp only [placeNotice, hh, hsend, ne_eq, hx, not_false_eq_true, decide_true]

theorem placeNotice_numberless {p : Port} {num : Nat} (hh : e.home = .seg p num) (hs : source (b.segmentOf p) = none) :
    b.placeNotice o n e source k bytes = (true, b) := by
  simp only [placeNotice, hh, hs]

theorem placeNotice_segment {p : Port} {num src : Nat} (hh : e.home = .seg p num) (hs : source (b.segmentOf p) = some src) :
    b.placeNotice o n e source k bytes =
      (decide (((b.endsFor p e.endField).filter fun q => !b.hasPlace q).length = (b.endsFor p e.endField).length),
       b.offeredOn (b.endsFor p e.endField) (Block.build num src .notice false bytes) o none) := by
  simp only [placeNotice, hh, hs, sendEach_nodup b _ _ _ _ (b.endsFor_nodup p e.endField)]

end

section
variable (b : Bridge) (j : Job) (o : JobOutcome) (r : JobReason)

theorem jobNotice_free (h : b.entry j.owner = none) : b.jobNotice j o r = b.count spoolGroup .noticeLost := by
  simp only [jobNotice, h]

variable {e : Entry}

theorem jobNotice_unreachable (h : b.entry j.owner = some e) (hr : e.reachable = false) :
    b.jobNotice j o r = b.count spoolGroup .noticeLost := by
  simp [jobNotice, h, hr]

/-- The number under which a logical printer's notices go out on a segment: its own there, or else the bridge number. -/
def noticeSource (b : Bridge) (l : Lp) (t : Port) : Option Nat := (b.numberOf (lpEntry l) t).or (b.bridgeNumberOn t)

/-- An owner notice is counted where it is lost at once. -/
theorem jobNotice_placed (h : b.entry j.owner = some e) (hr : e.reachable = true) {lost : Bool} {c : Bridge}
    (hp : b.placeNotice .jobNotice j.owner e (b.noticeSource j.lp) (lpEntry j.lp)
      (b.noticeRecord (.job j.number (lpEntry j.lp) o r j.total j.copiesDone)) = (lost, c)) :
    b.jobNotice j o r = if lost = true then c.count spoolGroup .noticeLost else c := by
  have hsource : (fun s => (b.numberOf (lpEntry j.lp) s).orElse fun _ => b.bridgeNumberOn s) = b.noticeSource j.lp :=
    funext fun s => Option.orElse_eq_or
  simp only [jobNotice, h, hr, if_true, hsource, hp]
  cases lost <;> rfl

theorem jobNotice_pair (h : b.entry j.owner = some e) (hr : e.reachable = true) {mac : Mac} {order : Order}
    (hh : e.home = .pair mac order) :
    let c := b.offeredPair { mac, kind := .notice, dst := j.owner, src := lpEntry j.lp,
                             data := b.noticeRecord (.job j.number (lpEntry j.lp) o r j.total j.copiesDone) } .jobNotice
    b.jobNotice j o r = if b.pair.link = true ∧ b.pair.queue.length < 48 then c else c.count spoolGroup .noticeLost := by
  intro c
  rw [b.jobNotice_placed j o r h hr (b.placeNotice_pair _ _ _ _ _ hh)]
  by_cases hq : b.pair.link = true ∧ b.pair.queue.length < 48
  · simp only [hq, c, and_self, not_true, decide_false, Bool.false_eq_true, if_false, if_true]
  · simp only [hq, c, not_false_eq_true, decide_true, if_true, if_false]

theorem jobNotice_numberless (h : b.entry j.owner = some e) (hr : e.reachable = true) {p : Port} {num : Nat}
    (hh : e.home = .seg p num) (hn : b.noticeSource j.lp (b.segmentOf p) = none) :
    b.jobNotice j o r = b.count spoolGroup .noticeLost :=
  b.jobNotice_placed j o r h hr (b.placeNotice_numberless _ _ _ _ _ hh hn)

theorem jobNotice_segment (h : b.entry j.owner = some e) (hr : e.reachable = true) {p : Port} {num k : Nat}
    (hh : e.home = .seg p num) (hk : b.noticeSource j.lp (b.segmentOf p) = some k) :
    let ps := b.endsFor p e.endField
    let c := b.offeredOn ps (Block.build num k .notice false
      (b.noticeRecord (.job j.number (lpEntry j.lp) o r j.total j.copiesDone))) .jobNotice none
    ((∃ q ∈ ps, ¬ b.full1 q) → b.jobNotice j o r = c) ∧
    ((∀ q ∈ ps, b.full1 q) → b.jobNotice j o r = c.count spoolGroup .noticeLost) := by
  intro ps c
  have hlost := decide_eq_true_iff.trans (b.refused_all_iff ps)
  rw [b.jobNotice_placed j o r h hr (b.placeNotice_segment _ _ _ _ _ hh hk)]
  exact ⟨fun ⟨q, hq, hfull⟩ => if_neg fun h => hfull (hlost.1 h q hq), fun h => if_pos (hlost.2 h)⟩

end

/-! ## The end of a job, and pins (R57, R132) -/

theorem number_of_job {b : Bridge} {n : Nat} {j : Job} (h : b.job n = some j) : j.number = n := RecordsSound.number_of_job h

theorem endJob_eq (b : Bridge) {n : Nat} {j : Job} (o : JobOutcome) (r : JobReason) (h : b.job n = some j) :
    b.endJob n o r =
      (((b.modLp j.lp fun x => { x with queue := x.queue.filter (· ≠ n) }).modSpool fun x =>
        { x with freeList := j.chain.reverse ++ x.freeList, jobs := x.jobs.filter (·.number ≠ n) }).jobNotice j o r).unpin j.owner := by
  simp only [endJob, h, retireJob, leaveQueue, number_of_job h, freeBlocks_eq]

theorem unpin_last (b : Bridge) {n : DirNo} {e : Entry} (h : b.entry n = some e) (hs : e.state = .retiring) (hp : e.pins ≤ 1) :
    b.unpin n = (b.modEntry n fun x => { x with pins := x.pins - 1 }).freeEntry n := by
  have he : (b.modEntry n fun x => { x with pins := x.pins - 1 }).entry n = some { e with pins := e.pins - 1 } := by
    rw [entry_modEntry_self, h]
    rfl
  simp only [unpin, he, hs, Nat.sub_eq_zero_of_le hp, and_self, if_true]

theorem unpin_kept (b : Bridge) {n : DirNo} {e : Entry} (h : b.entry n = some e) (hk : e.state ≠ .retiring ∨ 1 < e.pins) :
    b.unpin n = b.modEntry n fun x => { x with pins := x.pins - 1 } := by
  have he : (b.modEntry n fun x => { x with pins := x.pins - 1 }).entry n = some { e with pins := e.pins - 1 } := by
    rw [entry_modEntry_self, h]
    rfl
  have hne : ¬ (e.state = .retiring ∧ e.pins - 1 = 0) := fun ⟨hs, hp⟩ => hk.elim (fun h => h hs) fun h => by omega
  simp only [unpin, he, if_neg hne]

theorem toldOfData_waiting (b : Bridge) {l : Lp} {d : Delivery} (h : b.record l = some d) (hd : d.phase = .dataWait) :
    b.toldOfData l = b.buildFrame l := by
  simp [toldOfData, h, hd]

theorem toldOfData_idle (b : Bridge) {l : Lp} (h : ∀ d, b.record l = some d → d.phase ≠ .dataWait) : b.toldOfData l = b := by
  refine if_neg fun hany => ?_
  obtain ⟨d, hd, hp⟩ := (Option.any_eq_true _ _).1 hany
  exact h d hd (of_decide_eq_true hp)

/-! ## Stalls (R130) -/

theorem acceptsData_iff (j : Job) : acceptsData j = true ↔ j.input = .opened ∧ j.state ≠ .cancelling := by
  simp [acceptsData]

theorem jobStalls_due (b : Bridge) {n : Nat} {j : Job} (h : b.job n = some j) (hi : j.input = .opened) (hs : j.state ≠ .cancelling)
    (ht : j.lastActivity + 125000 * b.settings.stallTimeout ≤ b.ctl.now) : b.jobStalls n = b.stallJob j := by
  simp only [jobStalls, h]
  exact if_pos ⟨(acceptsData_iff j).2 ⟨hi, hs⟩, ht⟩

theorem jobStalls_idle (b : Bridge) {n : Nat} {j : Job} (h : b.job n = some j)
    (hk : j.input ≠ .opened ∨ j.state = .cancelling ∨ b.ctl.now < j.lastActivity + 125000 * b.settings.stallTimeout) :
    b.jobStalls n = b := by
  simp only [jobStalls, h]
  refine if_neg fun ⟨ha, ht⟩ => ?_
  obtain ⟨hi, hs⟩ := (acceptsData_iff j).1 ha
  obtain hk | hk | hk := hk
  · exact hk hi
  · exact hs hk
  · exact absurd ht (Nat.not_le.2 hk)

theorem stallJob_spool (b : Bridge) {n : Nat} {j : Job} (h : b.job n = some j) (hm : j.mode = .spool) :
    b.stallJob j = ((b.endJob n .cancelled .stalled).count 7 .stalled).capture 7 .stalled (.job n j.owner) := by
  simp only [stallJob, hm, number_of_job h]
  rfl

theorem stallJob_stream (b : Bridge) {n : Nat} {j : Job} (h : b.job n = some j) (hm : j.mode = .stream) :
    let c := b.modJob n fun x => { x with input := .partly }
    let d := if j.started = false ∧ j.total = 0 then c.endJob n .donePartial .none
      else if j.state = .delivering then c.toldOfData j.lp else c
    b.stallJob j = (d.count 7 .stalled).capture 7 .stalled (.job n j.owner) := by
  have hc : ((!j.started && decide (j.total = 0)) = true) ↔ (j.started = false ∧ j.total = 0) := by simp
  simp only [stallJob, hm, number_of_job h, hc]
  rfl

/-! ## PRINT-CLOSE (R129) -/

section
variable (b : Bridge) {owner : DirNo} {l : Lp} {n flag : Nat}

theorem judgeClose_unknown (h : b.job n = none) : b.judgeClose owner l n flag = (.fail .unknownJob 0, id) := by
  simp only [judgeClose, h]
  rfl

variable {j : Job} (h : b.job n = some j)
include h

theorem judgeClose_notOwner (ho : j.owner ≠ owner) : b.judgeClose owner l n flag = (.fail .notOwner 0, id) := by
  simp only [judgeClose, h, if_pos ho]
  rfl

theorem judgeClose_elsewhere (ho : j.owner = owner) (hl : j.lp ≠ l) : b.judgeClose owner l n flag = (.fail .unknownJob 0, id) := by
  simp only [judgeClose, h, ho, ne_eq, not_true, if_false, if_pos hl]
  rfl

theorem judgeClose_cancel (ho : j.owner = owner) (hl : j.lp = l) (hf : flag ≠ 0) :
    b.judgeClose owner l n flag = (.reply [], fun c => c.cancelJob n .owner) := by
  simp only [judgeClose, h, ho, hl, ne_eq, not_true, if_false, if_pos hf]

theorem judgeClose_closed (ho : j.owner = owner) (hl : j.lp = l) (hf : flag = 0) (hd : j.input ≠ .opened ∨ j.state = .cancelling) :
    b.judgeClose owner l n flag = (.fail .unknownJob 0, id) := by
  have ha : (!acceptsData j) = true := by
    rw [Bool.not_eq_true', ← Bool.not_eq_true, acceptsData_iff, not_and_or, ne_eq, not_not]
    exact hd
  simp only [judgeClose, h, ho, hl, hf, ne_eq, not_true, if_false, if_pos ha]
  rfl

theorem judgeClose_accepted (ho : j.owner = owner) (hl : j.lp = l) (hf : flag = 0) (hi : j.input = .opened) (hs : j.state ≠ .cancelling) :
    b.judgeClose owner l n flag = (.reply [], fun c => c.closeJob j) := by
  have ha : acceptsData j = true := (acceptsData_iff j).2 ⟨hi, hs⟩
  simp [judgeClose, h, ho, hl, hf, ha]

end

theorem closeJob_spool (c : Bridge) {j : Job} (hm : j.mode = .spool) :
    let d := c.modJob j.number fun x => { x with input := .closed }
    c.closeJob j = if j.held = 0 then d.endJob j.number .done .none
      else (d.modJob j.number fun x => { x with state := .queued }).placeJob j.lp j.number := by
  simp only [closeJob, hm]

theorem closeJob_stream (c : Bridge) {j : Job} (hm : j.mode = .stream) :
    let d := c.modJob j.number fun x => { x with input := .closed }
    c.closeJob j = if j.started = false ∧ j.total = 0 then d.endJob j.number .done .none
      else if j.state = .delivering then d.toldOfData j.lp else d := by
  have hc : ((!j.started && decide (j.total = 0)) = true) ↔ (j.started = false ∧ j.total = 0) := by simp
  simp only [closeJob, hm, hc]

/-! ## Cancels (R131, R151) -/

theorem cancelJob_waiting (b : Bridge) {n : Nat} {j : Job} (r : JobReason) (h : b.job n = some j)
    (hs : j.state = .filling ∨ j.state = .queued) : b.cancelJob n r = b.endJob n .cancelled r := by
  obtain hs | hs := hs <;> simp only [cancelJob, h, hs]

theorem cancelJob_again (b : Bridge) {n : Nat} {j : Job} (r : JobReason) (h : b.job n = some j) (hs : j.state = .cancelling) :
    b.cancelJob n r = b := by
  simp only [cancelJob, h, hs]

theorem cancelJob_delivering (b : Bridge) {n : Nat} {j : Job} (r : JobReason) {d : Delivery} (h : b.job n = some j)
    (hs : j.state = .delivering) (hd : b.record j.lp = some d) (hn : d.job = n) :
    let c := b.modJob n fun x => { x with cancelReason := some r }
    ((d.phase = .queued ∨ ∃ w, d.phase = .window w) → b.cancelJob n r =
      (c.modJob n fun x => { x with state := .cancelling }).modLp j.lp fun x => { x with state := .cancelling }) ∧
    (d.phase ≠ .queued → (∀ w, d.phase ≠ .window w) → b.cancelJob n r = c.finish j.lp .cancelled r) := by
  intro c
  refine ⟨fun hp => ?_, fun hq hw => ?_⟩
  · obtain hp | ⟨w, hp⟩ := hp <;> simp only [cancelJob, h, hs, cancelDelivery, hd, hn, hp, c]
  · simp only [cancelJob, h, hs, cancelDelivery, hd, hn, c]

end Bridge

theorem exec_jobStall (s : State) (n : Nat) (h : s.takesTraffic) : exec (.jobStall n) s = .next (s.after [] (s.bridge.jobStalls n)) :=
  s.command_run [] (·.jobStalls n) h

/-- Settles O33: stalls, PRINT-CLOSE, cancels, the end of a job with its owner's notice and pin, and what a delivery is told. -/
theorem jobsStallCloseAndEnd : Obligations.JobsStallCloseAndEnd := by
  refine ⟨fun s n j ht h => ⟨fun hi hs hl => ⟨fun hm => ?_, fun hm => ?_⟩, fun hk => ?_⟩,
    fun b owner l n flag => ⟨b.judgeClose_unknown, fun j h => ⟨b.judgeClose_notOwner h, b.judgeClose_elsewhere h,
      b.judgeClose_cancel h, b.judgeClose_closed h, fun ho hl hf hi hs => ?_⟩⟩, fun b owner l o data => ⟨rfl, rfl⟩,
    fun b n j r h => ⟨b.cancelJob_waiting r h, b.cancelJob_again r h, fun d hs hd hn => b.cancelJob_delivering r h hs hd hn⟩,
    fun b n j o r h => b.endJob_eq o r h,
    fun b j o r => ⟨b.jobNotice_free j o r, fun e h => ⟨b.jobNotice_unreachable j o r h,
      fun mac order hr hh => b.jobNotice_pair j o r h hr hh,
      fun p num hr hh => ⟨b.jobNotice_numberless j o r h hr hh, fun k hk => b.jobNotice_segment j o r h hr hh hk⟩⟩⟩,
    fun b n e h => ⟨b.unpin_last h, b.unpin_kept h⟩,
    fun b l => ⟨fun d => b.toldOfData_waiting, b.toldOfData_idle⟩⟩
  · rw [exec_jobStall s n ht, Bridge.jobStalls_due _ h hi hs hl, Bridge.stallJob_spool _ h hm]
  · rw [exec_jobStall s n ht, Bridge.jobStalls_due _ h hi hs hl, Bridge.stallJob_stream _ h hm]
  · rw [exec_jobStall s n ht, Bridge.jobStalls_idle _ h hk]
  · rw [b.judgeClose_accepted h ho hl hf hi hs]
    refine ⟨rfl, fun c => ?_⟩
    obtain rfl := Bridge.number_of_job h
    subst hl
    cases hm : j.mode with
    | spool => exact c.closeJob_spool hm
    | stream => exact c.closeJob_stream hm

end Sys2Proof.Machine

/-! # Requests that open exchanges (O32). -/

namespace Sys2Proof.Machine
open Sys2Proof

/-! ## Tags, askers and routes (R100, R105, R107) -/

theorem freeTag_of_lowest {l : List (Nat × Exchange)} {t : Nat} (h16 : t < 16) (ht : look t l = none)
    (hlow : ∀ k < t, look k l ≠ none) : freeTag l = some t := by
  refine List.find?_range_eq_some.2 ⟨by rw [ht]; rfl, List.mem_range.2 h16, fun k hk => ?_⟩
  rw [Bool.not_eq_true', Option.isNone_eq_false_iff, Option.isSome_iff_ne_none]
  exact hlow k hk

theorem freeTag_none {l : List (Nat × Exchange)} (h : ∀ k < 16, look k l ≠ none) : freeTag l = none :=
  List.find?_eq_none.2 fun k hk hn => h k (List.mem_range.1 hk) (Option.isNone_iff_eq_none.1 hn)

/-- The answers of a record that latched an asker's REQUEST go back to that asker. -/
theorem asker_of_latched {a : Asker} {x : Exchange} (he : a.entry = some x.requester)
    (hl : Asker.latched a = (x.requesterRoute, x.requesterSeq, x.requesterSrc, x.numberAsked)) : Exchange.asker x = a := by
  cases a with
  | coax p src dst seq e =>
    obtain rfl : e = some x.requester := he
    simp only [Asker.latched, Prod.mk.injEq] at hl
    obtain ⟨hr, hq, rfl, rfl⟩ := hl
    simp only [Exchange.asker, ← hr, ← hq]
  | pair mac dst tag seq e =>
    obtain rfl : e = some x.requester := he
    simp only [Asker.latched, Prod.mk.injEq] at hl
    obtain ⟨hr, hq, -, rfl⟩ := hl
    simp only [Exchange.asker, ← hr, ← hq]

theorem withoutEntry_eq {a unknown : Asker} {n : DirNo} (he : a.entry = some n)
    (hc : ∀ p k m y, a = .coax p k m y (some n) → unknown = .coax p k m y none)
    (hp : ∀ mac k t y, a = .pair mac k t y (some n) → unknown = .pair mac k t y none) : Asker.withoutEntry a = unknown := by
  cases a with
  | coax p src dst seq e =>
    obtain rfl : e = some n := he
    exact (hc _ _ _ _ rfl).symm
  | pair mac dst tag seq e =>
    obtain rfl : e = some n := he
    exact (hp _ _ _ _ rfl).symm

namespace Bridge

theorem routeOf_own (b : Bridge) {e : Entry} {p : Port} {n : Nat} (h : e.home = .seg p n) (hp : b.paired p = false) :
    b.routeOf e = some (.port p) := by
  simp [routeOf, h, hp]

theorem routeOf_paired (b : Bridge) {e : Entry} {p : Port} {n : Nat} (h : e.home = .seg p n) (hp : b.paired p = true) :
    b.routeOf e = some (match e.endField with
      | some .a => .port (lowerOf (pairOf p))
      | some .b => .port (upperOf (pairOf p))
      | _ => .unknownEnd (lowerOf (pairOf p))) := by
  rcases he : e.endField with _ | (_ | _ | _) <;> simp [routeOf, h, hp, he]

theorem routeOf_ne_pair {b : Bridge} {e : Entry} {p : Port} {n : Nat} {r : Route} (h : e.home = .seg p n) (hr : b.routeOf e = some r)
    (mac : Mac) : r ≠ .pair mac := by
  rintro rfl
  cases hp : b.paired p with
  | false => exact nomatch (b.routeOf_own h hp).symm.trans hr
  | true => rcases he : e.endField with _ | (_ | _ | _) <;> simp [b.routeOf_paired h hp, he] at hr

/-- The ports of a route that names the lower port of its segment are no port twice. -/
theorem routePorts_nodup (b : Bridge) {r : Route} (h : namesLower r) : (b.routePorts r).Nodup := by
  cases r with
  | port p => exact List.nodup_singleton p
  | pair m => exact List.nodup_nil
  | unknownEnd l =>
    have hne : l ≠ upperOf (pairOf l) := by
      intro e
      have hl := h l rfl
      have hv : l.val = 2 * (pairOf l).val + 1 := congrArg Fin.val e
      omega
    exact List.Nodup.filter _ (by simpa using hne)

theorem exchanges_answer (b : Bridge) (a : Asker) (x : Answer) (named : Bool) : (b.answer a x named).exchanges = b.exchanges := by
  cases a with
  | coax p src dst seq e =>
    simp only [answer, offer0, offer1]
    split <;> split <;> rfl
  | pair mac dst tag seq e =>
    obtain ⟨v, q, n, hrest⟩ := (placed_sendPair b (answerFrame mac dst tag seq e x) .answer).rest
    simp only [answer]
    split <;> next heq => rw [heq] at hrest; subst hrest; rfl

theorem exchange_closeExchange (b : Bridge) (tag : Nat) : (b.closeExchange tag).exchange tag = none := by
  rw [exchange, (freed_closeExchange b tag).exchanges]
  exact look_drop_self tag _

/-! ## The question of a record (R107, R109) -/

theorem sendPair_eq (b : Bridge) (c : Carrier) (o : Origin) :
    (b.sendPair c o).2 = b.offeredPair c o ∧
    ((b.sendPair c o).1 = .refused ↔ b.pair.link = true ∧ 48 ≤ b.pair.queue.length) := by
  by_cases hl : b.pair.link = true
  · by_cases hq : b.pair.queue.length < 48
    · rw [sendPair_accepted b c o hl hq, offeredPair, if_pos ⟨hl, hq⟩]
      exact ⟨rfl, nofun, fun h => absurd hq (Nat.not_lt.2 h.2)⟩
    · rw [offeredPair, if_neg fun h => hq h.2]
      simp [sendPair, offerPair, nextSerial, hl, hq]
      omega
  · rw [offeredPair, if_neg fun h => hl h.1]
    simp [sendPair, offerPair, nextSerial, hl]

variable {b : Bridge} {tag : Nat} {x : Exchange}

/-- A record that stands as its question leaves it is not changed by the sending. -/
theorem modExchange_queued (hx : b.exchange tag = some x) (hs : x.state = .opened .queued) (hn : x.sending = b.serial) :
    (b.modExchange tag fun x => { x with state := .opened .queued, sending := b.serial }) = b := by
  have hc : change tag (fun x => { x with state := .opened .queued, sending := b.serial }) b.exchanges = b.exchanges := by
    rw [change_congr tag (g := id) b.exchanges fun v hv => ?_, change_id]
    obtain rfl : x = v := Option.some.inj (hx.symm.trans hv)
    rw [← hs, ← hn]
    rfl
  rw [modExchange, hc]
  rfl

theorem sendQuestion_pair (hx : b.exchange tag = some x) (hs : x.state = .opened .queued) (hn : x.sending = b.serial) {mac : Mac}
    (hr : x.targetRoute = .pair mac) :
    b.sendQuestion tag =
      (decide ¬ (b.pair.link = true ∧ 48 ≤ b.pair.queue.length), b.offeredPair (b.requestFrame tag x mac) (.request tag)) := by
  obtain ⟨hsent, hrefused⟩ := b.sendPair_eq (b.requestFrame tag x mac) (.request tag)
  simp only [sendQuestion, hx, hr, modExchange_queued hx hs hn]
  split
  next heq =>
    rw [heq] at hsent hrefused
    rw [decide_eq_false (not_not.2 (hrefused.1 rfl)), ← hsent]
  next hne heq =>
    rw [heq] at hsent hrefused
    rw [decide_eq_true (p := ¬ _) fun h => hne (hrefused.2 h), ← hsent]

theorem sendQuestion_segment (hx : b.exchange tag = some x) (hs : x.state = .opened .queued) (hn : x.sending = b.serial)
    (hr : ∀ mac, x.targetRoute ≠ .pair mac) (hl : namesLower x.targetRoute) :
    b.sendQuestion tag =
      (decide ¬ ∀ p ∈ b.routePorts x.targetRoute, 24 ≤ (b.port p).class1.length,
       b.offeredOn (b.routePorts x.targetRoute) (b.requestBlock x) (.request tag) x.targetRoute.named) := by
  have hall := b.refused_all_iff (b.routePorts x.targetRoute)
  have hle := List.length_filter_le (fun p => !b.hasPlace p) (b.routePorts x.targetRoute)
  have hsome : decide (((b.routePorts x.targetRoute).filter fun p => !b.hasPlace p).length < (b.routePorts x.targetRoute).length) =
      decide ¬ ∀ p ∈ b.routePorts x.targetRoute, 24 ≤ (b.port p).class1.length :=
    decide_eq_decide.2 ((hle.lt_iff_ne).trans hall.not)
  simp only [sendQuestion, hx, modExchange_queued hx hs hn]
  simp only [sendEach_nodup _ _ _ _ _ (b.routePorts_nodup hl), hsome]

/-! ## A record opened (R106) -/

section
variable (b) (tag) (x) (a : Asker)

theorem exchange_opened : (b.opened tag x).exchange tag = some x := look_put_self tag x b.exchanges

theorem openExchange_eq :
    b.openExchange tag a x =
      if ((b.opened tag x).sendQuestion tag).1 = true then
        ((b.opened tag x).sendQuestion tag).2.answer a (.hold (10 * ((b.opened tag x).sendQuestion tag).2.settings.exchangeTimeout)) true
      else ((b.opened tag x).sendQuestion tag).2.failExchange tag .refused := by
  change (match (b.opened tag x).sendQuestion tag with
    | (false, b) => b.failExchange tag .refused
    | (true, b) => b.answer a (.hold (10 * b.settings.exchangeTimeout)) true) = _
  obtain ⟨sent, c⟩ := (b.opened tag x).sendQuestion tag
  cases sent <;> rfl

variable {b tag x a}

theorem failExchange_eq {c : Bridge} (hx : c.exchange tag = some x) (ha : Exchange.asker x = a) (r : FailReason) :
    c.failExchange tag r = (c.answer a (.fail r 0) true).closeExchange tag := by
  simp only [failExchange, hx, ha]

theorem openExchange_pair (ha : Exchange.asker x = a) (hs : x.state = .opened .queued) (hn : x.sending = b.serial) {mac : Mac}
    (hr : x.targetRoute = .pair mac) :
    let d := b.opened tag x
    let sent := d.offeredPair (d.requestFrame tag x mac) (.request tag)
    b.openExchange tag a x =
      if b.pair.link = true ∧ 48 ≤ b.pair.queue.length then (sent.answer a (.fail .refused 0) true).closeExchange tag
      else sent.answer a (.hold (10 * b.settings.exchangeTimeout)) true := by
  intro d sent
  have hq : d.sendQuestion tag = (decide ¬ (b.pair.link = true ∧ 48 ≤ b.pair.queue.length), sent) :=
    sendQuestion_pair (b.exchange_opened tag x) hs hn hr
  have hsent : sent.exchange tag = some x ∧ sent.settings = b.settings := by
    have hd := b.exchange_opened tag x
    unfold sent offeredPair
    split <;> exact ⟨hd, rfl⟩
  rw [openExchange_eq, hq, hsent.2]
  simp only [decide_eq_true_eq, ite_not, failExchange_eq hsent.1 ha]

theorem openExchange_segment (ha : Exchange.asker x = a) (hs : x.state = .opened .queued) (hn : x.sending = b.serial)
    (hr : ∀ mac, x.targetRoute ≠ .pair mac) (hl : namesLower x.targetRoute) :
    let d := b.opened tag x
    let ps := d.routePorts x.targetRoute
    let sent := d.offeredOn ps (d.requestBlock x) (.request tag) x.targetRoute.named
    b.openExchange tag a x =
      if ∀ p ∈ ps, 24 ≤ (d.port p).class1.length then (sent.answer a (.fail .refused 0) true).closeExchange tag
      else sent.answer a (.hold (10 * b.settings.exchangeTimeout)) true := by
  intro d ps sent
  have hq : d.sendQuestion tag = (decide ¬ ∀ p ∈ ps, 24 ≤ (d.port p).class1.length, sent) :=
    sendQuestion_segment (b.exchange_opened tag x) hs hn hr hl
  have hx : sent.exchange tag = some x := b.exchange_opened tag x
  rw [openExchange_eq, hq]
  simp only [decide_eq_true_eq, ite_not, failExchange_eq hx ha]
  rfl

end

/-! ## A REQUEST that repeats none (R103 to R106) -/

/-- A REQUEST taken as new, once a record of the same parties has been closed (R103). -/
def takeNew (b : Bridge) (a : Asker) (requester target : DirNo) (e : Entry) (copy : List Byte) (pad : Bool) : Bridge :=
  if (b.entry requester).isNone then (b.answer (Asker.withoutEntry a) (.fail .refused 0)).countForward .refused
  else if e.kind ≠ .station then b.answer a (.fail .refused 0) true
  else if !e.reachable then b.answer a (.fail .unreachable 0) true
  else
    match freeTag b.exchanges with
    | none => (b.answer a .busy true).count exchangeGroup .tableFull
    | some tag =>
      match b.resolveRoute requester target e (Asker.latched a).2.1 with
      | .refused x => b.answer a x true
      | .resolved d r wireDst wireSrc usesBridge outSeq =>
        (b.advanceSequence target usesBridge outSeq).openExchange tag a
          { state := .opened .queued, direction := d, requester, requesterRoute := (Asker.latched a).1,
            requesterSrc := (Asker.latched a).2.2.1, numberAsked := (Asker.latched a).2.2.2, requesterSeq := (Asker.latched a).2.1,
            target, targetRoute := r, wireDst, wireSrc, usesBridge, outSeq, tries := 1,
            deadline := b.now + Time.ms 100 * b.settings.exchangeTimeout, copy, copyPad := pad, sending := b.serial }

theorem takeRequest_eq_takeNew (b c : Bridge) (a : Asker) (n m : DirNo) (e : Entry) (copy : List Byte) (pad : Bool)
    (hsome : ∀ tag x, b.sameParties n m = some (tag, x) → x.requesterSeq ≠ (Asker.latched a).2.1 ∧ c = b.closeExchange tag)
    (hnone : b.sameParties n m = none → c = b) : b.takeRequest a n m e copy pad = c.takeNew a n m e copy pad := by
  unfold takeRequest takeNew
  cases hs : b.sameParties n m with
  | none =>
    obtain rfl := hnone hs
    rfl
  | some y =>
    obtain ⟨tag, x⟩ := y
    obtain ⟨hq, rfl⟩ := hsome tag x hs
    have hf : (some (tag, x)).filter (fun r : Nat × Exchange => decide (r.2.requesterSeq = (Asker.latched a).2.1)) = none := by
      simp [Option.filter, hq]
    simp only [hf] <;> rfl

section
variable {b : Bridge} {a : Asker} {n m : DirNo} {e : Entry} {copy : List Byte} {pad : Bool}

theorem takeNew_freed (h : b.entry n = none) :
    b.takeNew a n m e copy pad = (b.answer (Asker.withoutEntry a) (.fail .refused 0)).countForward .refused := by
  simp [takeNew, h]

variable (h : b.entry n ≠ none)
include h

theorem takeNew_noStation (hk : e.kind ≠ .station) : b.takeNew a n m e copy pad = b.answer a (.fail .refused 0) true := by
  simp [takeNew, h, hk]

theorem takeNew_unreachable (hk : e.kind = .station) (hr : e.reachable = false) :
    b.takeNew a n m e copy pad = b.answer a (.fail .unreachable 0) true := by
  simp [takeNew, h, hk, hr]

theorem takeNew_full (hk : e.kind = .station) (hr : e.reachable = true) (ht : freeTag b.exchanges = none) :
    b.takeNew a n m e copy pad = (b.answer a .busy true).count exchangeGroup .tableFull := by
  simp [takeNew, h, hk, hr, ht]

variable {tag : Nat} (hk : e.kind = .station) (hr : e.reachable = true) (ht : freeTag b.exchanges = some tag)
include hk hr ht

theorem takeNew_refused {x : Answer} (hx : b.resolveRoute n m e (Asker.latched a).2.1 = .refused x) :
    b.takeNew a n m e copy pad = b.answer a x true := by
  simp [takeNew, h, hk, hr, ht, hx]

theorem takeNew_resolved {route : Route} {q : ReqSeq} {srcNo asked : Nat} (hl : Asker.latched a = (route, q, srcNo, asked))
    {d : Direction} {r : Route} {wireDst wireSrc : Nat} {usesBridge : Bool} {outSeq : OutSeq}
    (hx : b.resolveRoute n m e q = .resolved d r wireDst wireSrc usesBridge outSeq) :
    b.takeNew a n m e copy pad =
      (b.advanceSequence m usesBridge outSeq).openExchange tag a
        { state := .opened .queued, direction := d, requester := n, requesterRoute := route, requesterSrc := srcNo,
          numberAsked := asked, requesterSeq := q, target := m, targetRoute := r, wireDst, wireSrc, usesBridge, outSeq, tries := 1,
          deadline := b.ctl.now + 12500 * b.settings.exchangeTimeout, copy, copyPad := pad, sending := b.serial } := by
  simp [takeNew, h, hk, hr, ht, hl, hx]

end

/-! ## The route of a new exchange (R105) -/

section
variable {b : Bridge} {n m : DirNo} {e : Entry} {q : ReqSeq}

/-- The direction of a coax target's exchange, by the side its request comes from. -/
def directionFrom : ReqSeq → Direction
  | .bit _ => .coaxCoax
  | .tagged _ _ => .pairCoax

theorem resolveRoute_pair {mac : Mac} {o : Order} (hh : e.home = .pair mac o) :
    b.resolveRoute n m e q = .resolved .coaxPair (.pair mac) 0 0 false (.byte b.pair.question) := by
  simp [resolveRoute, routeOf, hh]

variable {t : Port} {num : Nat} {r : Route} (hh : e.home = .seg t num) (hr : b.routeOf e = some r)
include hh hr

theorem resolveRoute_own {k : Nat} (hk : b.numberOf n t = some k) :
    b.resolveRoute n m e q = .resolved (directionFrom q) r num k false (.bit (requesterBit q)) := by
  simp only [resolveRoute, hr, hh, hk]
  cases q <;> rfl

theorem resolveRoute_bridge {k : Nat} (hn : b.numberOf n t = none) (hk : b.bridgeNumberOn t = some k)
    (hu : ∀ y ∈ b.exchanges, y.2.target = m → y.2.usesBridge = false) :
    b.resolveRoute n m e q = .resolved (directionFrom q) r num k true (.bit !e.bridgeBit) := by
  have hany : (b.exchanges.any fun x => x.2.target = m && x.2.usesBridge) = false := by
    rw [List.any_eq_false]
    intro y hy hm
    rw [Bool.and_eq_true, decide_eq_true_eq] at hm
    exact Bool.false_ne_true ((hu y hy hm.1).symm.trans hm.2)
  simp only [resolveRoute, hr, hh, hn, hk, hany]
  cases q <;> rfl

theorem resolveRoute_busy {k : Nat} (hn : b.numberOf n t = none) (hk : b.bridgeNumberOn t = some k)
    (hu : ∃ y ∈ b.exchanges, y.2.target = m ∧ y.2.usesBridge = true) : b.resolveRoute n m e q = .refused .busy := by
  have hany : (b.exchanges.any fun x => x.2.target = m && x.2.usesBridge) = true := by
    obtain ⟨y, hy, hm, huses⟩ := hu
    exact List.any_eq_true.2 ⟨y, hy, by rw [huses, Bool.and_true, decide_eq_true hm]⟩
  simp only [resolveRoute, hr, hh, hn, hk, hany, if_true]

theorem resolveRoute_numberless (hn : b.numberOf n t = none) (hk : b.bridgeNumberOn t = none) :
    b.resolveRoute n m e q = .refused (.fail .refused 0) := by
  simp only [resolveRoute, hr, hh, hn, hk]

end

/-! ## A repeat (R102, R104) -/

theorem takeRequest_repeat (b : Bridge) {a : Asker} {n m : DirNo} (e : Entry) (copy : List Byte) (pad : Bool) {tag : Nat}
    {x : Exchange} (hs : b.sameParties n m = some (tag, x)) (hq : x.requesterSeq = (Asker.latched a).2.1) :
    b.takeRequest a n m e copy pad = b.answer a (.hold (b.holdTime x)) true := by
  have hf : (some (tag, x)).filter (fun r : Nat × Exchange => decide (r.2.requesterSeq = (Asker.latched a).2.1)) =
      some (tag, x) := by
    simp [Option.filter, hq]
  unfold takeRequest
  simp only [hs, hf]

theorem holdTime_spec (b : Bridge) (x : Exchange) :
    1 ≤ b.holdTime x ∧ x.deadline - b.ctl.now ≤ 1250 * b.holdTime x ∧
    (1 < b.holdTime x → 1250 * (b.holdTime x - 1) < x.deadline - b.ctl.now) := by
  have key (t h : Nat) (e : h = max 1 ((t + 1249) / 1250)) : 1 ≤ h ∧ t ≤ 1250 * h ∧ (1 < h → 1250 * (h - 1) < t) := by omega
  exact key _ _ rfl

end Bridge

/-- Settles O32: a repeat, and a REQUEST taken as new in the order of R103 to R107. -/
theorem requestsOpenExchanges : Obligations.RequestsOpenExchanges := by
  refine ⟨fun b a n m e copy pad tag x hs hq => ?_, fun b tag => b.exchange_closeExchange tag,
    fun b c a n m e copy pad route q srcNo asked he hl hsome hnone => ?_,
    fun b e p n hh => ⟨b.routeOf_own hh, fun hp => (b.routeOf_paired hh hp).trans rfl⟩,
    fun b p => ⟨rfl, rfl, rfl, rfl⟩, fun p src dst tag seq mac s8 e => ⟨rfl, rfl⟩⟩
  · obtain ⟨h1, hle, hlt⟩ := b.holdTime_spec x
    exact ⟨_, b.takeRequest_repeat e copy pad hs hq, h1, hle, hlt, b.exchanges_answer _ _ _⟩
  have hq : (Asker.latched a).2.1 = q := by rw [hl]
  rw [b.takeRequest_eq_takeNew c a n m e copy pad (hq ▸ hsome) hnone]
  refine ⟨fun unknown hc hp hn => ?_, fun hn => ⟨Bridge.takeNew_noStation hn, Bridge.takeNew_unreachable hn,
    fun hk hr hfull => Bridge.takeNew_full hn hk hr (freeTag_none hfull), fun tag hk hr h16 htag hlow => ?_⟩⟩
  · rw [Bridge.takeNew_freed hn, withoutEntry_eq he hc hp]
  have ht : freeTag c.exchanges = some tag := freeTag_of_lowest h16 htag hlow
  refine ⟨fun mac o hh => ?_, fun t num r hh hroute => ?_⟩
  · rw [Bridge.takeNew_resolved hn hk hr ht hl (Bridge.resolveRoute_pair hh)]
    exact Bridge.openExchange_pair (asker_of_latched he hl) rfl rfl rfl
  have hlower : namesLower r := Bridge.namesLower_routeOf hroute
  have hcoax (mac : Mac) : r ≠ .pair mac := Bridge.routeOf_ne_pair hh hroute mac
  refine ⟨fun k hk' => ?_, fun k hnone hk' hu => ?_, fun k hnone hk' hu => ?_, fun hnone hk' => ?_⟩
  · rw [Bridge.takeNew_resolved hn hk hr ht hl (Bridge.resolveRoute_own hh hroute hk')]
    refine (Bridge.openExchange_segment (asker_of_latched he hl) rfl rfl hcoax hlower).trans ?_
    cases q <;> rfl
  · rw [Bridge.takeNew_resolved hn hk hr ht hl (Bridge.resolveRoute_bridge hh hroute hnone hk' hu)]
    refine (Bridge.openExchange_segment (asker_of_latched he hl) rfl rfl hcoax hlower).trans ?_
    cases q <;> rfl
  · exact Bridge.takeNew_refused hn hk hr ht (Bridge.resolveRoute_busy hh hroute hnone hk' hu)
  · exact Bridge.takeNew_refused hn hk hr ht (Bridge.resolveRoute_numberless hh hroute hnone hk')

end Sys2Proof.Machine

/-! # Split segments: dispatch, the feed table and redistribution (O36). -/

namespace Sys2Proof.Machine
open Sys2Proof

/-! ## Dispatch on a split segment (R79, R80, R178) -/

namespace Bridge

theorem steady_heardFrom (b : Bridge) (k : DirNo) : Steady b (b.heardFrom k) := .ofKept (.ofEntries b _)

theorem steady_learn (b : Bridge) (t : Port) (n : Nat) : Steady b (b.learn t n).2 := by
  unfold learn
  split
  · split
    · exact (Steady.ofKept (.ofEntries b _)).trans (steady_refreshReach _)
    · exact steady_countCapture _ _ _ _
  · exact .refl b

theorem steady_setEnd (b : Bridge) (p : Port) (k : DirNo) : Steady b (b.setEnd p k) := by
  unfold setEnd
  split
  · exact (Steady.ofKept (.ofEntries b _)).trans (steady_refreshReach _)
  · exact .refl b

theorem steady_sourceLookup (b : Bridge) (p : Port) (n : Nat) : Steady b (b.sourceLookup p n).2 := by
  have hl := (b.steady_checkConflict (b.segmentOf p) n).trans (steady_learn _ (b.segmentOf p) n)
  unfold sourceLookup
  extract_lets t
  split
  next => exact (b.steady_heardFrom _).trans (steady_setEnd _ _ _)
  next =>
    split
    next h => rw [h] at hl; exact hl.trans (steady_setEnd _ _ _)
    next h => rw [h] at hl; exact hl

theorem inSplit_iff (b : Bridge) (p : Port) : b.inSplit p = true ↔ b.paired p = true ∧ (b.feed (pairOf p)).state = .split := by
  simp [inSplit]

end Bridge

theorem Steady.inSplit {b c : Bridge} (h : Steady b c) (p : Port) : c.inSplit p = b.inSplit p := by
  have hs : (c.feed (pairOf p)).state = (b.feed (pairOf p)).state := congrArg (·.state) (h.feed (pairOf p))
  simp only [Bridge.inSplit, h.paired, hs]

namespace Bridge

theorem takeBlock_eq {b c : Bridge} {p : Port} {blk : Block} {src : Option DirNo} (h : b.sourceLookup p blk.src = (src, c)) :
    b.takeBlock p blk =
      (c.relayIfSplit p blk (c.coaxClass (c.segmentOf p) blk.dst)).dispatchArrival src (c.coaxClass (c.segmentOf p) blk.dst)
        (.coax p blk) := by
  simp only [takeBlock, h]

/-! ### The class of a destination, and what is done for it (R80, R81, R178) -/

theorem coaxClass_everyone (b : Bridge) (t : Port) : b.coaxClass t 255 = .everyone := if_pos rfl

theorem coaxClass_homed {b : Bridge} {t : Port} {d n : Nat} {e : Entry} (hd : d ≠ 255)
    (h : findHome b.dir.entries t d = some (n, e)) : b.coaxClass t d = .homed n e := by
  simp only [coaxClass, if_neg hd, h]

theorem coaxClass_target {b : Bridge} {t : Port} {d n : Nat} {e : Entry} (hd : d ≠ 255) (h : findHome b.dir.entries t d = none)
    (hs : findOn b.dir.entries t d = some (n, e)) : b.coaxClass t d = .target n e := by
  simp only [coaxClass, if_neg hd, h, hs]

theorem coaxClass_unknown {b : Bridge} {t : Port} {d : Nat} (hd : d ≠ 255) (h : findHome b.dir.entries t d = none)
    (hs : findOn b.dir.entries t d = none) : b.coaxClass t d = .unknown := by
  simp only [coaxClass, if_neg hd, h, hs]

section
variable (b : Bridge) (src : Option DirNo) (a : Arrival)

theorem dispatchArrival_everyone : b.dispatchArrival src .everyone a = (b.heardPrinter src).broadcast src a := by
  simp [dispatchArrival]

theorem dispatchArrival_homed (n : DirNo) (e : Entry) : b.dispatchArrival src (.homed n e) a = b.heardPrinter src := by
  simp [dispatchArrival]

theorem dispatchArrival_target (n : DirNo) (e : Entry) :
    b.dispatchArrival src (.target n e) a = (if a.isAnswer then b else b.heardPrinter src).dispatchTarget src n e a := by
  simp [dispatchArrival]

theorem dispatchArrival_unknown :
    b.dispatchArrival src .unknown a = if a.isAnswer then b.answerArrival src a
      else if a.kind = .data then (b.heardPrinter src).countForward .unknownDest else b.heardPrinter src := by
  cases h : a.isAnswer <;> simp [dispatchArrival, dispatchUnknown, h]

end

theorem isAnswer_data (p : Port) {blk : Block} (h : blk.kind = .data) : (Arrival.coax p blk).isAnswer = false := by
  simp [Arrival.isAnswer, Arrival.kind, Arrival.statusCode, Block.statusCode, h, Kind.isAnswer]

theorem onHalf_iff (e : Entry) (p : Port) : onHalf e p = true ↔ e.endField = some (if p.val % 2 = 0 then .a else .b) := by
  by_cases hp : p.val % 2 = 0 <;> rcases he : e.endField with _ | (_ | _ | _) <;> simp [onHalf, sideOf, he, hp]

theorem relayIfSplit_everyone {b : Bridge} {p : Port} (h : b.inSplit p = true) (blk : Block) :
    b.relayIfSplit p blk .everyone = b.relay p blk := if_pos h

theorem relayIfSplit_homed {b : Bridge} {p : Port} (h : b.inSplit p = true) (blk : Block) (n : DirNo) (e : Entry) :
    b.relayIfSplit p blk (.homed n e) =
      if e.endField = some (if p.val % 2 = 0 then .a else .b) then b else b.relay p blk := by
  simp only [relayIfSplit, h, Bool.true_and, Bool.not_eq_true', ← Bool.not_eq_true, onHalf_iff, ite_not]

/-! ### The relay (R178) -/

theorem relay_mute (b : Bridge) {p : Port} (blk : Block) (h : b.canTransmit (partner p) = false) :
    b.relay p blk = b.countFeed (pairOf p) .relayLost := by
  simp [relay, h]

theorem relay_offered (b : Bridge) {p : Port} (blk : Block) (h : b.canTransmit (partner p) = true) :
    b.relay p blk = (b.offeredOn [partner p] blk (.relay (pairOf p)) none).countFeed (pairOf p)
      (if b.hasPlace (partner p) then .relayed else .relayLost) := by
  have hs := b.sendEach_nodup [partner p] blk (.relay (pairOf p)) none (List.nodup_singleton _)
  cases hp : b.hasPlace (partner p) <;> simp [relay, h, hs, hp]

end Bridge

theorem exec_takeArrival_port (s : State) (p : Port) (u : List Nat) {x : CoaxArrival} {rest : List CoaxArrival} {src : Option DirNo}
    {b : Bridge} (ht : s.takesTraffic) (ha : (s.bridge.port p).arrivals = x :: rest)
    (hl : (s.bridge.modPort p fun y => { y with arrivals := rest }).sourceLookup p x.block.src = (src, b)) :
    exec (.takeArrival (.port p) u) s = .next (s.after u
      ((b.relayIfSplit p x.block (b.coaxClass (b.segmentOf p) x.block.dst)).dispatchArrival src
        (b.coaxClass (b.segmentOf p) x.block.dst) (.coax p x.block))) := by
  refine (s.command_run u (·.takeArrival (.port p)) ht).trans (State.after_congr s u ?_)
  rw [← Bridge.takeBlock_eq hl]
  simp only [Bridge.takeArrival, ha]

/-- The lookup of a block's source leaves a segment in SPLIT. -/
theorem inSplit_sourceLookup {c b : Bridge} {p : Port} {n : Nat} {src : Option DirNo} {f : PortState → PortState}
    (hp : c.paired p = true) (hs : (c.feed (pairOf p)).state = .split) (hl : (c.modPort p f).sourceLookup p n = (src, b)) :
    b.inSplit p = true := by
  have hb : Steady (c.modPort p f) b := by
    have h := (c.modPort p f).steady_sourceLookup p n
    rwa [hl] at h
  rw [hb.inSplit]
  exact (Bridge.inSplit_iff _ _).2 ⟨hp, hs⟩

end Sys2Proof.Machine

/-! # The feed table: what a report of the ends does (O36). -/

namespace Sys2Proof.Machine
open Sys2Proof

namespace Bridge

/-! ## What a feed state lets an end do (R155, R173) -/

theorem sideOf_a {p : Port} : sideOf p = .a ↔ p = lowerOf (pairOf p) := by revert p; decide
theorem sideOf_b {p : Port} : sideOf p = .b ↔ p = upperOf (pairOf p) := by revert p; decide

theorem feedAllows_iff (f : Feed) (x : Side) : feedAllows f x = true ↔
    f.startWait = false ∧ (f.state = .split ∨ (f.state = .feedA ∧ x = .a) ∨ (f.state = .feedB ∧ x = .b)) := by
  cases hw : f.startWait <;> cases hs : f.state <;> cases x <;> simp [feedAllows, hw, hs]

theorem canTransmit_iff (b : Bridge) (p : Port) : b.canTransmit p = true ↔ (b.mon p).state = .active ∧ (b.paired p = true →
    (b.feed (pairOf p)).startWait = false ∧ ((b.feed (pairOf p)).state = .split ∨
      ((b.feed (pairOf p)).state = .feedA ∧ p = lowerOf (pairOf p)) ∨
      ((b.feed (pairOf p)).state = .feedB ∧ p = upperOf (pairOf p)))) := by
  rw [← sideOf_a, ← sideOf_b, ← feedAllows_iff]
  cases hp : b.paired p <;> simp [canTransmit, hp]

/-! ## The table (R174 to R176, R180) -/

section
variable {b : Bridge} {i : PairNo} (hp : (b.feed i).paired = true)
include hp

theorem follow_waiting (hw : (b.feed i).startWait = true)
    (h : (b.mon (lowerOf i)).state = .testing ∨ (b.mon (upperOf i)).state = .testing) : b.follow i = ([], b) := by
  simp only [follow, hp, hw, Bool.not_true, Bool.false_eq_true, if_false, if_true, if_pos h]

theorem follow_waited (hw : (b.feed i).startWait = true) (ha : (b.mon (lowerOf i)).state ≠ .testing)
    (hc : (b.mon (upperOf i)).state ≠ .testing) :
    b.follow i = b.changeFeed i (Feed.endWait b.now (b.mon (lowerOf i)).state (b.mon (upperOf i)).state) := by
  simp only [follow, hp, hw, Bool.not_true, Bool.false_eq_true, if_false, if_true, if_neg (not_or.2 ⟨ha, hc⟩)]

variable (hw : (b.feed i).startWait = false)
include hw

theorem follow_stay (hm : feedMove (b.feed i) ((b.mon (lowerOf i)).state = .active) ((b.mon (upperOf i)).state = .active) = .stay) :
    b.follow i = ([], b) := by
  simp only [follow, hp, hw, Bool.not_true, Bool.false_eq_true, if_false, hm]

theorem follow_abandon
    (hm : feedMove (b.feed i) ((b.mon (lowerOf i)).state = .active) ((b.mon (upperOf i)).state = .active) = .abandon) :
    b.follow i = ([], b.modFeed i (Feed.abandon b.now)) := by
  simp only [follow, hp, hw, Bool.not_true, Bool.false_eq_true, if_false, hm]

theorem follow_openSwitch
    (hm : feedMove (b.feed i) ((b.mon (lowerOf i)).state = .active) ((b.mon (upperOf i)).state = .active) = .openSwitch) :
    b.follow i = ([], b.modFeed i fun f => { f with window := .switch }) := by
  simp only [follow, hp, hw, Bool.not_true, Bool.false_eq_true, if_false, hm]

theorem follow_go {st : FeedState}
    (hm : feedMove (b.feed i) ((b.mon (lowerOf i)).state = .active) ((b.mon (upperOf i)).state = .active) = .go st) :
    b.follow i = b.changeFeed i (Feed.enter b.now st) := by
  simp only [follow, hp, hw, Bool.not_true, Bool.false_eq_true, if_false, hm]

end

theorem endWait_eq (now : Time) (a c : PortMode) (f : Feed) : Feed.endWait now a c f =
    { f with state := if a = .active then .feedA else if c = .active then .feedB else .down, startWait := false,
             openInWait := false, window := if a = .active ∧ c = .active ∧ f.openInWait = true then .split else .none,
             probing := false, probeFrom := none } := by
  have hs : (if a = .active then FeedState.feedA else if c = .active then .feedB else .down) ≠ .split := by
    split
    · decide
    · split <;> decide
  simp only [Feed.endWait, Feed.enter, if_neg hs]

end Bridge

/-- A feed controller after a move of the table. -/
def Feed.moved (now : Time) (f : Feed) : FeedMove → Feed
  | .stay => f
  | .abandon => Feed.abandon now f
  | .openSwitch => { f with window := .switch }
  | .go st => Feed.enter now st f

namespace Bridge

/-- The table moves the feed controller itself, whatever its moves do to queues and entries. -/
theorem feed_follow {b : Bridge} {i : PairNo} (hp : (b.feed i).paired = true) (hw : (b.feed i).startWait = false) :
    (b.follow i).2.feed i = Feed.moved b.now (b.feed i)
      (feedMove (b.feed i) ((b.mon (lowerOf i)).state = .active) ((b.mon (upperOf i)).state = .active)) := by
  cases hm : feedMove (b.feed i) ((b.mon (lowerOf i)).state = .active) ((b.mon (upperOf i)).state = .active) with
  | stay => rw [follow_stay hp hw hm]; rfl
  | abandon => rw [follow_abandon hp hw hm]; exact feed_modFeed_self _ _ _
  | openSwitch => rw [follow_openSwitch hp hw hm]; exact feed_modFeed_self _ _ _
  | go st => rw [follow_go hp hw hm, feed_changeFeed]; exact feed_modFeed_self _ _ _

/-! ## A change of port state, as its feed controller takes it -/

theorem mon_turned (b : Bridge) (p : Port) (st : PortMode) (q : Port) :
    ((b.turned p st).mon q).state = if q = p then st else (b.mon q).state := by
  rw [mon, turned, port_modPort]
  by_cases h : q = p
  · subst h; simp
  · rw [if_neg (Ne.symm h), if_neg h]; rfl

/-- The feed controller of a port that changes state follows the new states of its ends; its counters apart, nothing after that
touches it. -/
theorem feed_changeState (b : Bridge) (p : Port) {st : PortMode} (h : (b.mon p).state ≠ st) :
    ∃ c : Bridge, (∀ q, (c.mon q).state = if q = p then st else (b.mon q).state) ∧ (∀ j, c.feed j = b.feed j) ∧
      ((b.changeState p st).feed (pairOf p)).bare = ((c.follow (pairOf p)).2.feed (pairOf p)).bare := by
  by_cases hf : (b.mon p).state = .active ∨ st = .off
  · refine ⟨((b.turned p st).takeFlush p).2, fun q => ?_, fun j => rfl, ?_⟩
    · rw [mon_takeFlush, mon_turned]
    · rw [b.changeState_flushed p h hf]
      exact (steady_concludeChange _ _ _).feed _
  · obtain ⟨ha, ho⟩ := not_or.1 hf
    refine ⟨b.turned p st, b.mon_turned p st, fun j => rfl, ?_⟩
    rw [b.changeState_unflushed p h ha ho]
    exact (steady_concludeChange _ _ _).feed _

end Bridge

/-- What the table leaves of the state, the window and the probe of a feed controller, by the ends available. -/
theorem Feed.moved_table (now : Time) (f : Feed) (a c : Bool) :
    let x := Feed.moved now f (feedMove f a c)
    x.state = (match f.state, a, c with
      | _, false, false => .down
      | .split, _, _ => .split
      | .feedB, _, true => .feedB
      | _, true, _ => .feedA
      | _, false, true => .feedB) ∧
    (f.state ≠ .down → a = false ∨ c = false → x.window = .none ∧ x.probing = false) ∧
    (f.state = .feedB → f.window = .none → a = true → c = true → x.window = .switch) := by
  cases hs : f.state with
  | feedB =>
    by_cases hw : f.window = .none <;> cases a <;> cases c <;>
      simp [feedMove, hs, hw, Feed.moved, Feed.enter, Feed.abandon]
  | feedA => cases a <;> cases c <;> simp [feedMove, hs, Feed.moved, Feed.enter, Feed.abandon]
  | split => cases a <;> cases c <;> simp [feedMove, hs, Feed.moved, Feed.enter, Feed.abandon]
  | down => cases a <;> cases c <;> simp [feedMove, hs, Feed.moved, Feed.enter]

/-! ## The report of a change of port state (R174, R175, R180) -/

section
variable (b : Bridge) {i : PairNo} {p : Port} {st : PortMode} (hi : pairOf p = i) (hp : (b.feed i).paired = true)
  (hm : (b.mon p).state ≠ st)
include hi hp hm

theorem Bridge.changeState_waiting (hw : (b.feed i).startWait = true) :
    let stateOf := fun q => if q = p then st else (b.mon q).state
    let f := (b.changeState p st).feed i
    (stateOf (lowerOf i) = .testing ∨ stateOf (upperOf i) = .testing →
      f.startWait = true ∧ f.state = (b.feed i).state ∧ f.window = (b.feed i).window) ∧
    (stateOf (lowerOf i) ≠ .testing → stateOf (upperOf i) ≠ .testing →
      f.startWait = false ∧
      f.state = (if stateOf (lowerOf i) = .active then .feedA else if stateOf (upperOf i) = .active then .feedB else .down) ∧
      (f.window = .split ↔ stateOf (lowerOf i) = .active ∧ stateOf (upperOf i) = .active ∧ (b.feed i).openInWait = true)) := by
  intro stateOf f
  obtain ⟨c, hmon, hfeed, hbare⟩ := b.feed_changeState p hm
  rw [hi] at hbare
  rw [← hfeed i] at hp hw
  refine ⟨fun h => ?_, fun hl hu => ?_⟩
  · rw [Bridge.follow_waiting hp hw (by simpa only [hmon] using h), hfeed] at hbare
    exact ⟨(congrArg (·.startWait) hbare).trans ((congrArg (·.startWait) (hfeed i)).symm.trans hw), congrArg (·.state) hbare,
      congrArg (·.window) hbare⟩
  · rw [Bridge.follow_waited hp hw (by simpa only [hmon] using hl) (by simpa only [hmon] using hu), Bridge.feed_changeFeed,
      Bridge.feed_modFeed_self, endWait_eq, hmon, hmon, hfeed] at hbare
    have hwindow := congrArg (·.window) hbare
    refine ⟨congrArg (·.startWait) hbare, congrArg (·.state) hbare, ?_⟩
    change f.window = if _ then _ else _ at hwindow
    rw [hwindow]
    exact ⟨fun h => by_contra fun hn => absurd ((if_neg hn).symm.trans h) (by decide), fun h => if_pos h⟩

theorem Bridge.changeState_table (hw : (b.feed i).startWait = false) :
    let stateOf := fun q => if q = p then st else (b.mon q).state
    let f := ((b.changeState p st).feed i)
    let endA := decide (stateOf (lowerOf i) = .active)
    let endB := decide (stateOf (upperOf i) = .active)
    f.state = (match (b.feed i).state, endA, endB with
      | _, false, false => .down
      | .split, _, _ => .split
      | .feedB, _, true => .feedB
      | _, true, _ => .feedA
      | _, false, true => .feedB) ∧
    ((b.feed i).state ≠ .down → endA = false ∨ endB = false → f.window = .none ∧ f.probing = false) ∧
    ((b.feed i).state = .feedB → (b.feed i).window = .none → endA = true → endB = true → f.window = .switch) := by
  intro stateOf f endA endB
  obtain ⟨c, hmon, hfeed, hbare⟩ := b.feed_changeState p hm
  rw [hi] at hbare
  rw [← hfeed i] at hp hw
  have hmoved : f.bare = (Feed.moved c.now (b.feed i) (feedMove (b.feed i) endA endB)).bare := by
    rw [hbare, Bridge.feed_follow hp hw, hfeed, hmon, hmon]
  have table := Feed.moved_table c.now (b.feed i) endA endB
  have hstate : f.state = _ := congrArg (·.state) hmoved
  have hwindow : f.window = _ := congrArg (·.window) hmoved
  have hprobing : f.probing = _ := congrArg (·.probing) hmoved
  rw [hstate, hwindow, hprobing]
  exact table

end

/-- The table of R174, with the end of the start-up wait: what a feed controller does at a report of its ends. -/
theorem Bridge.follow_table (b : Bridge) (i : PairNo) :
    let f := b.feed i
    let a := (b.mon (lowerOf i)).state
    let c := (b.mon (upperOf i)).state
    let enters := fun st => b.changeFeed i fun f => { f with state := st, window := .none, probing := false, probeFrom := none }
    let abandons : List Flush × Bridge := ([], b.modFeed i fun f =>
      { f with window := .none, probing := false, probeFrom := if f.probing then some b.ctl.now else f.probeFrom })
    f.paired = true → f.startWait = false →
      (a = .active → c = .active →
        (f.state = .feedB → f.window = .none → b.follow i = ([], b.modFeed i fun f => { f with window := .switch })) ∧
        (f.state = .down → b.follow i = enters .feedA) ∧
        (f.state = .feedA ∨ f.state = .split ∨ (f.state = .feedB ∧ f.window ≠ .none) → b.follow i = ([], b))) ∧
      (a = .active → c ≠ .active →
        (f.state = .feedA ∨ f.state = .split → b.follow i = abandons) ∧
        (f.state = .feedB ∨ f.state = .down → b.follow i = enters .feedA)) ∧
      (a ≠ .active → c = .active →
        (f.state = .feedB ∨ f.state = .split → b.follow i = abandons) ∧
        (f.state = .feedA ∨ f.state = .down → b.follow i = enters .feedB)) ∧
      (a ≠ .active → c ≠ .active →
        (f.state = .down → b.follow i = ([], b)) ∧ (f.state ≠ .down → b.follow i = enters .down)) := by
  intro f a c enters abandons hp hw
  have stay (h : feedMove f (a = .active) (c = .active) = .stay) : b.follow i = ([], b) := Bridge.follow_stay hp hw h
  have abandon (h : feedMove f (a = .active) (c = .active) = .abandon) : b.follow i = abandons := Bridge.follow_abandon hp hw h
  have switch (h : feedMove f (a = .active) (c = .active) = .openSwitch) :
      b.follow i = ([], b.modFeed i fun f => { f with window := .switch }) := Bridge.follow_openSwitch hp hw h
  have goA (h : feedMove f (a = .active) (c = .active) = .go .feedA) : b.follow i = enters .feedA := Bridge.follow_go hp hw h
  have goB (h : feedMove f (a = .active) (c = .active) = .go .feedB) : b.follow i = enters .feedB := Bridge.follow_go hp hw h
  have goDown (h : feedMove f (a = .active) (c = .active) = .go .down) : b.follow i = enters .down := Bridge.follow_go hp hw h
  clear_value enters abandons
  refine ⟨fun ha hc => ⟨fun hs hwin => switch ?_, fun hs => goA ?_, ?_⟩, fun ha hc => ⟨?_, ?_⟩, fun ha hc => ⟨?_, ?_⟩,
    fun ha hc => ⟨fun hs => stay ?_, fun hs => goDown ?_⟩⟩
  · simp [feedMove, ha, hc, hs, hwin]
  · simp [feedMove, ha, hc, hs]
  · rintro (hs | hs | ⟨hs, hwin⟩)
    · exact stay (by simp [feedMove, ha, hc, hs])
    · exact stay (by simp [feedMove, ha, hc, hs])
    · exact stay (by simp [feedMove, ha, hc, hs, hwin])
  · rintro (hs | hs) <;> exact abandon (by simp [feedMove, ha, hc, hs])
  · rintro (hs | hs) <;> exact goA (by simp [feedMove, ha, hc, hs])
  · rintro (hs | hs) <;> exact abandon (by simp [feedMove, ha, hc, hs])
  · rintro (hs | hs) <;> exact goB (by simp [feedMove, ha, hc, hs])
  · simp [feedMove, ha, hc, hs]
  · cases h : f.state with
    | down => exact absurd h hs
    | feedA => simp [feedMove, ha, hc, h]
    | feedB => simp [feedMove, ha, hc, h]
    | split => simp [feedMove, ha, hc, h]

end Sys2Proof.Machine

/-! # The redistribution of queues, and the whole of O36. -/

namespace Sys2Proof.Machine
open Sys2Proof

/-! ## Redistribution (R177) -/

namespace Bridge

/-- The frames of a queue that are placed on the other end: the moved ones and the copied ones, uncharged. -/
def leaving (other : Port) (l : List CoaxFrame) : List CoaxFrame :=
  (l.filter fun f => f.named = some other ∨ f.named = none).map fun f => { f with attempts := 1, charged := false }

theorem splitQueue_leaving (other : Port) (l : List CoaxFrame) :
    (splitQueue other l).2 = (leaving other l).map fun f => (f, decide (f.named = some other)) := by
  simp only [splitQueue, leaving, List.map_map]
  induction l with
  | nil => rfl
  | cons f l ih =>
    rcases hn : f.named with _ | q
    · simpa [hn, CoaxFrame.fresh] using ih
    · by_cases hm : q = other
      · simpa [hn, hm, CoaxFrame.fresh] using ih
      · simpa [hn, hm] using ih

/-- Frames are placed while there is room; of the others the moved ones are given back. -/
theorem placeFrames_eq (size : Nat) : ∀ (l : List (CoaxFrame × Bool)) (q : List CoaxFrame),
    placeFrames size q l =
      (q ++ (l.map (·.1)).take (size - q.length), ((l.drop (size - q.length)).filter (·.2)).map (·.1))
  | [], q => by simp [placeFrames]
  | (f, moved) :: l, q => by
    rw [placeFrames]
    by_cases hq : q.length < size
    · obtain ⟨k, hk⟩ : ∃ k, size - q.length = k + 1 := ⟨size - q.length - 1, by omega⟩
      have hk' : size - (q ++ [f]).length = k := by rw [List.length_append, List.length_singleton]; omega
      rw [if_pos hq, placeFrames_eq size l, hk, hk']
      simp
    · have hk : size - q.length = 0 := by omega
      rw [if_neg hq, placeFrames_eq size l, hk]
      cases moved <;> simp

theorem placeFrames_leaving (size : Nat) (other : Port) (q l : List CoaxFrame) :
    placeFrames size q (splitQueue other l).2 =
      (q ++ (leaving other l).take (size - q.length),
       ((leaving other l).drop (size - q.length)).filter fun f => f.named = some other) := by
  rw [placeFrames_eq, splitQueue_leaving, List.map_map, ← List.map_drop, List.filter_map, List.map_map]
  simp [Function.comp_def]

/-- A place offered on one port leaves the others. -/
theorem port_offerPlace_ne {p q : Port} (h : p ≠ q) : ∀ (l : List Lp) (b : Bridge), (b.offerPlace p l).port q = b.port q
  | [], b => port_modPort_ne b h _
  | l :: rest, b => by
    unfold offerPlace
    split
    next f _ =>
      have ho : ((b.modPort p fun x => { x with waiting := rest }).offer1 p f).port q = b.port q := by
        rw [offer1_eq, port_modPort_ne _ h, port_modPort_ne _ h]
      exact ho
    next => exact port_offerPlace_ne h rest b

/-- Places offered one after the other on a port: the class-1 queue grows at its tail, and nothing is known of the rest. -/
theorem offerPlaces_kept (p : Port) : ∀ (l : List Nat) (b : Bridge),
    PortKept (b.port p) ((l.foldl (fun b _ => b.offerPlace p (b.port p).waiting) b).port p) ∧
      ∀ q, p ≠ q → (l.foldl (fun b _ => b.offerPlace p (b.port p).waiting) b).port q = b.port q
  | [], b => ⟨PortKept.refl _, fun _ _ => rfl⟩
  | _ :: l, b => by
    obtain ⟨hp, hq⟩ := offerPlaces_kept p l (b.offerPlace p (b.port p).waiting)
    exact ⟨((kept_offerPlace p _ b).port p).trans hp, fun q h => (hq q h).trans (port_offerPlace_ne h _ b)⟩

theorem redistribute_queues (b : Bridge) {feeding other : Port} (h : feeding ≠ other) :
    let x := b.port feeding
    let y := b.port other
    let z := b.redistribute feeding other
    (z.2.port other).class0 = y.class0 ++ (leaving other x.class0).take (8 - y.class0.length) ∧
    (z.2.port other).class1 = y.class1 ++ (leaving other x.class1).take (24 - y.class1.length) ∧
    (z.2.port feeding).class0 = (x.class0.filter fun f => f.named ≠ some other) ∧
    (∃ placed, (z.2.port feeding).class1 = (x.class1.filter fun f => f.named ≠ some other) ++ placed) ∧
    z.1.frames = ((leaving other x.class0).drop (8 - y.class0.length) ++ (leaving other x.class1).drop (24 - y.class1.length)).filter
      fun f => f.named = some other := by
  intro x y z
  unfold z redistribute
  extract_lets q0 q1 r0 r1 b₁ b₂ freed
  have hr0 : r0 = _ := placeFrames_leaving 8 other (b.port other).class0 (b.port feeding).class0
  have hr1 : r1 = _ := placeFrames_leaving 24 other (b.port other).class1 (b.port feeding).class1
  have hother : b₂.port other = { b.port other with class0 := r0.1, class1 := r1.1 } := by
    unfold b₂ b₁
    rw [port_modPort_self, port_modPort_ne b h]
  have hfeeding : b₂.port feeding = { b.port feeding with class0 := q0.1, class1 := q1.1 } := by
    unfold b₂ b₁
    rw [port_modPort_ne _ h.symm, port_modPort_self]
  obtain ⟨hkept, hleft⟩ := offerPlaces_kept feeding (List.range freed) b₂
  have hout := hleft other h
  dsimp only
  rw [hout, hother, hkept.class0, hfeeding]
  rw [hfeeding] at hkept
  refine ⟨congrArg (·.1) hr0, congrArg (·.1) hr1, rfl, hkept.class1, ?_⟩
  rw [hr0, hr1, List.filter_append]

end Bridge

theorem exec_splitWindowClose (s : State) (i : PairNo) (ht : s.takesTraffic) (hp : (s.bridge.feed i).paired = true)
    (hw : (s.bridge.feed i).window = .split) (hd : s.bridge.driving (s.bridge.feedingEnd i) = false) :
    exec (.splitWindowClose i) s = .next (s.after [] (s.bridge.splitNow i)) :=
  (s.command_run [] (·.splitWindowCloses i) ht).trans (State.after_congr s [] (if_pos ⟨hp, hw, by rw [hd]; rfl⟩))

/-- A known source heard on an end of a segment in SPLIT is on the half of that end (R60). -/
theorem Bridge.sourceLookup_split (b : Bridge) {p : Port} {n k : Nat} {e : Entry} (hp : b.paired p = true)
    (hs : (b.feed (pairOf p)).state = .split) (h : findHome b.dir.entries (lowerOf (pairOf p)) n = some (k, e)) :
    b.sourceLookup p n = (some k, ((b.modEntry k fun x => { x with age := 0 }).modEntry k fun x =>
      { x with endField := some (if p.val % 2 = 0 then .a else .b) }).refreshReach) := by
  have hseg : b.segmentOf p = lowerOf (pairOf p) := if_pos hp
  rw [b.sourceLookup_known p (hseg ▸ h), Bridge.setEnd_eq (b.steady_heardFrom k) p k, if_pos ⟨hp, hs⟩]
  rfl

/-- Settles O36: dispatch and relay in SPLIT, the table of the feed states, and the queues redistributed as the segment splits. -/
theorem splitSegmentsRelayAndRedistribute : Obligations.SplitSegmentsRelayAndRedistribute := by
  refine ⟨fun s p u x rest src b ht hp hs ha hl => ?_, fun b p => b.canTransmit_iff p, fun b i => ?_,
    fun b i p st hi hp hw hm => b.changeState_waiting hi hp hm hw, fun b p blk => ?_, fun b p n k e hp hs h => b.sourceLookup_split hp hs h,
    fun s i ht hp hw hd => exec_splitWindowClose s i ht hp hw hd, fun b feeding other h => b.redistribute_queues h,
    fun b i p st hi hp hw hm => b.changeState_table hi hp hm hw⟩
  · intro a home shown here
    have hsplit := inSplit_sourceLookup hp hs hl
    rw [exec_takeArrival_port s p u ht ha hl]
    refine ⟨fun hd => ?_, fun n e hd hh he => ?_, fun n e hd hh he => ?_, fun n e hd hh hsh => ?_, fun hd hh hsh => ?_⟩
    · rw [hd, Bridge.coaxClass_everyone, Bridge.relayIfSplit_everyone hsplit, Bridge.dispatchArrival_everyone]
    · rw [Bridge.coaxClass_homed hd hh, Bridge.relayIfSplit_homed hsplit, if_neg he, Bridge.dispatchArrival_homed]
    · rw [Bridge.coaxClass_homed hd hh, Bridge.relayIfSplit_homed hsplit, if_pos he, Bridge.dispatchArrival_homed]
    · rw [Bridge.coaxClass_target hd hh hsh, Bridge.dispatchArrival_target]
      rfl
    · rw [Bridge.coaxClass_unknown hd hh hsh, Bridge.dispatchArrival_unknown]
      refine ⟨fun hans => ?_, fun hk => ?_, fun hk hans => ?_⟩
      · rw [if_pos hans]; rfl
      · rw [Bridge.isAnswer_data p hk]
        exact congrArg (fun c => Host.Outcome.next (s.after u c)) (if_pos hk)
      · rw [show (Arrival.coax p x.block).isAnswer = false from hans]
        exact congrArg (fun c => Host.Outcome.next (s.after u c)) (if_neg hk)
  · intro f a c enters abandons
    refine ⟨b.follow_unpaired i, fun hp hw => Bridge.follow_waiting hp hw, fun hp hw ha hc => ?_, b.follow_table i⟩
    rw [Bridge.follow_waited hp hw ha hc]
    exact congrArg (b.changeFeed i) (funext (Bridge.endWait_eq b.now a c))
  · intro i c
    refine ⟨b.relay_mute blk, fun ht hf => ?_, fun ht hf => ?_⟩
    · rw [b.relay_offered blk ht, if_pos ((b.hasPlace_iff _).2 hf)]
    · rw [b.relay_offered blk ht, if_neg fun h => (b.hasPlace_iff _).1 h hf]

end Sys2Proof.Machine

/-! # An applied commit: the deliveries it stops, and the edits one by one (O21). -/

namespace Sys2Proof.Machine
open Sys2Proof

theorem Home.same_iff (x y : Home) : x.same y = true ↔ (∃ p n, x = .seg p n ∧ y = .seg p n) ∨
    (∃ mac o r, x = .pair mac o ∧ y = .pair mac r) ∨ (x = .internal ∧ y = .internal) := by
  cases x with
  | seg p m =>
    cases y with
    | seg q n =>
      simp only [Home.same, Bool.and_eq_true, decide_eq_true_eq]
      exact ⟨fun ⟨hp, hm⟩ => .inl ⟨p, m, rfl, by rw [hp, hm]⟩, by simp⟩
    | pair l o => simp [Home.same]
    | internal => simp [Home.same]
  | pair k o =>
    cases y with
    | seg q n => simp [Home.same]
    | pair l r => simp [Home.same, eq_comm]
    | internal => simp [Home.same]
  | internal => cases y <;> simp [Home.same]

/-- A home on a segment is the same only as itself. -/
theorem Home.same_seg (h : Home) (p : Port) (k : Nat) : h.same (.seg p k) = true ↔ h = .seg p k := by
  cases h <;> simp [Home.same]

/-! ## The deliveries that are stopped first (R75) -/

theorem rising_endJob (b : Bridge) (n : Nat) (o : JobOutcome) (r : JobReason) (h : rising b.dir.entries = true) :
    rising (b.endJob n o r).dir.entries = true := by
  unfold Bridge.endJob
  split
  next j _ =>
    have hd : ((b.retireJob j).jobNotice j o r).dir = b.dir := (Bridge.dir_jobNotice _ _ _ _).trans (Bridge.dir_retireJob _ _)
    exact (Bridge.freed_unpin _ _).entries (hd ▸ h)
  next => exact h

namespace Bridge

theorem rising_stopQuiet (b : Bridge) (l : Lp) (h : rising b.dir.entries = true) : rising (b.stopQuiet l).dir.entries = true := by
  unfold stopQuiet
  split
  next d _ =>
    extract_lets c₀ c c'
    have hr : rising (b.releasePrinter d.target).dir.entries = true := (freed_unpin _ _).entries h
    have hc : rising c.dir.entries = true := by
      have hd : c.dir = (b.releasePrinter d.target).dir := (dir_emptyRecord _ l).trans (dir_failover _ l d.target)
      rwa [hd]
    have hc' : rising c'.dir.entries = true := by
      unfold c'
      split
      · split
        · exact rising_endJob _ _ _ _ hc
        · split
          · exact hc
          · exact rising_endJob _ _ _ _ hc
      · exact hc
    exact hc'
  next => exact h

/-- What a commit stops before its edits is a chain of stops of deliveries, which keeps whatever each stop keeps. -/
theorem stopMoved_induction {P : Bridge → Prop} (hstop : ∀ c l, P c → P (c.stopQuiet l)) {b : Bridge} (h : P b) (edits : List Edit) :
    P (b.stopMoved edits) := by
  unfold stopMoved
  generalize edits.filterMap b.movesPrinter = l
  induction l generalizing b with
  | nil => exact h
  | cons n l ih =>
    refine ih ?_
    dsimp only
    split
    · exact hstop _ _ h
    · exact h

theorem kept_stopMoved (b : Bridge) (edits : List Edit) : BridgeKept b (b.stopMoved edits) :=
  stopMoved_induction (fun c l h => h.trans (kept_stopQuiet c l)) (.refl b) edits

theorem rising_stopMoved {b : Bridge} (edits : List Edit) (h : rising b.dir.entries = true) :
    rising (b.stopMoved edits).dir.entries = true := stopMoved_induction rising_stopQuiet h edits

theorem stopMoved_eq (b : Bridge) (edits : List Edit) : b.stopMoved edits = edits.foldl (fun c x =>
    match x with
    | .entry n (.fields f) =>
      if (b.entry n).any (fun e => e.kind ≠ f.kind || !e.home.same f.toHome) then
        match c.lpDelivering n with
        | some l => c.stopQuiet l
        | none => c
      else c
    | _ => c) b := by
  rw [stopMoved, List.foldl_filterMap]
  congr 1
  funext c x
  match x with
  | .printer n y => rfl
  | .entry n .delete => rfl
  | .entry n (.fields f) =>
    by_cases hm : ((b.entry n).any fun e => decide (e.kind ≠ f.kind) || !e.home.same f.toHome) = true
    · have hn : b.movesPrinter (.entry n (.fields f)) = some n := by
        obtain ⟨e, he, hm⟩ := (Option.any_eq_true ..).1 hm
        simp only [movesPrinter, he]
        exact if_pos hm
      rw [hn]
      exact (if_pos hm).symm
    · have hn : b.movesPrinter (.entry n (.fields f)) = none := by
        rcases he : b.entry n with _ | e
        · simp only [movesPrinter, he]
        · simp only [movesPrinter, he]
          exact if_neg (by simpa [he] using hm)
      rw [hn]
      exact (if_neg hm).symm

/-- Nothing is stopped where no delivery goes to an entry that an edit moves. -/
theorem stopMoved_idle {b : Bridge} {edits : List Edit}
    (h : ∀ n f e, Edit.entry n (.fields f) ∈ edits → b.entry n = some e →
      (e.kind = f.kind ∧ e.home.same f.toHome = true) ∨ b.lpDelivering n = none) : b.stopMoved edits = b := by
  have hidle : ∀ n ∈ edits.filterMap b.movesPrinter, b.lpDelivering n = none := by
    intro n hn
    obtain ⟨x, hx, hm⟩ := List.mem_filterMap.1 hn
    unfold movesPrinter at hm
    split at hm
    next m f =>
      split at hm
      next e he =>
        split at hm
        next hmoved =>
          obtain rfl := Option.some.inj hm
          refine (h m f e hx he).resolve_left fun ⟨hk, hs⟩ => ?_
          simp [hk, hs] at hmoved
        next => cases hm
      next => cases hm
    next => cases hm
  unfold stopMoved
  generalize edits.filterMap b.movesPrinter = l at hidle
  induction l with
  | nil => rfl
  | cons n l ih =>
    rw [List.foldl_cons, hidle n List.mem_cons_self]
    exact ih fun m hm => hidle m (List.mem_cons_of_mem _ hm)

end Bridge

end Sys2Proof.Machine

/-! # The edits of a commit, one item at a time (O21). -/

namespace Sys2Proof.Machine
open Sys2Proof

/-! ## Items (R66) -/

theorem Edit.sameItem_comm (x y : Edit) : x.sameItem y = y.sameItem x := by
  cases x <;> cases y <;> simp [Edit.sameItem, eq_comm]

/-- An edit stands apart from the edits before and after it, where at most one edit waits for each item. -/
theorem edits_split {edits : List Edit} (h : edits.Pairwise fun x y => x.sameItem y = false) {x : Edit} (hx : x ∈ edits) :
    ∃ l r, edits = l ++ x :: r ∧ ∀ a, a ∈ l ∨ a ∈ r → x.sameItem a = false := by
  obtain ⟨l, r, rfl⟩ := List.append_of_mem hx
  obtain ⟨-, hr, hl⟩ := List.pairwise_append.1 h
  refine ⟨l, r, rfl, fun a ha => ha.elim (fun ha => ?_) ((List.pairwise_cons.1 hr).1 a)⟩
  rw [Edit.sameItem_comm]
  exact hl a ha x List.mem_cons_self

/-! ## What an edit leaves (R73, R74, R76) -/

namespace Bridge

/-- Nothing has changed that the edits of a commit do not concern. -/
structure EditsKept (y z : Tally × Bridge) : Prop where
  ctl : z.2.ctl = y.2.ctl
  settings : z.2.settings = y.2.settings
  feeds : z.2.feeds = y.2.feeds
  ports : z.2.ports = y.2.ports
  agent : z.2.agent = y.2.agent
  entries : rising y.2.dir.entries = true → rising z.2.dir.entries = true
  gone : rising y.1.gone = true → rising z.1.gone = true

namespace EditsKept

theorem refl (y : Tally × Bridge) : EditsKept y y := ⟨rfl, rfl, rfl, rfl, rfl, id, id⟩

theorem trans {x y z : Tally × Bridge} (h : EditsKept x y) (k : EditsKept y z) : EditsKept x z where
  ctl := k.ctl.trans h.ctl
  settings := k.settings.trans h.settings
  feeds := k.feeds.trans h.feeds
  ports := k.ports.trans h.ports
  agent := k.agent.trans h.agent
  entries e := k.entries (h.entries e)
  gone e := k.gone (h.gone e)

end EditsKept

/-- Under one directory number nothing has changed: the entry, its printer record and what has gone are as they were, and no repeat of the
pair side has come to be its own. -/
structure NumberKept (n : DirNo) (y z : Tally × Bridge) : Prop where
  entry : z.2.entry n = y.2.entry n
  printer : z.2.printer n = y.2.printer n
  gone : look n z.1.gone = look n y.1.gone
  repeats : (∀ r ∈ y.2.pair.repeats, r.asker ≠ n) → ∀ r ∈ z.2.pair.repeats, r.asker ≠ n

namespace NumberKept

theorem refl (n : DirNo) (y : Tally × Bridge) : NumberKept n y y := ⟨rfl, rfl, rfl, id⟩

theorem trans {n : DirNo} {x y z : Tally × Bridge} (h : NumberKept n x y) (k : NumberKept n y z) : NumberKept n x z where
  entry := k.entry.trans h.entry
  printer := k.printer.trans h.printer
  gone := k.gone.trans h.gone
  repeats e := k.repeats (h.repeats e)

end NumberKept

/-! ### Each edit by its case -/

section
variable (y : Tally × Bridge) (n : DirNo)

theorem applyEdit_delete_free (h : y.2.entry n = none) : applyEdit y (.entry n .delete) = y := by
  simp only [applyEdit, h]

theorem applyEdit_delete_freed {e : Entry} (h : y.2.entry n = some e) (hp : e.pins = 0) :
    applyEdit y (.entry n .delete) =
      ({ y.1 with freed := y.1.freed + 1, gone := put n (y.2.presences e) y.1.gone }, y.2.freeQuiet n) := by
  simp only [applyEdit, h, if_pos hp]

theorem applyEdit_delete_pinned {e : Entry} (h : y.2.entry n = some e) (hp : e.pins ≠ 0) :
    applyEdit y (.entry n .delete) =
      ({ y.1 with retiring := y.1.retiring + 1, gone := put n (y.2.presences e) y.1.gone }, y.2.retireQuiet n) := by
  simp only [applyEdit, h, if_neg hp]

/-- The presences that have gone once fields have been written into an entry: those of an entry given another home (R74). -/
def goneAfter (f : PlanFields) : List (Nat × List (Port × Nat)) :=
  match y.2.entry n with
  | some e => if e.home.same f.toHome then y.1.gone else put n (y.2.presences e) y.1.gone
  | none => y.1.gone

theorem applyEdit_fields (f : PlanFields) :
    applyEdit y (.entry n (.fields f)) =
      ({ y.1 with gone := goneAfter y n f },
       (y.2.modEntries (put n (writeEntry y.2.lowerPaired (y.2.entry n) f))).followPrinter n f.kind) := rfl

theorem applyEdit_printer (l : Lp) (x : Binding) :
    applyEdit y (.printer (l.val + 2) x) = (y.1, y.2.modLp l fun r =>
      { r with binding := x,
               active := if x.primary = r.binding.primary ∧ x.alternate = r.binding.alternate then r.active else .primary }) := by
  simp only [applyEdit, (lpOf_eq_some _ l).2 rfl]

theorem applyEdit_printer_none {k : Nat} (x : Binding) (h : lpOf k = none) : applyEdit y (.printer k x) = y := by
  simp only [applyEdit, h]

end

theorem look_goneAfter_ne (y : Tally × Bridge) {n m : DirNo} (h : m ≠ n) (f : PlanFields) :
    look m (goneAfter y n f) = look m y.1.gone := by
  unfold goneAfter
  split
  · split
    · rfl
    · exact look_put_ne h _ _
  · rfl

theorem rising_goneAfter (y : Tally × Bridge) (n : DirNo) (f : PlanFields) (h : rising y.1.gone = true) :
    rising (goneAfter y n f) = true := by
  unfold goneAfter
  split
  · split
    · exact h
    · exact rising_put n _ h
  · exact h

theorem printer_followPrinter_ne (b : Bridge) {n m : DirNo} (h : m ≠ n) (k : EntryKind) :
    (b.followPrinter n k).printer m = b.printer m := by
  by_cases hk : k = .printer
  · by_cases hs : (look n b.delivery.printers).isSome = true
    · simp only [followPrinter, hk, if_true, printer, delivery_modDelivery, hs]
    · simp only [followPrinter, hk, if_true, printer, delivery_modDelivery, hs]
      exact look_put_ne h _ _
  · simp only [followPrinter, hk, if_false, printer, delivery_modDelivery]
    exact look_drop_ne h _

theorem printer_followPrinter_self (b : Bridge) (n : DirNo) (k : EntryKind) :
    (b.followPrinter n k).printer n = if k = .printer then some ((b.printer n).getD {}) else none := by
  by_cases hk : k = .printer
  · cases hs : look n b.delivery.printers with
    | none => simp [followPrinter, hk, printer, hs, look_put_self]
    | some r => simp [followPrinter, hk, printer, hs]
  · simp only [followPrinter, hk, if_false, printer, delivery_modDelivery]
    exact look_drop_self n _

theorem editsKept_applyEdit (y : Tally × Bridge) (x : Edit) : EditsKept y (applyEdit y x) := by
  match x with
  | .entry n .delete =>
    rcases h : y.2.entry n with _ | e
    · rw [applyEdit_delete_free y n h]; exact .refl y
    · by_cases hp : e.pins = 0
      · rw [applyEdit_delete_freed y n h hp]
        exact ⟨rfl, rfl, rfl, rfl, rfl, rising_drop n, rising_put n _⟩
      · rw [applyEdit_delete_pinned y n h hp]
        exact ⟨rfl, rfl, rfl, rfl, rfl, rising_change n _, rising_put n _⟩
  | .entry n (.fields f) =>
    rw [applyEdit_fields]
    exact ⟨rfl, rfl, rfl, rfl, rfl, rising_put n _, rising_goneAfter y n f⟩
  | .printer k z =>
    rcases h : lpOf k with _ | l
    · rw [applyEdit_printer_none y z h]; exact .refl y
    · obtain rfl := (lpOf_eq_some k l).1 h
      rw [applyEdit_printer]
      exact ⟨rfl, rfl, rfl, rfl, rfl, id, id⟩

/-- An edit concerns one directory number at most. -/
theorem numberKept_applyEdit (y : Tally × Bridge) {n : DirNo} {x : Edit} (hx : ∀ e, x ≠ .entry n e) :
    NumberKept n y (applyEdit y x) := by
  match x, hx with
  | .entry m .delete, hx =>
    have hm : n ≠ m := fun e => hx _ (by rw [e])
    rcases h : y.2.entry m with _ | e
    · rw [applyEdit_delete_free y m h]; exact .refl n y
    · by_cases hp : e.pins = 0
      · rw [applyEdit_delete_freed y m h hp]
        exact ⟨look_drop_ne hm _, look_drop_ne hm _, look_put_ne hm _ _, fun hr r hmem => hr r (List.mem_filter.1 hmem).1⟩
      · rw [applyEdit_delete_pinned y m h hp]
        exact ⟨look_change_ne hm _ _, rfl, look_put_ne hm _ _, id⟩
  | .entry m (.fields f), hx =>
    have hm : n ≠ m := fun e => hx _ (by rw [e])
    rw [applyEdit_fields]
    exact ⟨look_put_ne hm _ _, printer_followPrinter_ne _ hm _, look_goneAfter_ne y hm f, id⟩
  | .printer k z, _ =>
    rcases h : lpOf k with _ | l
    · rw [applyEdit_printer_none y z h]; exact .refl n y
    · obtain rfl := (lpOf_eq_some k l).1 h
      rw [applyEdit_printer]
      exact ⟨rfl, rfl, rfl, id⟩

/-- An edit concerns one logical printer at most. -/
theorem lp_applyEdit (y : Tally × Bridge) {l : Lp} {x : Edit} (hx : ∀ z, x ≠ .printer (l.val + 2) z) :
    (applyEdit y x).2.lp l = y.2.lp l := by
  match x, hx with
  | .entry m .delete, _ =>
    rcases h : y.2.entry m with _ | e
    · rw [applyEdit_delete_free y m h]
    · by_cases hp : e.pins = 0
      · rw [applyEdit_delete_freed y m h hp]; rfl
      · rw [applyEdit_delete_pinned y m h hp]; rfl
  | .entry m (.fields f), _ => rfl
  | .printer k z, hx =>
    rcases h : lpOf k with _ | m
    · rw [applyEdit_printer_none y z h]
    · obtain rfl := (lpOf_eq_some k m).1 h
      have hm : m ≠ l := fun e => hx z (by rw [e])
      rw [applyEdit_printer]
      exact (lp_modLp _ _ _ _).trans (if_neg hm)

/-! ### All edits -/

theorem editsKept_applyEdits : ∀ (edits : List Edit) (y : Tally × Bridge), EditsKept y (edits.foldl applyEdit y)
  | [], y => .refl y
  | x :: l, y => (editsKept_applyEdit y x).trans (editsKept_applyEdits l _)

theorem numberKept_applyEdits {n : DirNo} : ∀ (edits : List Edit) (y : Tally × Bridge), (∀ e, Edit.entry n e ∉ edits) →
    NumberKept n y (edits.foldl applyEdit y)
  | [], y, _ => .refl n y
  | _ :: l, y, h =>
    (numberKept_applyEdit y fun e he => h e (he ▸ List.mem_cons_self)).trans
      (numberKept_applyEdits l _ fun e he => h e (List.mem_cons_of_mem _ he))

theorem lp_applyEdits {l : Lp} : ∀ (edits : List Edit) (y : Tally × Bridge), (∀ z, Edit.printer (l.val + 2) z ∉ edits) →
    (edits.foldl applyEdit y).2.lp l = y.2.lp l
  | [], _, _ => rfl
  | _ :: r, y, h =>
    (lp_applyEdits r _ fun z hz => h z (List.mem_cons_of_mem _ hz)).trans
      (lp_applyEdit y fun z hz => h z (hz ▸ List.mem_cons_self))

section
variable {edits : List Edit} (hd : edits.Pairwise fun x y => x.sameItem y = false) (y : Tally × Bridge)
include hd

/-- What the edits leave under a number is what its own edit makes of what stood there before. -/
theorem applyEdits_at {n : DirNo} {e : EntryEdit} (he : Edit.entry n e ∈ edits) :
    ∃ z, EditsKept y z ∧ NumberKept n y z ∧ NumberKept n (applyEdit z (.entry n e)) (edits.foldl applyEdit y) := by
  obtain ⟨l, r, rfl, hlr⟩ := edits_split hd he
  have hne (a : Edit) (ha : a ∈ l ∨ a ∈ r) (e' : EntryEdit) : a ≠ .entry n e' := by
    rintro rfl
    simpa [Edit.sameItem] using hlr _ ha
  refine ⟨l.foldl applyEdit y, editsKept_applyEdits l y, numberKept_applyEdits l y fun e' h => hne _ (.inl h) e' rfl, ?_⟩
  rw [List.foldl_append, List.foldl_cons]
  exact numberKept_applyEdits r _ fun e' h => hne _ (.inr h) e' rfl

theorem lp_applyEdits_at {l : Lp} {x : Binding} (hx : Edit.printer (l.val + 2) x ∈ edits) :
    (edits.foldl applyEdit y).2.lp l = { y.2.lp l with
      binding := x,
      active := if x.primary = (y.2.lp l).binding.primary ∧ x.alternate = (y.2.lp l).binding.alternate then (y.2.lp l).active
        else .primary } := by
  obtain ⟨f, r, rfl, hfr⟩ := edits_split hd hx
  have hne (a : Edit) (ha : a ∈ f ∨ a ∈ r) (z : Binding) : a ≠ .printer (l.val + 2) z := by
    rintro rfl
    simpa [Edit.sameItem] using hfr _ ha
  rw [List.foldl_append, List.foldl_cons, lp_applyEdits r _ fun z h => hne _ (.inr h) z rfl, applyEdit_printer, lp_modLp_self,
    lp_applyEdits f y fun z h => hne _ (.inl h) z rfl]

end

end Bridge

end Sys2Proof.Machine

/-! # What an applied commit counts, lifts and writes (O21). -/

namespace Sys2Proof.Machine
open Sys2Proof

namespace Bridge

/-! ## The counts (R70) -/

/-- Whether an edit deletes an entry in use that has a given property. -/
def deletes (q : Entry → Bool) (b : Bridge) : Edit → Bool
  | .entry n .delete => (b.entry n).any q
  | _ => false

/-- Another item's edit does not change which entries an edit deletes. -/
theorem deletes_applyEdit (q : Entry → Bool) (y : Tally × Bridge) {x z : Edit} (h : x.sameItem z = false) :
    deletes q (applyEdit y x).2 z = deletes q y.2 z := by
  match z with
  | .printer _ _ => rfl
  | .entry _ (.fields _) => rfl
  | .entry n .delete =>
    have hx : ∀ e, x ≠ .entry n e := by rintro e rfl; simp [Edit.sameItem] at h
    exact congrArg (Option.any q) (numberKept_applyEdit y hx).entry

theorem counts_applyEdit (y : Tally × Bridge) (x : Edit) :
    (applyEdit y x).1.freed = y.1.freed + (if deletes (fun e => e.pins = 0) y.2 x then 1 else 0) ∧
    (applyEdit y x).1.retiring = y.1.retiring + (if deletes (fun e => e.pins ≠ 0) y.2 x then 1 else 0) := by
  match x with
  | .entry n .delete =>
    rcases h : y.2.entry n with _ | e
    · rw [applyEdit_delete_free y n h]
      simp [deletes, h]
    · by_cases hp : e.pins = 0
      · rw [applyEdit_delete_freed y n h hp]
        simp [deletes, h, hp]
      · rw [applyEdit_delete_pinned y n h hp]
        simp [deletes, h, hp]
  | .entry n (.fields f) => exact ⟨rfl, rfl⟩
  | .printer k z =>
    rcases h : lpOf k with _ | l
    · rw [applyEdit_printer_none y z h]
      exact ⟨rfl, rfl⟩
    · obtain rfl := (lpOf_eq_some k l).1 h
      rw [applyEdit_printer]
      exact ⟨rfl, rfl⟩

theorem counts_applyEdits : ∀ (edits : List Edit) (y : Tally × Bridge), edits.Pairwise (fun x y => x.sameItem y = false) →
    (edits.foldl applyEdit y).1.freed = y.1.freed + (edits.filter (deletes (fun e => e.pins = 0) y.2)).length ∧
    (edits.foldl applyEdit y).1.retiring = y.1.retiring + (edits.filter (deletes (fun e => e.pins ≠ 0) y.2)).length
  | [], _, _ => ⟨rfl, rfl⟩
  | x :: l, y, h => by
    obtain ⟨hx, hl⟩ := List.pairwise_cons.1 h
    obtain ⟨hfreed, hretiring⟩ := counts_applyEdits l (applyEdit y x) hl
    obtain ⟨hf, hr⟩ := counts_applyEdit y x
    have hsame (q : Entry → Bool) : l.filter (deletes q (applyEdit y x).2) = l.filter (deletes q y.2) :=
      List.filter_congr fun z hz => deletes_applyEdit q y (hx z hz)
    rw [hsame] at hfreed hretiring
    rw [List.foldl_cons, hfreed, hretiring, hf, hr, List.filter_cons, List.filter_cons]
    constructor
    · split
      · rw [List.length_cons]; omega
      · rfl
    · split
      · rw [List.length_cons]; omega
      · rfl

/-! ## What has gone (R53, R74) -/

theorem presences_congr {b c : Bridge} (h : c.feeds = b.feeds) (e : Entry) : c.presences e = b.presences e := by
  have hs : c.segments = b.segments := by
    have hf (i : PairNo) : c.feed i = b.feed i := congrArg (fun x : Vector Feed 2 => x[i]) h
    have hp (p : Port) : c.segmentOf p = b.segmentOf p := by rw [segmentOf, segmentOf, paired, paired, hf]
    simp only [segments, hp]
  rw [presences, presences, hs]

theorem look_goneAfter_self (y : Tally × Bridge) (n : DirNo) (f : PlanFields) :
    look n (goneAfter y n f) = match y.2.entry n with
      | some e => if e.home.same f.toHome then look n y.1.gone else some (y.2.presences e)
      | none => look n y.1.gone := by
  unfold goneAfter
  rcases y.2.entry n with _ | e
  · rfl
  · dsimp only
    split
    · rfl
    · exact look_put_self n _ _

section
variable {edits : List Edit} (hd : edits.Pairwise fun x y => x.sameItem y = false) (b : Bridge)
include hd

/-- An entry has gone where this commit deletes it or gives it another home. -/
theorem gone_applyEdits (n : DirNo) (places : List (Port × Nat)) :
    look n (edits.foldl applyEdit ({}, b)).1.gone = some places ↔ ∃ e, b.entry n = some e ∧
      (Edit.entry n .delete ∈ edits ∨ ∃ f, Edit.entry n (.fields f) ∈ edits ∧ e.home.same f.toHome = false) ∧
      places = b.presences e := by
  have hdelete (hx : Edit.entry n .delete ∈ edits) :
      look n (edits.foldl applyEdit ({}, b)).1.gone = (b.entry n).map b.presences := by
    obtain ⟨z, hk, hz, hafter⟩ := applyEdits_at hd ({}, b) hx
    have hgone : look n z.1.gone = none := hz.gone
    have hentry : z.2.entry n = b.entry n := hz.entry
    rw [hafter.gone]
    rcases he : b.entry n with _ | e
    · rw [applyEdit_delete_free z n (hentry.trans he), hgone]; rfl
    · have hplaces : z.2.presences e = b.presences e := presences_congr hk.feeds e
      by_cases hp : e.pins = 0
      · rw [applyEdit_delete_freed z n (hentry.trans he) hp, hplaces]
        exact look_put_self n _ _
      · rw [applyEdit_delete_pinned z n (hentry.trans he) hp, hplaces]
        exact look_put_self n _ _
  have hfields (f : PlanFields) (hx : Edit.entry n (.fields f) ∈ edits) :
      look n (edits.foldl applyEdit ({}, b)).1.gone =
        (b.entry n).bind fun e => if e.home.same f.toHome then none else some (b.presences e) := by
    obtain ⟨z, hk, hz, hafter⟩ := applyEdits_at hd ({}, b) hx
    have hgone : look n z.1.gone = none := hz.gone
    have hentry : z.2.entry n = b.entry n := hz.entry
    rw [hafter.gone, applyEdit_fields]
    refine (look_goneAfter_self z n f).trans ?_
    rw [hentry, hgone]
    rcases b.entry n with _ | e
    · rfl
    · dsimp only
      rw [presences_congr (b := b) (c := z.2) hk.feeds e]
      rfl
  by_cases hx : ∃ x, Edit.entry n x ∈ edits
  · obtain ⟨x, hx⟩ := hx
    constructor
    · intro h
      cases x with
      | delete =>
        rw [hdelete hx] at h
        obtain ⟨e, he, hp⟩ := Option.map_eq_some_iff.1 h
        exact ⟨e, he, .inl hx, hp.symm⟩
      | fields f =>
        rw [hfields f hx] at h
        obtain ⟨e, he, hp⟩ := Option.bind_eq_some_iff.1 h
        split at hp
        · cases hp
        next hs => exact ⟨e, he, .inr ⟨f, hx, by simpa using hs⟩, (Option.some.inj hp).symm⟩
    · rintro ⟨e, he, hdel | ⟨f, hf, hs⟩, rfl⟩
      · rw [hdelete hdel, he]; rfl
      · rw [hfields f hf, he]
        exact if_neg (by simp [hs])
  · have hx' : ∀ x, Edit.entry n x ∉ edits := fun x h => hx ⟨x, h⟩
    have hnone : look n (edits.foldl applyEdit ({}, b)).1.gone = none := (numberKept_applyEdits edits ({}, b) hx').gone
    rw [hnone]
    refine ⟨fun h => (by cases h), ?_⟩
    rintro ⟨e, he, hdel | ⟨f, hf, -⟩, -⟩
    · exact (hx' _ hdel).elim
    · exact (hx' _ hf).elim

end

theorem mem_iff_look {α : Type} {l : List (Nat × α)} (h : rising l = true) (n : Nat) (v : α) : (n, v) ∈ l ↔ look n l = some v :=
  ⟨look_of_mem h, mem_of_look⟩

/-! ## The withdrawals that are lifted (R53, R74) -/

/-- Only withdrawals have been lifted: every entry keeps the rest, and one that is RETIRING or has no withdrawal keeps all. -/
structure Lifted (b c : Bridge) : Prop where
  rest : ∃ es, c = b.modEntries fun _ => es
  entries : rising b.dir.entries = true → rising c.dir.entries = true
  free : ∀ n, b.entry n = none → c.entry n = none
  used : ∀ n e, b.entry n = some e → ∃ x, c.entry n = some x ∧ { x with withdrawn := e.withdrawn } = e ∧
    ∀ p : Port, x.withdrawn[p] = true → e.withdrawn[p] = true
  settled : rising b.dir.entries = true → ∀ n e, b.entry n = some e → e.state = .retiring ∨ e.withdrawn = PortSet.none →
    c.entry n = some e

namespace Lifted

theorem refl (b : Bridge) : Lifted b b :=
  ⟨⟨b.dir.entries, rfl⟩, id, fun _ => id, fun _ e h => ⟨e, h, rfl, fun _ => id⟩, fun _ _ _ h _ => h⟩

theorem trans {b c d : Bridge} (h : Lifted b c) (k : Lifted c d) : Lifted b d where
  rest := by
    obtain ⟨es, rfl⟩ := h.rest
    obtain ⟨es', rfl⟩ := k.rest
    exact ⟨es', rfl⟩
  entries e := k.entries (h.entries e)
  free n e := k.free n (h.free n e)
  used n e he := by
    obtain ⟨x, hx, hsame, hless⟩ := h.used n e he
    obtain ⟨z, hz, hsame', hless'⟩ := k.used n x hx
    refine ⟨z, hz, ?_, fun p hp => hless p (hless' p hp)⟩
    rw [← hsame, ← hsame']
  settled hr n e he hs := k.settled (h.entries hr) n e (h.settled hr n e he hs) hs

end Lifted

theorem lifted_lift (b : Bridge) (t : Port) (k : Nat) : Lifted b (b.lift t k) := by
  unfold lift
  split
  · split
    next m e hfind =>
      have hmem := List.mem_of_find?_eq_some hfind
      obtain ⟨⟨hstate, -⟩, hw⟩ : (e.state ≠ .retiring ∧ e.visible = some k) ∧ e.withdrawn[t] = true := by
        simpa using List.find?_some hfind
      refine ⟨⟨_, rfl⟩, rising_change m _, fun n hn => ?_, fun n x hx => ?_, fun hr n x hx hs => ?_⟩
      · rw [entry_modEntry, hn]
        split <;> rfl
      · rw [entry_modEntry, hx]
        split
        · exact ⟨_, rfl, rfl, (EntryKept.ofErase x t).withdrawn⟩
        · exact ⟨x, rfl, rfl, fun _ => id⟩
      · rw [entry_modEntry, hx]
        refine if_neg fun hmn => ?_
        subst hmn
        obtain rfl : e = x := Option.some.inj ((look_of_mem hr hmem).symm.trans hx)
        obtain hs | hs := hs
        · exact hstate hs
        · rw [hs] at hw
          simp [PortSet.none] at hw
    next => exact .refl b
  · exact .refl b

theorem lifted_liftGone : ∀ (gone : List (Nat × List (Port × Nat))) (b : Bridge), Lifted b (gone.foldl (fun b x => b.liftAll x.2) b)
  | [], b => .refl b
  | x :: l, b => by
    have hall : ∀ (l : List (Port × Nat)) (b : Bridge), Lifted b (b.liftAll l) := by
      intro l
      induction l with
      | nil => exact Lifted.refl
      | cons x l ih => exact fun b => (lifted_lift b x.1 x.2).trans (ih _)
    exact (hall x.2 b).trans (lifted_liftGone l _)

end Bridge

end Sys2Proof.Machine

/-! # An applied commit as a whole (O21). -/

namespace Sys2Proof.Machine
open Sys2Proof

namespace Bridge

/-! ## Lifting asks for the entries only -/

theorem entries_lift_congr {b c : Bridge} (h : b.dir.entries = c.dir.entries) (t : Port) (k : Nat) :
    (b.lift t k).dir.entries = (c.lift t k).dir.entries := by
  unfold lift
  rw [h]
  split
  · split
    next m e _ => exact congrArg (change m _) h
    next => exact h
  · exact h

theorem entries_liftGone_congr : ∀ (gone : List (Nat × List (Port × Nat))) {b c : Bridge}, b.dir.entries = c.dir.entries →
    (gone.foldl (fun b x => b.liftAll x.2) b).dir.entries = (gone.foldl (fun b x => b.liftAll x.2) c).dir.entries
  | [], _, _, h => h
  | x :: l, b, c, h => by
    have hall : ∀ (l : List (Port × Nat)) {b c : Bridge}, b.dir.entries = c.dir.entries →
        (b.liftAll l).dir.entries = (c.liftAll l).dir.entries := by
      intro l
      induction l with
      | nil => exact fun h => h
      | cons x l ih => exact fun h => ih (entries_lift_congr h x.1 x.2)
    exact entries_liftGone_congr l (hall x.2 h)

/-! ## The stages of an applied commit (R73 to R77) -/

/-- The tally and the bridge once all edits are applied. -/
def edited (b : Bridge) : Tally × Bridge := b.dir.staging.foldl applyEdit ({}, b.stopMoved b.dir.staging)

/-- The bridge once the withdrawals are lifted that the entries gone stood in the way of. -/
def unblocked (b : Bridge) : Bridge := b.edited.1.gone.foldl (fun b x => b.liftAll x.2) b.edited.2

/-- Whether some FIXED entry holds MANAGE (R77). -/
def managed (es : Entries) : Bool := es.any fun x => x.2.state = .fixed && x.2.rights.manage

theorem endSetup_eq (b : Bridge) : b.endSetup = b.modAgent fun a => { a with setup := a.setup && !managed b.dir.entries } := by
  unfold endSetup
  by_cases h : managed b.dir.entries = true
  · simp only [h, Bool.not_true, Bool.and_false]
    exact if_pos h
  · simp only [h, Bool.not_false, Bool.and_true]
    exact if_neg h

theorem applyCommit_eq (b : Bridge) : b.applyCommit = (b.edited.1,
    ((b.unblocked.modDir fun d => { d with staging := [] }).refreshReach).modAgent fun a =>
      { a with setup := a.setup && !managed (b.unblocked.modDir fun d => { d with staging := [] }).refreshReach.dir.entries }) := by
  rw [← endSetup_eq]
  rfl

theorem editsKept_edited (b : Bridge) : EditsKept ({}, b.stopMoved b.dir.staging) b.edited := editsKept_applyEdits _ _

theorem lifted_unblocked (b : Bridge) : Lifted b.edited.2 b.unblocked := lifted_liftGone _ _

theorem reachOf_applyCommit (b : Bridge) (e : Entry) : b.applyCommit.2.reachOf e = b.unblocked.reachOf e := by
  rw [applyCommit_eq]
  exact reachOf_congr e rfl (fun _ => rfl) fun _ => rfl

theorem entries_applyCommit (b : Bridge) :
    b.applyCommit.2.dir.entries = b.unblocked.dir.entries.map fun x => (x.1, { x.2 with reachable := b.applyCommit.2.reachOf x.2 }) := by
  simp only [reachOf_applyCommit]
  rw [applyCommit_eq]
  rfl

theorem entry_applyCommit (b : Bridge) (n : DirNo) :
    b.applyCommit.2.entry n = (b.unblocked.entry n).map fun e => { e with reachable := b.applyCommit.2.reachOf e } := by
  rw [entry, entries_applyCommit]
  exact look_map (fun _ (e : Entry) => ({ e with reachable := b.applyCommit.2.reachOf e } : Entry)) n _

theorem printer_unblocked (b : Bridge) (n : DirNo) : b.unblocked.printer n = b.edited.2.printer n := by
  obtain ⟨es, h⟩ := b.lifted_unblocked.rest
  rw [h]
  rfl

theorem pair_applyCommit (b : Bridge) : b.applyCommit.2.pair = b.edited.2.pair := by
  obtain ⟨es, h⟩ := b.lifted_unblocked.rest
  rw [applyCommit_eq, h]
  rfl

theorem lp_applyCommit (b : Bridge) (l : Lp) : b.applyCommit.2.lp l = b.edited.2.lp l := by
  obtain ⟨es, h⟩ := b.lifted_unblocked.rest
  rw [applyCommit_eq, h]
  rfl

/-- The recomputed reach starts or stops the poll timer of a printer, and makes or removes no record (R59). -/
theorem printer_applyCommit (b : Bridge) (n : DirNo) :
    (b.edited.2.printer n = none → b.applyCommit.2.printer n = none) ∧
    (b.edited.2.printer n = some {} → b.applyCommit.2.printer n = some {}) ∧
    (∀ r, b.edited.2.printer n = some r → ∃ x, b.applyCommit.2.printer n = some x) := by
  have h : b.applyCommit.2.printer n = _ :=
    (congrArg (fun c : Tally × Bridge => c.2.printer n) b.applyCommit_eq).trans
      (printer_refreshReach_eq (b.unblocked.modDir fun d => { d with staging := [] }) n)
  have hp : (b.unblocked.modDir fun d => { d with staging := [] }).printer n = b.edited.2.printer n := b.printer_unblocked n
  rw [h, hp]
  refine ⟨fun hn => by rw [hn]; rfl, fun hn => ?_, fun r hr => by rw [hr]; exact ⟨_, rfl⟩⟩
  rw [hn, Option.map_some]
  split
  · simp
  · rfl

theorem settings_applyCommit (b : Bridge) : b.applyCommit.2.settings = b.settings := by
  obtain ⟨es, h⟩ := b.lifted_unblocked.rest
  have hedited : b.edited.2.settings = b.settings := b.editsKept_edited.settings.trans (b.kept_stopMoved _).settings
  have hunblocked : b.unblocked.settings = b.settings := h ▸ hedited
  simp only [applyCommit_eq, refreshReach, modEntries, settings_modAgent, settings_modDir, settings_modDelivery, hunblocked]

theorem ctl_applyCommit (b : Bridge) : b.applyCommit.2.ctl = b.ctl := by
  obtain ⟨es, h⟩ := b.lifted_unblocked.rest
  have hedited : b.edited.2.ctl = b.ctl := b.editsKept_edited.ctl.trans (b.kept_stopMoved _).ctl
  have hunblocked : b.unblocked.ctl = b.ctl := h ▸ hedited
  simp only [applyCommit_eq, refreshReach, modEntries, ctl_modAgent, ctl_modDir, ctl_modDelivery, hunblocked]

theorem setup_applyCommit (b : Bridge) :
    b.applyCommit.2.agent.setup = (b.agent.setup && !managed b.applyCommit.2.dir.entries) := by
  obtain ⟨es, h⟩ := b.lifted_unblocked.rest
  have ha : b.unblocked.agent = b.agent := by
    rw [h]
    exact b.editsKept_edited.agent.trans (b.kept_stopMoved _).agent
  rw [applyCommit_eq]
  exact congrArg (fun a : Agent => a.setup && _) ha

theorem managed_iff {es : Entries} : managed es = true ↔ ∃ x ∈ es, x.2.state = .fixed ∧ x.2.rights.manage = true := by
  simp [managed]

/-! ## The entries after a commit, by their edit -/

theorem lowerPaired_congr {b c : Bridge} (h : c.feeds = b.feeds) : c.lowerPaired = b.lowerPaired := by
  have hf (i : PairNo) : c.feed i = b.feed i := congrArg (fun x : Vector Feed 2 => x[i]) h
  funext p
  rw [lowerPaired, lowerPaired, paired, paired, hf]

theorem withdrawn_eq_none {w : PortSet} (h : ∀ p : Port, w[p] = true → PortSet.none[p] = true) : w = PortSet.none := by
  have hn (p : Port) : PortSet.none[p] = false := by simp [PortSet.none]
  refine Vector.ext fun i hi => ?_
  have hp : w[i] = false := Bool.eq_false_iff.2 fun hw => absurd (h ⟨i, hi⟩ hw) (by rw [hn]; decide)
  exact hp.trans (hn ⟨i, hi⟩).symm

/-- An entry without withdrawals is left by the lifts as it is. -/
theorem entry_unblocked_shown {b : Bridge} {n : DirNo} {e : Entry} (h : b.edited.2.entry n = some e) (hw : e.withdrawn = PortSet.none) :
    b.unblocked.entry n = some e := by
  obtain ⟨x, hx, hsame, hless⟩ := b.lifted_unblocked.used n e h
  rw [hx]
  have hxw : x.withdrawn = e.withdrawn := (withdrawn_eq_none fun p hp => hw ▸ hless p hp).trans hw.symm
  refine congrArg some (Eq.trans ?_ hsame)
  rw [← hxw]

section
variable {b : Bridge} (hd : b.dir.staging.Pairwise fun x y => x.sameItem y = false) {n : DirNo}
include hd

theorem entry_edited_fields {f : PlanFields} (hf : Edit.entry n (.fields f) ∈ b.dir.staging) :
    b.edited.2.entry n = some (writeEntry b.lowerPaired ((b.stopMoved b.dir.staging).entry n) f) := by
  obtain ⟨z, hk, hz, hafter⟩ := applyEdits_at hd ({}, b.stopMoved b.dir.staging) hf
  have hl : z.2.lowerPaired = b.lowerPaired := lowerPaired_congr (hk.feeds.trans (b.kept_stopMoved _).feeds)
  refine hafter.entry.trans ?_
  rw [applyEdit_fields, hl, show z.2.entry n = (b.stopMoved b.dir.staging).entry n from hz.entry]
  exact look_put_self n _ _

theorem printer_edited_fields {f : PlanFields} (hf : Edit.entry n (.fields f) ∈ b.dir.staging) :
    b.edited.2.printer n = if f.kind = .printer then some (((b.stopMoved b.dir.staging).printer n).getD {}) else none := by
  obtain ⟨z, -, hz, hafter⟩ := applyEdits_at hd ({}, b.stopMoved b.dir.staging) hf
  refine hafter.printer.trans ?_
  rw [applyEdit_fields, printer_followPrinter_self]
  rw [show (z.2.modEntries _).printer n = (b.stopMoved b.dir.staging).printer n from hz.printer]

theorem edited_delete_free (hx : Edit.entry n .delete ∈ b.dir.staging) (he : (b.stopMoved b.dir.staging).entry n = none) :
    b.edited.2.entry n = none := by
  obtain ⟨z, -, hz, hafter⟩ := applyEdits_at hd ({}, b.stopMoved b.dir.staging) hx
  refine hafter.entry.trans ?_
  rw [applyEdit_delete_free z n (hz.entry.trans he)]
  exact hz.entry.trans he

variable {e : Entry} (hx : Edit.entry n .delete ∈ b.dir.staging) (he : (b.stopMoved b.dir.staging).entry n = some e)
include hx he

theorem edited_delete_freed (hp : e.pins = 0) :
    b.edited.2.entry n = none ∧ b.edited.2.printer n = none ∧ ∀ r ∈ b.edited.2.pair.repeats, r.asker ≠ n := by
  obtain ⟨z, -, hz, hafter⟩ := applyEdits_at hd ({}, b.stopMoved b.dir.staging) hx
  rw [applyEdit_delete_freed z n (hz.entry.trans he) hp] at hafter
  refine ⟨hafter.entry.trans (z.2.entry_freeQuiet_self n), hafter.printer.trans (z.2.printer_freeQuiet_self n),
    hafter.repeats fun r hr => ?_⟩
  simpa using (List.mem_filter.1 hr).2

theorem edited_delete_pinned (hp : e.pins ≠ 0) :
    b.edited.2.entry n = some { e with state := .retiring, rights := {} } := by
  obtain ⟨z, -, hz, hafter⟩ := applyEdits_at hd ({}, b.stopMoved b.dir.staging) hx
  rw [applyEdit_delete_pinned z n (hz.entry.trans he) hp] at hafter
  refine hafter.entry.trans ?_
  refine (z.2.entry_modEntry_self n _).trans ?_
  rw [hz.entry.trans he]
  rfl

end

theorem entry_edited_unnamed {b : Bridge} {n : DirNo} (h : ∀ x, Edit.entry n x ∉ b.dir.staging) :
    b.edited.2.entry n = (b.stopMoved b.dir.staging).entry n := (numberKept_applyEdits _ _ h).entry

end Bridge

end Sys2Proof.Machine

/-! # The plan that an applied commit writes (O21). -/

namespace Sys2Proof.Machine
open Sys2Proof

/-! ## What a field edit writes of the end and of the bridge sequence bit (R73) -/

section
variable {lowerPaired : Port → Bool} {o : Option Entry} {f : PlanFields} {p : Port} {k : Nat} (hh : f.toHome = .seg p k)
include hh

theorem writeEntry_end_kept (hl : lowerPaired p = true) {old : Entry} {q : Nat} (ho : o = some old) (hp : old.home = .seg p q)
    (he : old.endField ≠ none) : (writeEntry lowerPaired o f).endField = old.endField := by
  obtain ⟨x, hx⟩ := Option.ne_none_iff_exists'.1 he
  simp [writeEntry, hh, writtenEnd, hl, ho, hp, Home.port?, hx]

theorem writeEntry_end_unknown (hl : lowerPaired p = true) (h : ∀ old q, o = some old → old.home ≠ .seg p q) :
    (writeEntry lowerPaired o f).endField = some .unknown := by
  have hnone : (o.bind fun e => if e.home.port? = some p then e.endField else none) = none := by
    rcases o with _ | old
    · rfl
    · refine if_neg fun hp => ?_
      cases hhome : old.home with
      | seg q n =>
        rw [hhome] at hp
        obtain rfl : q = p := Option.some.inj hp
        exact h old n rfl hhome
      | pair m r => rw [hhome] at hp; cases hp
      | internal => rw [hhome] at hp; cases hp
  simp [writeEntry, hh, writtenEnd, hl, hnone]

theorem writeEntry_end_none (hl : lowerPaired p = false) : (writeEntry lowerPaired o f).endField = none := by
  simp [writeEntry, hh, writtenEnd, hl]

theorem writeEntry_bit_kept {old : Entry} (ho : o = some old) (hp : old.home = .seg p k) :
    (writeEntry lowerPaired o f).bridgeBit = old.bridgeBit := by
  simp [writeEntry, hh, ho, (Home.same_seg _ p k).2 hp]

theorem writeEntry_bit_clear (h : ∀ old, o = some old → old.home ≠ .seg p k) : (writeEntry lowerPaired o f).bridgeBit = false := by
  rcases o with _ | old
  · simp [writeEntry, hh]
  · have hs : old.home.same (.seg p k) = false := Bool.eq_false_iff.2 fun hs => h old rfl ((Home.same_seg _ p k).1 hs)
    simp [writeEntry, hh, hs]

end

namespace Bridge

theorem lowerPaired_even {b : Bridge} {p : Port} (hp : b.paired p = true) (he : p.val % 2 = 0) : b.lowerPaired p = true := by
  have hlower : ∀ q : Port, q.val % 2 = 0 → q = lowerOf (pairOf q) := by decide
  have hl := hlower p he
  rw [lowerPaired, hp, decide_eq_true hl]
  rfl

theorem lowerPaired_unpaired {b : Bridge} {p : Port} (hp : b.paired p = false) : b.lowerPaired p = false := by
  rw [lowerPaired, hp]
  rfl

section
variable {b : Bridge} (hd : b.dir.staging.Pairwise fun x y => x.sameItem y = false) {n : DirNo}

section
include hd

theorem entry_applyCommit_fields {f : PlanFields} (hf : Edit.entry n (.fields f) ∈ b.dir.staging) :
    ∃ r, b.applyCommit.2.entry n =
      some { writeEntry b.lowerPaired ((b.stopMoved b.dir.staging).entry n) f with reachable := r } := by
  rw [entry_applyCommit, entry_unblocked_shown (entry_edited_fields hd hf) rfl]
  exact ⟨_, rfl⟩

theorem printer_applyCommit_fields {f : PlanFields} (hf : Edit.entry n (.fields f) ∈ b.dir.staging) :
    (f.kind = .printer → ∃ r, b.applyCommit.2.printer n = some r ∧ ((b.stopMoved b.dir.staging).printer n = none → r = {})) ∧
    (f.kind ≠ .printer → b.applyCommit.2.printer n = none) := by
  obtain ⟨hnone, hfresh, hkept⟩ := b.printer_applyCommit n
  have hp := printer_edited_fields hd hf
  refine ⟨fun hk => ?_, fun hk => hnone (hp.trans (if_neg hk))⟩
  rw [if_pos hk] at hp
  rcases hold : (b.stopMoved b.dir.staging).printer n with _ | r
  · rw [hold] at hp
    exact ⟨{}, hfresh hp, fun _ => rfl⟩
  · obtain ⟨x, hx⟩ := hkept _ hp
    exact ⟨x, hx, fun h => by cases h⟩

theorem applyCommit_delete {e : Entry} (hx : Edit.entry n .delete ∈ b.dir.staging) (he : (b.stopMoved b.dir.staging).entry n = some e) :
    (e.pins = 0 → b.applyCommit.2.entry n = none ∧ b.applyCommit.2.printer n = none ∧
      ∀ r ∈ b.applyCommit.2.pair.repeats, r.asker ≠ n) ∧
    (e.pins ≠ 0 → ∃ x, b.applyCommit.2.entry n = some x ∧ x.state = .retiring ∧ x.rights = {} ∧ x.kind = e.kind ∧
      x.home = e.home ∧ x.pins = e.pins) := by
  refine ⟨fun hp => ?_, fun hp => ?_⟩
  · obtain ⟨hentry, hprinter, hrepeats⟩ := edited_delete_freed hd hx he hp
    refine ⟨?_, (b.printer_applyCommit n).1 hprinter, ?_⟩
    · rw [entry_applyCommit, b.lifted_unblocked.free n hentry]
      rfl
    · rwa [pair_applyCommit]
  · obtain ⟨x, hxn, hsame, -⟩ := b.lifted_unblocked.used n _ (edited_delete_pinned hd hx he hp)
    rw [entry_applyCommit, hxn]
    exact ⟨_, rfl, congrArg (·.state) hsame, congrArg (·.rights) hsame, congrArg (·.kind) hsame, congrArg (·.home) hsame,
      congrArg (·.pins) hsame⟩

end

theorem applyCommit_unnamed (h : ∀ x, Edit.entry n x ∉ b.dir.staging) :
    ((b.stopMoved b.dir.staging).entry n = none → b.applyCommit.2.entry n = none) ∧
    (∀ e, (b.stopMoved b.dir.staging).entry n = some e → ∃ x, b.applyCommit.2.entry n = some x ∧
      { x with reachable := e.reachable, withdrawn := e.withdrawn } = e ∧
      ∀ p : Port, x.withdrawn[p] = true → e.withdrawn[p] = true) := by
  have hn := entry_edited_unnamed h
  refine ⟨fun he => ?_, fun e he => ?_⟩
  · rw [entry_applyCommit, b.lifted_unblocked.free n (hn.trans he)]
    rfl
  · obtain ⟨x, hx, hsame, hless⟩ := b.lifted_unblocked.used n e (hn.trans he)
    rw [entry_applyCommit, hx]
    refine ⟨_, rfl, ?_, hless⟩
    rw [← hsame]

theorem reach_applyCommit {e : Entry} (h : b.applyCommit.2.entry n = some e) : e.reachable = b.applyCommit.2.reachOf e := by
  rw [entry_applyCommit] at h
  obtain ⟨x, -, rfl⟩ := Option.map_eq_some_iff.1 h
  rfl

/-- The entries that edits name stand in the written directory as they stand after the commit, but for their reach. -/
theorem entry_written (hd : b.dir.staging.Pairwise fun x y => x.sameItem y = false) (hr : rising b.edited.2.dir.entries = true)
    {x : EntryEdit} (hx : Edit.entry n x ∈ b.dir.staging) :
    (b.edited.2.entry n).map (fun e => { e with reachable := false }) =
      (b.applyCommit.2.entry n).map fun e => { e with reachable := false } := by
  have hsettled (e : Entry) (he : b.edited.2.entry n = some e) (hs : e.state = .retiring ∨ e.withdrawn = PortSet.none) :
      (b.edited.2.entry n).map (fun e => { e with reachable := false }) =
        (b.applyCommit.2.entry n).map fun e => { e with reachable := false } := by
    rw [entry_applyCommit, b.lifted_unblocked.settled hr n e he hs, he]
    rfl
  have hgone (he : b.edited.2.entry n = none) :
      (b.edited.2.entry n).map (fun e => { e with reachable := false }) =
        (b.applyCommit.2.entry n).map fun e => { e with reachable := false } := by
    rw [entry_applyCommit, b.lifted_unblocked.free n he, he]
    rfl
  cases x with
  | fields f => exact hsettled _ (entry_edited_fields hd hx) (.inr rfl)
  | delete =>
    rcases he : (b.stopMoved b.dir.staging).entry n with _ | e
    · exact hgone (edited_delete_free hd hx he)
    · by_cases hp : e.pins = 0
      · exact hgone (edited_delete_freed hd hx he hp).1
      · exact hsettled _ (edited_delete_pinned hd hx he hp) (.inl rfl)

end

end Bridge

/-- Settles O21: what an applied commit stops, writes, counts and lifts, item by item. -/
theorem appliedCommitWritesThePlan : Obligations.AppliedCommitWritesThePlan := by
  refine ⟨fun b hd => ?_, fun b edits => b.stopMoved_eq edits, fun b l => rfl, Home.same_iff⟩
  intro edits b0 c
  have hfeeds : b0.feeds = b.feeds := (b.kept_stopMoved edits).feeds
  refine ⟨Bridge.stopMoved_idle, fun n f hf => ?_, fun n e hx he => Bridge.applyCommit_delete hd hx he,
    fun n h => Bridge.applyCommit_unnamed h, fun n e he => Bridge.reach_applyCommit he, fun l x hx => ?_, fun l h => ?_, ?_, ?_,
    fun h => ?_, fun h => ?_, b.settings_applyCommit, b.ctl_applyCommit, fun hr => ?_⟩
  · obtain ⟨r, hc⟩ := Bridge.entry_applyCommit_fields hd hf
    obtain ⟨hprinter, hother⟩ := Bridge.printer_applyCommit_fields hd hf
    refine ⟨_, hc, rfl, rfl, rfl, rfl, rfl, rfl, rfl, rfl, rfl, fun p k hh => ⟨fun hp he => ⟨fun o q ho hq hne => ?_, fun h => ?_⟩,
      fun hp => ?_, fun o ho hq => ?_, fun h => ?_⟩, hprinter, hother⟩
    · exact writeEntry_end_kept hh (Bridge.lowerPaired_even hp he) ho hq hne
    · exact writeEntry_end_unknown hh (Bridge.lowerPaired_even hp he) h
    · exact writeEntry_end_none hh (Bridge.lowerPaired_unpaired hp)
    · exact writeEntry_bit_kept (lowerPaired := b.lowerPaired) hh ho hq
    · exact writeEntry_bit_clear (lowerPaired := b.lowerPaired) hh h
  · have hlp : c.lp l = _ := (b.lp_applyCommit l).trans (Bridge.lp_applyEdits_at hd ({}, b0) hx)
    rw [hlp]
    exact ⟨rfl, rfl⟩
  · exact (b.lp_applyCommit l).trans (Bridge.lp_applyEdits edits ({}, b0) h)
  · rw [b.applyCommit_eq]
    refine ((Bridge.counts_applyEdits edits ({}, b0) hd).1.trans (Nat.zero_add _)).trans ?_
    exact congrArg (fun q : Edit → Bool => (edits.filter q).length) (funext fun x => by rcases x with ⟨n, _ | f⟩ | _ <;> rfl)
  · rw [b.applyCommit_eq]
    refine ((Bridge.counts_applyEdits edits ({}, b0) hd).2.trans (Nat.zero_add _)).trans ?_
    exact congrArg (fun q : Edit → Bool => (edits.filter q).length) (funext fun x => by rcases x with ⟨n, _ | f⟩ | _ <;> rfl)
  · rw [b.setup_applyCommit, Bridge.managed_iff.2 h]
    exact Bool.and_false _
  · have hm : Bridge.managed c.dir.entries = false := by
      refine Bool.eq_false_iff.2 fun hm => ?_
      obtain ⟨x, hx, hs, hright⟩ := Bridge.managed_iff.1 hm
      exact Bool.false_ne_true ((h x hx hs).symm.trans hright)
    rw [b.setup_applyCommit, hm]
    exact Bool.and_true _
  · have hrising : rising b.edited.2.dir.entries = true := b.editsKept_edited.entries (Bridge.rising_stopMoved edits hr)
    have hgone : rising b.edited.1.gone = true := b.editsKept_edited.gone rfl
    refine ⟨b.edited.2.dir.entries, b.edited.1.gone, hrising, hgone, fun n h => Bridge.entry_edited_unnamed h,
      fun n x hx => Bridge.entry_written hd hrising hx, fun n places => ?_, ?_⟩
    · rw [Bridge.mem_iff_look hgone]
      refine (Bridge.gone_applyEdits hd b0 n places).trans ?_
      simp only [Bridge.presences_congr (b := b) (c := b0) hfeeds]
      rfl
    · have hlifts := Bridge.entries_liftGone_congr b.edited.1.gone (b := b.edited.2) (c := b0.modEntries fun _ => b.edited.2.dir.entries)
        rfl
      exact b.entries_applyCommit.trans (congrArg (List.map _) hlifts)

end Sys2Proof.Machine

/-! # When a plan is refused, and what one that passes obeys (O47). -/

namespace Sys2Proof.Machine
open Sys2Proof

/-! ## The checks in their order (R71, R72) -/

theorem findSome_cons_orElse {α β : Type} (f : α → Option β) (x y : α) (l : List α) :
    (x :: y :: l).findSome? f = (f x <|> (y :: l).findSome? f) := by
  rw [List.findSome?_cons]
  cases f x <;> rfl

/-- The first failure of a plan is that of the first check it fails. -/
theorem check_eq_findSome (segments : List Port) (t : Plan) :
    t.check segments = (List.range' 1 7).findSome? (planCheck segments t) := by
  rw [check_eq_planChecks]
  change _ = [1, 2, 3, 4, 5, 6, 7].findSome? (planCheck segments t)
  simp only [findSome_cons_orElse, List.findSome?_singleton]

/-- There are the checks 1 to 7 and no others. -/
theorem passesCheck_outside (segments : List Port) (t : Plan) : ∀ {k : Nat}, k < 1 ∨ 8 ≤ k → PassesCheck segments t k
  | 0, _ => trivial
  | _ + 8, _ => trivial

theorem failsFirst_number {segments : List Port} {t : Plan} {f : CheckFailure} :
    ∀ {k : Nat}, FailsFirst segments t f k → 1 ≤ k ∧ k < 8
  | 0, h => h.elim
  | 1, _ | 2, _ | 3, _ | 4, _ | 5, _ | 6, _ | 7, _ => by omega
  | _ + 8, h => h.elim

theorem check_none_iff (segments : List Port) (t : Plan) : t.check segments = none ↔ ∀ k, PassesCheck segments t k := by
  simp only [check_eq_findSome, findSome_range_none, planCheck_none]
  refine ⟨fun h k => ?_, fun h k _ _ => h k⟩
  by_cases hk : k < 1 ∨ 8 ≤ k
  · exact passesCheck_outside segments t hk
  · exact h k (by omega) (by omega)

theorem check_some_iff (segments : List Port) (t : Plan) (f : CheckFailure) :
    t.check segments = some f ↔ (∀ k < f.check, PassesCheck segments t k) ∧ FailsFirst segments t f f.check := by
  simp only [check_eq_findSome, findSome_range_some, planCheck_none, planCheck_some]
  constructor
  · rintro ⟨n, -, -, hf, hbefore⟩
    rw [check_of_failsFirst segments t f n hf]
    refine ⟨fun k hk => ?_, hf⟩
    by_cases h0 : k < 1
    · exact passesCheck_outside segments t (.inl h0)
    · exact hbefore k (by omega) hk
  · rintro ⟨hbefore, hf⟩
    obtain ⟨h1, h8⟩ := failsFirst_number hf
    exact ⟨f.check, h1, h8, hf, fun k _ hk => hbefore k hk⟩

/-! ## What a plan that passes obeys -/

section
variable {segments : List Port} {t : Plan}

/-- On a segment a number names one entry (C1). -/
theorem one_present_of_passes (h : PassesCheck segments t 1) {g : Port} (hg : g ∈ segments) {n : Nat} (h1 : 1 ≤ n) (h254 : n ≤ 254)
    {x y : Nat × Entry} (hx : x ∈ t.entries) (hy : y ∈ t.entries) (hpx : presentUnder x.2 g n = true)
    (hpy : presentUnder y.2 g n = true) : x = y := by
  by_contra hne
  have : Std.Symm fun x y : Nat × Entry => ¬ ClashC1 g n x y := ⟨fun x y hxy => by
    rw [clashC1_iff, and_comm, ← clashC1_iff]
    exact hxy⟩
  exact (h g hg n h1 h254).forall hx hy hne ((clashC1_iff x y g n).2 ⟨hpx, hpy⟩)

/-- What the checks of single entries ask of one that is not RETIRING (C2, C3, C7). -/
theorem entry_of_passes (h : ∀ k, PassesCheck segments t k) {x : Nat × Entry} (hx : x ∈ t.entries) (hs : x.2.state ≠ .retiring) :
    (x.2.visible.isSome = true ↔ x.2.shown ≠ PortSet.none) ∧ (∀ p n, x.2.home = .seg p n → x.2.shown[p] = false) ∧
      (x.2.state ≠ .fixed → x.2.rights = {}) := by
  refine ⟨?_, fun p n hp => ?_, fun hf => ?_⟩
  · by_contra hbad
    exact h 2 x hx ⟨hs, hbad⟩
  · refine Bool.eq_false_iff.2 fun hshown => ?_
    exact h 3 x hx ⟨hs, p, n, hp, hshown⟩
  · by_contra hrights
    exact h 7 x hx ⟨hs, hf, hrights⟩

/-- A PRINTER is FIXED and has no visible number (C5). -/
theorem printer_of_passes (h : PassesCheck segments t 5) {n : DirNo} {e : Entry} (h1 : 1 ≤ n) (h384 : n ≤ 384)
    (he : look n t.entries = some e) (hs : e.state ≠ .retiring) (hk : e.kind = .printer) : e.state = .fixed ∧ e.visible = none := by
  have good : ¬ (e.state = .learned ∨ e.visible ≠ none) := fun hbad => (h n h1 h384).1 ⟨e, he, hs, hk, hbad⟩
  obtain ⟨hl, hv⟩ := not_or.1 good
  refine ⟨?_, not_not.1 hv⟩
  cases hst : e.state with
  | learned => exact absurd hst hl
  | fixed => rfl
  | retiring => exact absurd hst hs

/-- A binding without a bad number names FIXED PRINTERs, an alternate beside another primary only (C5). -/
theorem binding_of_no_badNumber {b : Binding} (h : ∀ m, ¬ BadNumber t b m) :
    (∀ n, b.primary = some n ∨ b.alternate = some n → PrinterAt t n) ∧
      (b.alternate ≠ none → b.primary ≠ none ∧ b.primary ≠ b.alternate) := by
  have hprimary {p : DirNo} (hp : b.primary = some p) : PrinterAt t p := by
    by_contra hbad
    exact h p (.inl ⟨hp, hbad⟩)
  have halternate {m : DirNo} (hm : b.alternate = some m) : ∃ p, b.primary = some p ∧ PrinterAt t m ∧ m ≠ p := by
    cases hp : b.primary with
    | none => exact absurd (.inr ⟨hm, .inl hp⟩) (h m)
    | some p =>
      have good : ¬ (¬ PrinterAt t m ∨ m = p) := fun hbad => h m (.inr ⟨hm, .inr ⟨p, hp, hprimary hp, hbad⟩⟩)
      exact ⟨p, rfl, not_not.1 (not_or.1 good).1, (not_or.1 good).2⟩
  refine ⟨fun n hn => hn.elim hprimary fun hm => ?_, fun hne => ?_⟩
  · obtain ⟨-, -, hprinter, -⟩ := halternate hm
    exact hprinter
  · obtain ⟨m, hm⟩ := Option.ne_none_iff_exists'.1 hne
    obtain ⟨p, hp, -, hmp⟩ := halternate hm
    rw [hp, hm]
    exact ⟨Option.some_ne_none p, fun heq => hmp (Option.some.inj heq).symm⟩

/-- No two entries share a home number, but for RETIRING ones, or a MAC (C4). -/
theorem homes_of_passes (h : PassesCheck segments t 4) : t.entries.Pairwise (fun x y =>
    (∀ p m, x.2.home = .seg p m → y.2.home = .seg p m → x.2.state = .retiring ∨ y.2.state = .retiring) ∧
    (∀ m o o', ¬ (x.2.home = .pair m o ∧ y.2.home = .pair m o'))) := by
  refine List.Pairwise.imp (fun {x y} hxy => ⟨fun p m hx hy => ?_, fun m o o' hm => hxy (.inr ⟨m, o, o', hm⟩)⟩) h
  by_contra hboth
  obtain ⟨hsx, hsy⟩ := not_or.1 hboth
  exact hxy (.inl ⟨p, m, hx, hy, hsx, hsy⟩)

end

/-- Settles O47. -/
theorem checkedPlansObeyTheLaws : Obligations.CheckedPlansObeyTheLaws := by
  refine ⟨check_none_iff, check_some_iff, fun segments t ht => ?_⟩
  have h := (check_none_iff segments t).1 ht
  have good5 : ∀ n : Nat, 1 ≤ n → n ≤ 384 → GoodC5 t n := h 5
  have good6 : ∀ n : Nat, 1 ≤ n → n ≤ 384 → GoodC6 t n := h 6
  refine ⟨fun g hg n h1 h254 x hx y hy => one_present_of_passes (h 1) hg h1 h254 hx hy, fun x hx hs => entry_of_passes h hx hs,
    fun n e h1 h384 he hs hk => printer_of_passes (h 5) h1 h384 he hs hk, fun l => ?_, ?_, fun n h2 h9 => ?_, fun n e h10 h384 => ?_,
    homes_of_passes (h 4)⟩
  · obtain ⟨-, hbinding⟩ := good5 (l.val + 2) (by omega) (by omega)
    exact binding_of_no_badNumber (hbinding l rfl)
  · obtain ⟨hfirst, -, -⟩ := good6 1 (by omega) (by omega)
    exact hfirst rfl
  · obtain ⟨-, hspool, -⟩ := good6 n (by omega) (by omega)
    exact hspool h2 h9
  · obtain ⟨-, -, hother⟩ := good6 n (by omega) h384
    exact hother h10 e

end Sys2Proof.Machine

/-! # Edits are staged and discarded (O44). -/

namespace Sys2Proof.Machine
open Sys2Proof

/-! ## A request that its requester may make (R181) -/

/-- A request that has nothing to do after its answer leaves the answered state of its own effect. -/
theorem manage_plain (s : State) (a : Asker) (r : ManageReq) (ht : s.takesTraffic) (hm : s.bridge.mayManage a = true)
    {res : Result} {body : AnswerBody} {c : Bridge} (h : s.bridge.carryOut r = Bridge.plain (res, body, c)) :
    s.manage a r = .next (s.answered a r.code r.selector res body c) := by
  rw [s.manage_run a r ht, Bridge.request, Bridge.takeManage, if_pos hm]
  simp only [h]
  rfl

section
variable (s : State) (a : Asker) (sel : Nat) (ht : s.takesTraffic) (hm : s.bridge.mayManage a = true)
  {res : Result} {body : AnswerBody} {c : Bridge}
include ht hm

theorem exec_editEntry {e : EntryEdit} (h : s.bridge.editEntry sel e = (res, body, c)) :
    exec (.editEntry a sel e) s = .next (s.answered a 5 sel res body c) :=
  manage_plain s a (.editEntry sel e) ht hm (congrArg Bridge.plain h)

theorem exec_editPrinter {y : Binding} (h : s.bridge.editPrinter sel y = (res, body, c)) :
    exec (.editPrinter a sel y) s = .next (s.answered a 6 sel res body c) :=
  manage_plain s a (.editPrinter sel y) ht hm (congrArg Bridge.plain h)

theorem exec_discardEdits :
    exec (.discardEdits a) s = .next (s.answered a 7 0 .ok (.discarded s.bridge.dir.staging.length)
      (s.bridge.modDir fun d => { d with staging := [] })) :=
  manage_plain s a .discardEdits ht hm rfl

end

/-! ## The staging area (R66) -/

theorem sameItem_entry (n m : DirNo) (x y : EntryEdit) : (Edit.entry n x).sameItem (.entry m y) = true ↔ n = m := by
  simp [Edit.sameItem]

theorem sameItem_printer (n m : DirNo) (x y : Binding) : (Edit.printer n x).sameItem (.printer m y) = true ↔ n = m := by
  simp [Edit.sameItem]

theorem stageEdit_new (x : Edit) : ∀ l : List Edit, (∀ y ∈ l, x.sameItem y = false) → stageEdit x l = l ++ [x]
  | [], _ => rfl
  | y :: l, h => by
    rw [stageEdit, h y List.mem_cons_self, stageEdit_new x l fun z hz => h z (List.mem_cons_of_mem _ hz)]
    rfl

theorem stageEdit_replaces {x y : Edit} (back : List Edit) (hy : x.sameItem y = true) :
    ∀ front : List Edit, (∀ z ∈ front, x.sameItem z = false) → stageEdit x (front ++ y :: back) = front ++ x :: back
  | [], _ => by rw [List.nil_append, stageEdit, if_pos hy, List.nil_append]
  | z :: front, h => by
    rw [List.cons_append, stageEdit, h z List.mem_cons_self,
      stageEdit_replaces back hy front fun w hw => h w (List.mem_cons_of_mem _ hw)]
    rfl

namespace Bridge

theorem stage_room (b : Bridge) (x : Edit) (h : b.dir.staging.any x.sameItem = true ∨ b.dir.staging.length < 32) :
    b.stage x = (.ok, .staged (stageEdit x b.dir.staging).length (b.dir.staging.any x.sameItem),
      b.modDir fun d => { d with staging := stageEdit x d.staging }) := by
  have room : (!b.dir.staging.any x.sameItem && decide (Config.stagingSize ≤ b.dir.staging.length)) = false := by
    rcases h with h | h
    · rw [h]; rfl
    · rw [decide_eq_false (Nat.not_le.2 h), Bool.and_false]
  rw [stage, room]
  rfl

theorem stage_full (b : Bridge) (x : Edit) (h : b.dir.staging.any x.sameItem = false) (hl : 32 ≤ b.dir.staging.length) :
    b.stage x = (.full, .none, b) := by
  rw [stage, h, decide_eq_true hl]
  rfl

end Bridge

/-- What is answered to a request that stages an edit (R66). -/
theorem manage_stage (s : State) (a : Asker) (r : ManageReq) (ht : s.takesTraffic) (hm : s.bridge.mayManage a = true) (x : Edit)
    (h : s.bridge.carryOut r = Bridge.plain (s.bridge.stage x)) :
    let old := s.bridge.dir.staging
    (old.any x.sameItem = true ∨ old.length < 32 →
      s.manage a r = .next (s.answered a r.code r.selector .ok (.staged (stageEdit x old).length (old.any x.sameItem))
        (s.bridge.modDir fun d => { d with staging := stageEdit x old }))) ∧
    (old.any x.sameItem = false → 32 ≤ old.length →
      s.manage a r = .next (s.answered a r.code r.selector .full .none s.bridge)) := by
  refine ⟨fun hroom => manage_plain s a r ht hm ?_, fun hnew hfull => manage_plain s a r ht hm ?_⟩
  · rw [h, s.bridge.stage_room x hroom]
    rfl
  · rw [h, s.bridge.stage_full x hnew hfull]

/-! ## The form of an edit (R67, R68) -/

/-- The home that a field edit names is this one, whatever the order of an entry homed on PAIR (R67). -/
def namesHome (f : PlanFields) (h : Home) : Prop :=
  match f.home with
  | .port p => h = .seg p (f.number.getD 0)
  | .pair => ∃ o, h = .pair (f.mac.getD 0) o
  | .internal => h = .internal

theorem same_toHome_iff (f : PlanFields) (h : Home) : h.same f.toHome = true ↔ namesHome f h := by
  unfold namesHome PlanFields.toHome
  cases f.home with
  | port p => exact Home.same_seg h p _
  | pair => cases h <;> simp [Home.same]
  | internal => cases h <;> simp [Home.same]

theorem learnedAsEdited_iff (o : Option Entry) (f : PlanFields) :
    learnedAsEdited o f = true ↔ ∃ e, o = some e ∧ e.state = .learned ∧ e.kind = f.kind ∧ namesHome f e.home := by
  simp [learnedAsEdited, Option.any_eq_true, same_toHome_iff, and_assoc]

/-- The fields of an edit are in range, and those its home needs are there and no others (R67). -/
theorem planFields_ok_iff (f : PlanFields) : f.ok = true ↔ (∀ n, f.visible = some n → 1 ≤ n ∧ n ≤ 254) ∧
    match f.home with
    | .port _ => (∃ n, f.number = some n ∧ 1 ≤ n ∧ n ≤ 254) ∧ f.mac = none ∧ f.order = none
    | .pair => f.number = none ∧ (∃ m, f.mac = some m ∧ m.getLsbD 40 = false) ∧ f.order ≠ none
    | .internal => f.number = none ∧ f.mac = none ∧ f.order = none := by
  unfold PlanFields.ok
  cases f.home with
  | port p => simp [Option.all_eq_true, Option.any_eq_true, and_assoc]
  | pair => simp [Option.all_eq_true, Option.any_eq_true, isGroup, Option.isSome_iff_ne_none, and_assoc]
  | internal => simp [Option.all_eq_true, and_assoc]

/-- An edit has become unusable, or cannot be staged: its entry is RETIRING, or it writes LEARNED where the entry is not (R67, R70). -/
theorem editStale_iff (o : Option Entry) (x : EntryEdit) : editStale o x = true ↔
    o.any (·.state = .retiring) = true ∨ ∃ f, x = .fields f ∧ f.state = .learned ∧ learnedAsEdited o f = false := by
  cases x <;> simp [editStale]

theorem editStale_fields {o : Option Entry} {f : PlanFields} (hr : o.any (·.state = .retiring) = false)
    (h : f.state = .fixed ∨ learnedAsEdited o f = true) : editStale o (.fields f) = false := by
  rcases h with h | h
  · simp [editStale, hr, h]
  · simp [editStale, hr, h]

namespace Bridge

theorem editEntry_malformed (b : Bridge) {sel : Nat} {x : EntryEdit}
    (h : sel < 1 ∨ 384 < sel ∨ ∃ f, x = .fields f ∧ f.ok = false) : b.editEntry sel x = (.malformed, .none, b) := by
  refine if_pos (h.imp_right (Or.imp_right ?_))
  rintro ⟨f, rfl, hf⟩
  change (!f.ok) = true
  rw [hf]
  rfl

section
variable (b : Bridge) {sel : Nat} {x : EntryEdit} (h1 : 1 ≤ sel) (h384 : sel ≤ 384) (hok : ∀ f, x = .fields f → f.ok = true)
include h1 h384 hok

theorem editEntry_formed : b.editEntry sel x =
    if editStale (b.entry sel) x || (x = .delete && (b.entry sel).isNone) then (.notFound, .none, b)
    else b.stage (.entry sel x) := by
  refine if_neg ?_
  rintro (h | h | h)
  · omega
  · omega
  · cases x with
    | delete => cases h
    | fields f => simp [hok f rfl] at h

theorem editEntry_notFound (h : editStale (b.entry sel) x = true ∨ (x = .delete ∧ b.entry sel = none)) :
    b.editEntry sel x = (.notFound, .none, b) := by
  rw [b.editEntry_formed h1 h384 hok, if_pos]
  simpa [Option.isNone_iff_eq_none] using h

theorem editEntry_staged (h : editStale (b.entry sel) x = false) (hd : x = .delete → b.entry sel ≠ none) :
    b.editEntry sel x = b.stage (.entry sel x) := by
  rw [b.editEntry_formed h1 h384 hok, if_neg]
  simpa [h, Option.isNone_iff_eq_none] using hd

end

/-- A binding may name the directory numbers 1 to 384 only (R68). -/
theorem editPrinter_malformed (b : Bridge) {sel : Nat} {x : Binding}
    (h : sel < 2 ∨ 9 < sel ∨ ∃ n, (x.primary = some n ∨ x.alternate = some n) ∧ (n < 1 ∨ 384 < n)) :
    b.editPrinter sel x = (.malformed, .none, b) := by
  refine if_pos (h.imp_right (Or.imp_right ?_))
  rintro ⟨n, hp | ha, hn⟩
  · left; simpa [hp] using hn
  · right; simpa [ha] using hn

theorem editPrinter_staged (b : Bridge) {sel : Nat} {x : Binding} (h2 : 2 ≤ sel) (h9 : sel ≤ 9)
    (h : ∀ n, x.primary = some n ∨ x.alternate = some n → 1 ≤ n ∧ n ≤ 384) :
    b.editPrinter sel x = b.stage (.printer sel { x with pace := min 16 x.pace }) := by
  have good {n : Nat} (hn : 1 ≤ n ∧ n ≤ 384) : ¬ (decide (n < 1) || decide (384 < n)) = true := by
    simp; omega
  refine if_neg ?_
  rintro (hs | hs | hp | ha)
  · omega
  · omega
  · obtain ⟨n, hn, hbad⟩ := (Option.any_eq_true _ _).1 hp
    exact good (h n (.inl hn)) hbad
  · obtain ⟨n, hn, hbad⟩ := (Option.any_eq_true _ _).1 ha
    exact good (h n (.inr hn)) hbad

end Bridge

/-- Settles O44. -/
theorem editsAreStaged : Obligations.EditsAreStaged := by
  refine ⟨fun s a sel f ht hm h1 h384 hok hret hstate => ?_, fun s a sel e ht hm h1 h384 he hs => ?_,
    fun s a sel y ht hm h2 h9 hn => ?_, fun s a sel ht hm => ⟨fun f h => ?_, fun h => ?_, fun f h1 h384 hok h => ?_,
      fun h1 h384 h => ?_, fun x h => ?_⟩, fun f => planFields_ok_iff f, fun f e => ⟨rfl, ?_⟩,
    fun n m x y v w => ⟨sameItem_entry n m x y, sameItem_printer n m v w, rfl, rfl⟩, stageEdit_new,
    fun x y front back hfront hy => stageEdit_replaces back hy front hfront, fun s a ht hm => exec_discardEdits s a ht hm⟩
  · have formed : ∀ g, EntryEdit.fields f = .fields g → g.ok = true := by rintro g ⟨⟩; exact hok
    exact manage_stage s a (.editEntry sel _) ht hm _ (congrArg Bridge.plain
      (s.bridge.editEntry_staged h1 h384 formed (editStale_fields hret hstate) (by simp)))
  · exact manage_stage s a (.editEntry sel _) ht hm _ (congrArg Bridge.plain
      (s.bridge.editEntry_staged h1 h384 (by simp) (by simp [editStale, he, hs]) fun _ => by simp [he]))
  · exact manage_stage s a (.editPrinter sel _) ht hm _ (congrArg Bridge.plain (s.bridge.editPrinter_staged h2 h9 hn))
  · exact exec_editEntry s a sel ht hm (s.bridge.editEntry_malformed (h.imp_right (Or.imp_right fun hf => ⟨f, rfl, hf⟩)))
  · exact exec_editEntry s a sel ht hm (s.bridge.editEntry_malformed (h.imp_right .inl))
  · exact exec_editEntry s a sel ht hm (s.bridge.editEntry_notFound h1 h384 (by rintro g ⟨⟩; exact hok)
      (.inl ((editStale_iff _ _).2 (h.imp_right fun hf => ⟨f, rfl, hf⟩))))
  · refine exec_editEntry s a sel ht hm (s.bridge.editEntry_notFound h1 h384 (by simp) ?_)
    exact h.symm.imp (fun hr => (editStale_iff _ _).2 (.inl hr)) fun hn => ⟨rfl, hn⟩
  · exact exec_editPrinter s a sel ht hm (s.bridge.editPrinter_malformed h)
  · refine (learnedAsEdited_iff (some e) f).trans ⟨?_, fun h => ⟨e, rfl, h⟩⟩
    rintro ⟨_, ⟨⟩, h⟩
    exact h

end Sys2Proof.Machine

/-! # A COMMIT is decided, on its trial copy (O46). -/

namespace Sys2Proof.Machine
open Sys2Proof

/-! ## Stale edits (R70) -/

namespace Bridge

/-- A pending edit of the entry under a number has become unusable. -/
def stale (b : Bridge) (n : DirNo) : Prop := ∃ x, Edit.entry n x ∈ b.dir.staging ∧ editStale (b.entry n) x = true

/-- The number of a stale pending edit. -/
def staleNumber (b : Bridge) : Edit → Option DirNo
  | .entry n x => if editStale (b.entry n) x then some n else none
  | .printer _ _ => none

theorem staleEdit_eq (b : Bridge) : b.staleEdit = (b.dir.staging.filterMap b.staleNumber).min? :=
  congrArg (fun g => (b.dir.staging.filterMap g).min?) (funext fun x => by cases x <;> rfl)

theorem staleNumber_eq_some (b : Bridge) (x : Edit) (n : DirNo) :
    b.staleNumber x = some n ↔ ∃ e, x = .entry n e ∧ editStale (b.entry n) e = true := by
  cases x with
  | entry m e =>
    simp only [staleNumber, Option.ite_none_right_eq_some, Option.some.injEq, Edit.entry.injEq]
    exact ⟨fun ⟨hs, hm⟩ => ⟨e, ⟨hm, rfl⟩, hm ▸ hs⟩, fun ⟨_, ⟨hm, he⟩, hs⟩ => ⟨by rw [hm, he]; exact hs, hm⟩⟩
  | printer m y => simp [staleNumber]

theorem mem_staleNumbers (b : Bridge) (n : DirNo) : n ∈ b.dir.staging.filterMap b.staleNumber ↔ b.stale n := by
  simp only [List.mem_filterMap, staleNumber_eq_some]
  exact ⟨fun ⟨_, hx, e, he, hs⟩ => ⟨e, he ▸ hx, hs⟩, fun ⟨e, he, hs⟩ => ⟨_, he, e, rfl, hs⟩⟩

theorem staleEdit_some {b : Bridge} {n : DirNo} (h : b.stale n) (hmin : ∀ m, b.stale m → n ≤ m) : b.staleEdit = some n :=
  b.staleEdit_eq.trans (List.min?_eq_some_iff.2 ⟨(b.mem_staleNumbers n).2 h, fun m hm => hmin m ((b.mem_staleNumbers m).1 hm)⟩)

theorem staleEdit_none {b : Bridge} (h : ∀ n, ¬ b.stale n) : b.staleEdit = none := by
  rw [staleEdit_eq, List.min?_eq_none_iff, List.eq_nil_iff_forall_not_mem]
  exact fun n hn => h n ((b.mem_staleNumbers n).1 hn)

/-- Stale is an edit of a RETIRING entry, and one that writes LEARNED where the entry is no longer LEARNED with its kind and home. -/
theorem stale_iff (b : Bridge) (n : DirNo) : b.stale n ↔ ∃ x, Edit.entry n x ∈ b.dir.staging ∧
    ((∃ e, b.entry n = some e ∧ e.state = .retiring) ∨
      ∃ f, x = .fields f ∧ f.state = .learned ∧ ∀ e, b.entry n = some e →
        ¬ (e.state = .learned ∧ e.kind = f.kind ∧ namesHome f e.home)) := by
  simp only [stale, editStale_iff, Option.any_eq_true, decide_eq_true_eq, ← Bool.not_eq_true, learnedAsEdited_iff, not_exists,
    not_and]

/-! ## The decision (R70, R72) -/

section
variable (b : Bridge)

theorem commit_busy (h : b.agent.saveState = .running) : b.commit = (.busy, .none, b) := if_pos h

variable {b} (hi : b.agent.saveState = .idle)
include hi

theorem commit_nothing (h : b.dir.staging = []) : b.commit = (.ok, .committed 0 0 0, b) := by
  simp [commit, hi, h]

variable (hs : b.dir.staging ≠ [])
include hs

theorem commit_stale {n : DirNo} (h : b.staleEdit = some n) : b.commit = (.notFound, .stale n, b) := by
  simp [commit, hi, hs, h]

theorem commit_refused (h : b.staleEdit = none) {f : CheckFailure} (hc : b.trial.check b.segments = some f) :
    b.commit = (.checkFailed, .checkFailed f, b) := by
  simp [commit, hi, hs, h, hc]

theorem commit_applied (h : b.staleEdit = none) (hc : b.trial.check b.segments = none) :
    b.commit = (.ok, .committed b.dir.staging.length b.applyCommit.1.freed b.applyCommit.1.retiring, b.applyCommit.2) := by
  simp [commit, hi, hs, h, hc]

end

theorem staging_applyCommit (b : Bridge) : b.applyCommit.2.dir.staging = [] := by
  rw [applyCommit_eq]
  rfl

end Bridge

theorem exec_commit (s : State) (a : Asker) (ht : s.takesTraffic) (hm : s.bridge.mayManage a = true) {res : Result} {body : AnswerBody}
    {c : Bridge} (h : s.bridge.commit = (res, body, c)) : exec (.commit a) s = .next (s.answered a 8 0 res body c) :=
  manage_plain s a .commit ht hm (congrArg Bridge.plain h)

/-! ## An edit on a trial copy (R70) -/

section
variable (lowerPaired : Port → Bool) (t : Plan) (n : DirNo)

theorem apply_delete_free (h : look n t.entries = none) : t.apply lowerPaired (.entry n .delete) = t := by
  simp only [Plan.apply, h]

theorem apply_delete_freed {e : Entry} (h : look n t.entries = some e) (hp : e.pins = 0) :
    t.apply lowerPaired (.entry n .delete) = { t with entries := drop n t.entries } := by
  simp only [Plan.apply, h, if_pos hp]

theorem apply_delete_pinned {e : Entry} (h : look n t.entries = some e) (hp : e.pins ≠ 0) :
    t.apply lowerPaired (.entry n .delete) = { t with entries := put n { e with state := .retiring, rights := {} } t.entries } := by
  simp only [Plan.apply, h, if_neg hp]

theorem apply_printer (l : Lp) (x : Binding) :
    t.apply lowerPaired (.printer (l.val + 2) x) = { t with bindings := t.bindings.set l x } := by
  simp only [Plan.apply, (lpOf_eq_some _ l).2 rfl, Option.elim_some]

theorem apply_printer_none {k : Nat} (x : Binding) (h : lpOf k = none) : t.apply lowerPaired (.printer k x) = t := by
  simp only [Plan.apply, h, Option.elim_none]

/-- An edit writes one directory number at most. -/
theorem look_apply_ne {x : Edit} (hx : ∀ e, x ≠ .entry n e) : look n (t.apply lowerPaired x).entries = look n t.entries := by
  match x, hx with
  | .entry m .delete, hx =>
    have hm : n ≠ m := fun e => hx _ (by rw [e])
    rcases h : look m t.entries with _ | e
    · rw [apply_delete_free lowerPaired t m h]
    · by_cases hp : e.pins = 0
      · rw [apply_delete_freed lowerPaired t m h hp]
        exact look_drop_ne hm _
      · rw [apply_delete_pinned lowerPaired t m h hp]
        exact look_put_ne hm _ _
  | .entry m (.fields f), hx => exact look_put_ne (fun e => hx _ (by rw [e])) _ _
  | .printer k z, _ =>
    rcases h : lpOf k with _ | l
    · rw [apply_printer_none lowerPaired t z h]
    · obtain rfl := (lpOf_eq_some k l).1 h
      rw [apply_printer]

/-- An edit writes one binding at most. -/
theorem binding_apply_ne {l : Lp} {x : Edit} (hx : ∀ z, x ≠ .printer (l.val + 2) z) :
    (t.apply lowerPaired x).bindings[l] = t.bindings[l] := by
  match x, hx with
  | .entry m .delete, _ =>
    rcases h : look m t.entries with _ | e
    · rw [apply_delete_free lowerPaired t m h]
    · by_cases hp : e.pins = 0
      · rw [apply_delete_freed lowerPaired t m h hp]
      · rw [apply_delete_pinned lowerPaired t m h hp]
  | .entry m (.fields f), _ => rfl
  | .printer k z, hx =>
    rcases h : lpOf k with _ | m
    · rw [apply_printer_none lowerPaired t z h]
    · obtain rfl := (lpOf_eq_some k m).1 h
      rw [apply_printer]
      exact Vector.getElem_set_ne m.isLt l.isLt fun e => hx z (by rw [e])

end

/-! ## All edits on a trial copy (R70) -/

section
variable (lowerPaired : Port → Bool)

theorem look_applyAll_ne {n : DirNo} : ∀ (edits : List Edit) (t : Plan), (∀ e, Edit.entry n e ∉ edits) →
    look n (edits.foldl (Plan.apply lowerPaired) t).entries = look n t.entries
  | [], _, _ => rfl
  | _ :: l, t, h =>
    (look_applyAll_ne l _ fun e he => h e (List.mem_cons_of_mem _ he)).trans
      (look_apply_ne lowerPaired t n fun e he => h e (he ▸ List.mem_cons_self))

theorem binding_applyAll_ne {l : Lp} : ∀ (edits : List Edit) (t : Plan), (∀ z, Edit.printer (l.val + 2) z ∉ edits) →
    (edits.foldl (Plan.apply lowerPaired) t).bindings[l] = t.bindings[l]
  | [], _, _ => rfl
  | _ :: r, t, h =>
    (binding_applyAll_ne r _ fun z hz => h z (List.mem_cons_of_mem _ hz)).trans
      (binding_apply_ne lowerPaired t fun z hz => h z (hz ▸ List.mem_cons_self))

variable {edits : List Edit} (hd : edits.Pairwise fun x y => x.sameItem y = false) (t : Plan)
include hd

/-- What the edits leave under a number is what its own edit makes of what stood there before. -/
theorem look_applyAll {n : DirNo} {x : EntryEdit} (hx : Edit.entry n x ∈ edits) :
    ∃ u : Plan, look n u.entries = look n t.entries ∧
      look n (edits.foldl (Plan.apply lowerPaired) t).entries = look n (u.apply lowerPaired (.entry n x)).entries := by
  obtain ⟨l, r, rfl, hlr⟩ := edits_split hd hx
  have hne (a : Edit) (ha : a ∈ l ∨ a ∈ r) (y : EntryEdit) : a ≠ .entry n y := by
    rintro rfl
    simpa [Edit.sameItem] using hlr _ ha
  refine ⟨l.foldl (Plan.apply lowerPaired) t, look_applyAll_ne lowerPaired l t fun y h => hne _ (.inl h) y rfl, ?_⟩
  rw [List.foldl_append, List.foldl_cons]
  exact look_applyAll_ne lowerPaired r _ fun y h => hne _ (.inr h) y rfl

theorem binding_applyAll {l : Lp} {x : Binding} (hx : Edit.printer (l.val + 2) x ∈ edits) :
    (edits.foldl (Plan.apply lowerPaired) t).bindings[l] = x := by
  obtain ⟨f, r, rfl, hfr⟩ := edits_split hd hx
  have hne (a : Edit) (ha : a ∈ r) (z : Binding) : a ≠ .printer (l.val + 2) z := by
    rintro rfl
    simpa [Edit.sameItem] using hfr _ (.inr ha)
  rw [List.foldl_append, List.foldl_cons, binding_applyAll_ne lowerPaired r _ fun z h => hne _ h z rfl, apply_printer]
  exact Vector.getElem_set_self _

end

/-! ## The trial copy (R70) -/

namespace Bridge

theorem binding_plan (b : Bridge) (l : Lp) : b.plan.bindings[l] = (b.lp l).binding := by
  simp [plan, lp]

section
variable {b : Bridge} (hd : b.dir.staging.Pairwise fun x y => x.sameItem y = false) {n : DirNo}
include hd

theorem trial_fields {f : PlanFields} (hf : Edit.entry n (.fields f) ∈ b.dir.staging) :
    look n b.trial.entries = some (writeEntry b.lowerPaired (b.entry n) f) := by
  obtain ⟨u, hu, h⟩ := look_applyAll b.lowerPaired hd b.plan hf
  refine h.trans ((look_put_self n _ _).trans ?_)
  rw [hu]
  rfl

theorem trial_delete_pinned (hx : Edit.entry n .delete ∈ b.dir.staging) {e : Entry} (he : b.entry n = some e) (hp : e.pins ≠ 0) :
    look n b.trial.entries = some { e with state := .retiring, rights := {} } := by
  obtain ⟨u, hu, h⟩ := look_applyAll b.lowerPaired hd b.plan hx
  rw [apply_delete_pinned _ u n (hu.trans he) hp] at h
  exact h.trans (look_put_self n _ _)

theorem trial_delete_gone (hx : Edit.entry n .delete ∈ b.dir.staging) (hp : ∀ e, b.entry n = some e → e.pins = 0) :
    look n b.trial.entries = none := by
  obtain ⟨u, hu, h⟩ := look_applyAll b.lowerPaired hd b.plan hx
  rcases he : b.entry n with _ | e
  · rw [apply_delete_free _ u n (hu.trans he)] at h
    exact h.trans (hu.trans he)
  · rw [apply_delete_freed _ u n (hu.trans he) (hp e he)] at h
    exact h.trans (look_drop_self n _)

end

end Bridge

/-- Settles O46. -/
theorem commitIsDecidedInOrder : Obligations.CommitIsDecidedInOrder := by
  refine ⟨fun s a ht hm => ?_, fun b hd => ⟨fun n f hf => ?_,
    fun n hx => ⟨fun e => b.trial_delete_pinned hd hx, b.trial_delete_gone hd hx⟩,
    fun n => look_applyAll_ne b.lowerPaired b.dir.staging b.plan, fun l x => binding_applyAll b.lowerPaired hd b.plan, fun l h => ?_⟩⟩
  · have hstale := s.bridge.stale_iff
    refine ⟨fun h => exec_commit s a ht hm (s.bridge.commit_busy h), fun hi h => exec_commit s a ht hm (Bridge.commit_nothing hi h),
      fun n hi hn hmin => ?_, fun f hi hs hn hc => ?_, fun hi hs hn hc => ⟨?_, s.bridge.staging_applyCommit⟩⟩
    · have hstaged : s.bridge.dir.staging ≠ [] := by
        obtain ⟨x, hx, -⟩ := hn
        exact List.ne_nil_of_mem hx
      exact exec_commit s a ht hm (Bridge.commit_stale hi hstaged
        (Bridge.staleEdit_some ((hstale n).2 hn) fun m h => hmin m ((hstale m).1 h)))
    · exact exec_commit s a ht hm (Bridge.commit_refused hi hs (Bridge.staleEdit_none fun n h => hn n ((hstale n).1 h)) hc)
    · exact exec_commit s a ht hm (Bridge.commit_applied hi hs (Bridge.staleEdit_none fun n h => hn n ((hstale n).1 h)) hc)
  · exact ⟨_, b.trial_fields hd hf, rfl, rfl, rfl, rfl, rfl, rfl, rfl, rfl⟩
  · exact (binding_applyAll_ne b.lowerPaired b.dir.staging b.plan h).trans (b.binding_plan l)

end Sys2Proof.Machine

/-! # What storing a setting changes (O5, O43). -/

namespace Sys2Proof

/-! ## A setting stored (R184) -/

/-- The settings that each port has of its own, by identifier (R184). -/
def ownSettings : List Nat := [5, 6, 10, 12, 13, 17, 18, 19, 20, 21, 22, 23, 24, 25, 26]

/-- The value of a port's own setting. -/
def PortSettings.fetch (y : PortSettings) : Nat → Option SettingValue
  | 5 => some (.onOff y.learning)
  | 6 => some (.onOff y.autoShow)
  | 10 => some (.broadcast y.broadcast)
  | 12 => some (.number y.share)
  | 13 => some (.number y.cap)
  | 17 => some (.onOff y.enable)
  | 18 => some (.response y.openResponse)
  | 19 => some (.response y.lowResponse)
  | 20 => some (.report y.report.short)
  | 21 => some (.report y.report.openLine)
  | 22 => some (.report y.report.jabber)
  | 23 => some (.report y.report.lowSignal)
  | 24 => some (.number y.deglitch)
  | 25 => some (.number y.nominal)
  | 26 => some (.sampling y.sampling)
  | _ => none

namespace Settings

variable (x : Settings) (p q : Port) (f : PortSettings → PortSettings)

@[simp] theorem port_modPort_self : (x.modPort p f).port[p] = f x.port[p] := by simp [modPort]

theorem port_modPort_ne (h : q ≠ p) : (x.modPort p f).port[q] = x.port[q] := by
  have hne : p.val ≠ q.val := fun e => h (Fin.ext e).symm
  simp [modPort, hne]

theorem fetch_own {j : Nat} (hj : j ∈ ownSettings) : x.fetch p j = x.port[p].fetch j := by
  simp only [ownSettings, List.mem_cons, List.not_mem_nil, or_false] at hj
  rcases hj with rfl | rfl | rfl | rfl | rfl | rfl | rfl | rfl | rfl | rfl | rfl | rfl | rfl | rfl | rfl <;> rfl

theorem fetch_modPort_shared {j : Nat} (hj : j ∉ ownSettings) : (x.modPort p f).fetch q j = x.fetch q j := by
  unfold fetch
  split
  case h_5 | h_6 | h_10 | h_12 | h_13 | h_17 | h_18 | h_19 | h_20 | h_21 | h_22 | h_23 | h_24 | h_25 | h_26 => exact absurd (by decide) hj
  all_goals rfl

/-- What a setting that is stored changes: a port's own setting, the pairing of a pair, or a setting of the whole part; and no other
setting that is read. -/
inductive Stored (x : Settings) (p : Port) (id : Nat) : Settings → Prop
  | own (f : PortSettings → PortSettings) (hid : id ∈ ownSettings) (hf : ∀ z j, j ≠ id → (f z).fetch j = z.fetch j) :
      Stored x p id (x.modPort p f)
  | pairing (on : Bool) (hid : id = 27) : Stored x p id { x with pairing := x.pairing.set (Machine.pairOf p) on }
  | shared (y : Settings) (hid : id ∉ 27 :: ownSettings) (hp : y.port = x.port) (hf : ∀ q j, j ≠ id → y.fetch q j = x.fetch q j) :
      Stored x p id y

theorem stored {x y : Settings} {p : Port} {id : Nat} {v : SettingValue} (h : x.store p id v = some y) : Stored x p id y := by
  unfold store at h
  split at h
  case h_30 => cases h
  case h_27 => cases h; exact .pairing _ rfl
  case h_5 | h_6 | h_10 | h_12 | h_13 | h_17 | h_18 | h_19 | h_20 | h_21 | h_22 | h_23 | h_24 | h_25 | h_26 =>
    cases h
    refine .own _ (by decide) fun z j hj => ?_
    unfold PortSettings.fetch
    split
    any_goals rfl
    exact absurd rfl hj
  case h_2 | h_28 | h_29 =>
    split at h <;> cases h
    refine .shared _ (by decide) rfl fun q j hj => ?_
    unfold fetch
    split
    any_goals rfl
    exact absurd rfl hj
  case h_1 | h_3 | h_4 | h_7 | h_8 | h_9 | h_11 | h_14 | h_15 | h_16 =>
    cases h
    refine .shared _ (by decide) rfl fun q j hj => ?_
    unfold fetch
    split
    any_goals rfl
    exact absurd rfl hj

/-- A setting stored for one port leaves the other ports' own settings. -/
theorem port_store {x y : Settings} {p q : Port} {id : Nat} {v : SettingValue} (h : x.store p id v = some y) (hq : q ≠ p) :
    y.port[q] = x.port[q] := by
  cases stored h with
  | own f _ _ => exact x.port_modPort_ne p q f hq
  | pairing on _ => rfl
  | shared y _ hp _ => rw [hp]

end Settings

end Sys2Proof

/-! # Allowances within their caps (O5). -/

namespace Sys2Proof.Machine
open Sys2Proof

namespace Bridge

/-- Every port's allowance within its cap and its remainder below 100 (R96). -/
def AllowanceSound (b : Bridge) : Prop :=
  ∀ p, (b.port p).allowance ≤ (b.portSettings p).cap ∧ (b.port p).remainder < 100

namespace AllowanceSound

variable {b c : Bridge}

/-! ## What keeps the allowances in general -/

theorem lawful (h : b.AllowanceSound) (k : Lawful b c) : c.AllowanceSound :=
  fun p => ⟨k.allowance p (h p).1, k.remainder p (h p).2⟩

theorem steady (h : b.AllowanceSound) (k : Steady b c) : c.AllowanceSound := h.lawful (.ofSteady k)

theorem kept (h : b.AllowanceSound) (k : BridgeKept b c) : c.AllowanceSound := h.lawful (.ofKept k)

theorem freed (h : b.AllowanceSound) (k : Freed b c) : c.AllowanceSound := by
  obtain ⟨es, rs, ps, rfl⟩ := k.rest
  exact h

theorem foldl {α : Type} {f : Bridge → α → Bridge} (hf : ∀ {b : Bridge}, b.AllowanceSound → ∀ x, (f b x).AllowanceSound) :
    ∀ (l : List α) {b : Bridge}, b.AllowanceSound → (l.foldl f b).AllowanceSound
  | [], _, h => h
  | x :: l, _, h => foldl hf l (hf h x)

/-- A change of a port that leaves its allowance and remainder. -/
theorem ofPort (h : b.AllowanceSound) (p : Port) (f : PortState → PortState) (ha : (f (b.port p)).allowance = (b.port p).allowance)
    (hr : (f (b.port p)).remainder = (b.port p).remainder) : (b.modPort p f).AllowanceSound :=
  h.lawful (.ofPort b p f (fun e => ha ▸ e) (fun e => hr ▸ e) fun e => ⟨ha.trans e.1, hr.trans e.2⟩)

/-- A bridge whose ports each hold their cap (R96). -/
theorem ofFull (h : ∀ p, (b.port p).allowance = (b.portSettings p).cap ∧ (b.port p).remainder = 0) : b.AllowanceSound :=
  fun p => ⟨(h p).1.le, (h p).2 ▸ Nat.zero_lt_succ _⟩

/-! ## Offers and answers -/

theorem sendEach (h : b.AllowanceSound) (ps : List Port) (x : Block) (o : Origin) (n : Option Port) :
    (b.sendEach ps x o n).2.AllowanceSound := h.kept (kept_sendEach b ps x o n)

theorem sendPair (h : b.AllowanceSound) (x : Carrier) (o : Origin) : (b.sendPair x o).2.AllowanceSound := h.kept (kept_sendPair b x o)

theorem answer (h : b.AllowanceSound) (a : Asker) (x : Answer) (named : Bool) : (b.answer a x named).AllowanceSound :=
  h.steady (steady_answer b a x named)

theorem countCapture (h : b.AllowanceSound) (g : Fin 9) (k : Ctr) (d : ErrorDetail) : (b.countCapture g k d).AllowanceSound :=
  h.steady (steady_countCapture b g k d)

theorem countForward (h : b.AllowanceSound) (k : Ctr) : (b.countForward k).AllowanceSound := h

theorem refreshReach (h : b.AllowanceSound) : b.refreshReach.AllowanceSound := h.steady (steady_refreshReach b)

theorem settle (h : b.AllowanceSound) (m : Store) : (b.settle m).AllowanceSound := h.kept (kept_settle m b)

/-! ## The exchange table -/

theorem openExchange (h : b.AllowanceSound) (tag : Nat) (a : Asker) (x : Exchange) : (b.openExchange tag a x).AllowanceSound := by
  have hx : (b.setExchanges (put tag x b.exchanges)).AllowanceSound := h
  have hp := (hx.kept (kept_pin _ x.requester)).kept (kept_pin _ x.target)
  have hs := hp.steady (steady_sendQuestion _ tag)
  unfold Bridge.openExchange
  simp only
  split
  next heq => rw [heq] at hs; exact hs.steady (steady_failExchange _ tag _)
  next heq => rw [heq] at hs; exact hs.answer _ _ _

theorem advanceSequence (h : b.AllowanceSound) (n : DirNo) (u : Bool) (q : OutSeq) : (b.advanceSequence n u q).AllowanceSound := by
  unfold Bridge.advanceSequence
  split
  · split <;> exact h
  · exact h

theorem takeRequest (h : b.AllowanceSound) (a : Asker) (n m : DirNo) (e : Entry) (copy : List Byte) (pad : Bool) :
    (b.takeRequest a n m e copy pad).AllowanceSound := by
  unfold Bridge.takeRequest
  split
  split
  · exact h.answer _ _ _
  extract_lets c
  have hc : c.AllowanceSound := by
    unfold c
    split
    · exact h.steady (steady_closeExchange b _)
    · exact h
  clear_value c
  split
  · exact hc.answer _ _ _
  split
  · exact hc.answer _ _ _
  split
  · exact hc.answer _ _ _
  split
  · exact hc.answer _ _ _
  split
  · exact hc.answer _ _ _
  · exact (hc.advanceSequence _ _ _).openExchange _ _ _

theorem targetAnswered (h : b.AllowanceSound) (tag : Nat) (a : TargetAnswer) : (b.targetAnswered tag a).AllowanceSound := by
  have hr (x : Exchange) (content payload : List Byte) (pad : Bool) : (b.relayReply x content payload pad).AllowanceSound := by
    unfold relayReply
    split
    · exact h.sendEach _ _ _ _
    · exact h.sendPair _ _
  have hf (x : Exchange) (reason : Nat) : (b.relayFail x reason).AllowanceSound := by
    unfold relayFail
    split
    · exact h.answer _ _ _
    · exact h.sendPair _ _
  unfold Bridge.targetAnswered
  split
  · split
    · exact h
    · exact h
    · exact (hr _ _ _ _).steady (steady_closeExchange _ tag)
    · exact (hf _ _).steady ((steady_closeExchange _ tag).trans (steady_count _ _ _))
  · exact h

theorem unexpected (h : b.AllowanceSound) (a : TargetAnswer) (d : ErrorDetail) : (b.unexpected a d).AllowanceSound := by
  unfold Bridge.unexpected
  split
  · exact h.countCapture _ _ _
  · exact h

theorem exchangeCoaxAnswer (h : b.AllowanceSound) (p : Port) (blk : Block) : (b.exchangeCoaxAnswer p blk).AllowanceSound := by
  unfold Bridge.exchangeCoaxAnswer
  split
  · split
    · exact h.targetAnswered _ _
    · exact h.unexpected _ _
  · exact h

theorem exchangePairAnswer (h : b.AllowanceSound) (f : Carrier) : (b.exchangePairAnswer f).AllowanceSound := by
  unfold Bridge.exchangePairAnswer
  split
  · split
    · exact h.targetAnswered _ _
    · exact h.unexpected _ _
  · exact h

theorem closeAnswerWindow (h : b.AllowanceSound) (tag : Nat) : (b.closeAnswerWindow tag).AllowanceSound := by
  unfold Bridge.closeAnswerWindow
  split
  · split
    · split
      · exact h.steady (steady_questionUnanswered b tag)
      · exact h
    · exact h
  · exact h

theorem endBusyDelay (h : b.AllowanceSound) (tag : Nat) : (b.endBusyDelay tag).AllowanceSound := by
  unfold Bridge.endBusyDelay
  split
  · split
    · split
      · exact h.steady (steady_resendQuestion b tag)
      · exact h
    · exact h
  · exact h

theorem timeOutExchange (h : b.AllowanceSound) (tag : Nat) : (b.timeOutExchange tag).AllowanceSound := by
  unfold Bridge.timeOutExchange
  split
  · split
    · exact h.steady ((steady_failExchange b tag _).trans (steady_count _ _ _))
    · exact h
  · exact h

/-! ## Deliveries and jobs -/

theorem replyFrame (h : b.AllowanceSound) (l : Lp) : (b.replyFrame l).AllowanceSound := by
  unfold Bridge.replyFrame
  split
  case h_2 => exact h
  case h_1 d _ =>
  split
  case h_2 => exact h
  case h_1 f j _ _ =>
  extract_lets b₁ j₁ b₂ b₃
  have h₂ : b₂.AllowanceSound := by
    unfold b₂
    split <;> exact h
  have h₃ : b₃.AllowanceSound := h₂
  split
  · split
    · exact kept (b := b₃.modJob j₁.number fun x => { x with position := 0 }) h₃ (kept_buildFrame _ l)
    · exact h₃.kept (kept_finish _ l _ _)
  · exact h₂.kept (kept_buildFrame _ l)

theorem frameAnswered (h : b.AllowanceSound) (l : Lp) (a : PrinterAnswer) : (b.frameAnswered l a).AllowanceSound := by
  unfold Bridge.frameAnswered
  extract_lets c
  have hc : c.AllowanceSound := by
    unfold c
    split <;> exact h
  clear_value c
  split
  next d _ =>
    split
    next =>
      refine kept ?_ (kept_finishCancelled _ l)
      split <;> exact hc
    next =>
      have hold (n : Nat) : (c.holdFrame l n).AllowanceSound := by
        unfold holdFrame
        split <;> exact hc
      split
      · exact hc.replyFrame l
      · exact hold _
      · exact hold _
      · exact hold _
      · exact hc
      · unfold pauseFrame
        split <;> exact hc
      · exact hc.kept (kept_tryEnds c l)
  next => exact hc

theorem queryAnswered (h : b.AllowanceSound) (n : DirNo) (l : Option Lp) (x : StatusCode) : (b.queryAnswered n l x).AllowanceSound := by
  unfold Bridge.queryAnswered
  extract_lets silent c
  have hc : c.AllowanceSound := h
  split
  · split <;> exact hc
  · exact hc

theorem printerAnswer (h : b.AllowanceSound) (n : DirNo) (q : OutSeq) (tag : Option Nat) (a : PrinterAnswer) :
    (b.printerAnswer n q tag a).AllowanceSound := by
  have hs : ((b.countDelivery .unexpectedAnswer).leaveSilence n .unknown).AllowanceSound := h
  unfold Bridge.printerAnswer
  simp only
  split
  · split
    · split
      · exact h.frameAnswered _ a
      · exact hs
    · exact hs
  · split
    · split
      · exact h.queryAnswered n _ _
      · exact h
    · exact hs
  · exact hs

theorem toldOfData (h : b.AllowanceSound) (l : Lp) : (b.toldOfData l).AllowanceSound := by
  unfold Bridge.toldOfData
  split
  · exact h.kept (kept_buildFrame b l)
  · exact h

theorem cancelJob (h : b.AllowanceSound) (n : Nat) (r : JobReason) : (b.cancelJob n r).AllowanceSound := by
  unfold Bridge.cancelJob
  split
  · split
    · exact h.kept (kept_endJob b n _ _)
    · exact h.kept (kept_endJob b n _ _)
    · unfold cancelDelivery
      split
      next d _ =>
        have hc : (b.modJob d.job fun j => { j with cancelReason := some r }).AllowanceSound := h
        simp only
        split
        · exact hc
        · exact hc
        · exact hc.kept (kept_finish _ _ _ _)
      next => exact h
    · exact h
  · exact h

theorem endJob (h : b.AllowanceSound) (n : Nat) (o : JobOutcome) (r : JobReason) : (b.endJob n o r).AllowanceSound :=
  h.kept (kept_endJob b n o r)

theorem stallJob (h : b.AllowanceSound) (j : Job) : (b.stallJob j).AllowanceSound := by
  unfold Bridge.stallJob
  refine countCapture ?_ _ _ _
  split
  · exact h.endJob _ _ _
  · extract_lets c
    have hc : c.AllowanceSound := h
    split
    · exact hc.endJob _ _ _
    · split
      · exact hc.toldOfData _
      · exact hc

theorem jobStalls (h : b.AllowanceSound) (n : Nat) : (b.jobStalls n).AllowanceSound := by
  unfold Bridge.jobStalls
  split
  · split
    · exact h.stallJob _
    · exact h
  · exact h

theorem sendQuery (h : b.AllowanceSound) (n : DirNo) (r : Route) (src : Nat) : (b.sendQuery n r src).AllowanceSound := by
  unfold Bridge.sendQuery
  extract_lets q serial c
  have hc : c.AllowanceSound := (h.kept (kept_newQuestion b n r)).kept (kept_modPrinter _ n _)
  clear_value c
  split
  next mac seq =>
    have hs := hc.sendPair { mac, kind := .status, seq, tag := 1, dst := n, src := 1 } (.query n)
    split
    next heq => rw [heq] at hs; exact hs
    next heq => rw [heq] at hs; exact hs
  next =>
    have hn : c.nextSerial.AllowanceSound := hc
    exact .foldl (fun h p => h.steady (steady_offer0 _ p _)) _ hn

theorem pollDue (h : b.AllowanceSound) (n : DirNo) : (b.pollDue n).AllowanceSound := by
  have hq {c : Bridge} (hc : c.AllowanceSound) : (c.queryDue n).AllowanceSound := by
    unfold queryDue
    split
    · exact hc.sendQuery _ _ _
    · split
      · split
        · split
          · exact hc.sendQuery _ _ _
          · exact hc
        · exact hc
      · exact hc
  unfold Bridge.pollDue
  split
  · split
    · exact hq (h.kept (kept_modPrinter b n _))
    · exact h
  · exact h

theorem queryWindowCloses (h : b.AllowanceSound) (n : DirNo) : (b.queryWindowCloses n).AllowanceSound := by
  unfold Bridge.queryWindowCloses
  split
  · split <;> exact h
  · exact h

theorem pauseEnds (h : b.AllowanceSound) (n : DirNo) : (b.pauseEnds n).AllowanceSound := by
  unfold Bridge.pauseEnds
  split
  · extract_lets c
    have hc : c.AllowanceSound := h
    split
    · exact hc.kept (kept_stop c _)
    · exact hc
  · exact h

theorem paceRefills (h : b.AllowanceSound) (l : Lp) : (b.paceRefills l).AllowanceSound := by
  unfold Bridge.paceRefills
  split
  · split <;> exact h
  · exact h

theorem deliveryWindowCloses (h : b.AllowanceSound) (l : Lp) : (b.deliveryWindowCloses l).AllowanceSound := by
  unfold Bridge.deliveryWindowCloses
  split
  · split
    · exact h.kept (kept_tryEnds b l)
    · exact h
  · exact h

theorem holdWaitEnds (h : b.AllowanceSound) (l : Lp) : (b.holdWaitEnds l).AllowanceSound := by
  unfold Bridge.holdWaitEnds
  split
  · split <;> exact h
  · exact h

/-! ## Print requests -/

/-- What a judgement does keeps the allowances. -/
def JudgementSound (y : Judgement) : Prop := ∀ c : Bridge, c.AllowanceSound → (y.2 c).AllowanceSound

theorem judgeOpen (b : Bridge) (owner : DirNo) (l : Lp) (copies : Nat) (urgent : Bool) :
    JudgementSound (b.judgeOpen owner l copies urgent) := by
  unfold Bridge.judgeOpen
  split
  · exact fun c hc => hc
  split
  · exact fun c hc => hc
  split
  · exact fun c hc => hc
  · intro c hc
    simp only [Bridge.openJob]
    split <;> exact hc

theorem judgeAppend (b : Bridge) (j : Job) (data : List Byte) : JudgementSound (b.judgeAppend j data) := by
  unfold Bridge.judgeAppend
  extract_lets blocks need
  split
  · split
    · exact fun c hc => (hc.endJob _ _ _).countCapture _ _ _
    · exact fun c hc => hc
  · split
    · exact fun c hc => hc
    · intro c hc
      simp only [Bridge.appendData]
      split
      · refine toldOfData ?_ _
        exact hc
      · exact hc

theorem judgeData (b : Bridge) (owner : DirNo) (l : Lp) (n seq : Nat) (data : List Byte) :
    JudgementSound (b.judgeData owner l n seq data) := by
  unfold Bridge.judgeData
  split
  · exact fun c hc => hc
  split
  · exact fun c hc => hc
  split
  · exact fun c hc => hc
  split
  · exact fun c hc => hc
  split
  · exact fun c hc => hc
  · exact judgeAppend b _ data

theorem closeJob (h : b.AllowanceSound) (j : Job) : (b.closeJob j).AllowanceSound := by
  unfold Bridge.closeJob
  extract_lets c
  have hc : c.AllowanceSound := h
  split
  · split
    · exact hc.endJob _ _ _
    · exact hc
  · split
    · exact hc.endJob _ _ _
    · split
      · exact hc.toldOfData _
      · exact hc

theorem judgeClose (b : Bridge) (owner : DirNo) (l : Lp) (n flag : Nat) : JudgementSound (b.judgeClose owner l n flag) := by
  unfold Bridge.judgeClose
  split
  · exact fun c hc => hc
  split
  · exact fun c hc => hc
  split
  · exact fun c hc => hc
  split
  · exact fun c hc => hc.cancelJob _ _
  split
  · exact fun c hc => hc
  · exact fun c hc => hc.closeJob _

theorem judgePrint (b : Bridge) (owner : DirNo) (l : Lp) (k : Kind) (o : Order) (data : List Byte) :
    JudgementSound (b.judgePrint owner l k o data) := by
  unfold Bridge.judgePrint
  split
  · exact judgeOpen b _ _ _ _
  · exact judgeData b _ _ _ _ _
  · exact judgeClose b _ _ _ _

theorem rememberAnswer (h : b.AllowanceSound) (a : Asker) (k : Kind) (x : Answer) : (b.rememberAnswer a k x).AllowanceSound := by
  unfold Bridge.rememberAnswer
  split
  · exact h
  · split <;> exact h

theorem printRequest (h : b.AllowanceSound) (a : Asker) (owner : DirNo) (l : Lp) (k : Kind) (o : Order) (data : List Byte) :
    (b.printRequest a owner l k o data).AllowanceSound := by
  unfold Bridge.printRequest
  split
  · exact h.answer _ _ _
  · exact judgePrint b owner l k o data _ ((h.answer _ _ _).rememberAnswer _ _ _)

/-! ## The plan and the settings -/

theorem applyEdit {y : Tally × Bridge} (h : y.2.AllowanceSound) (x : Edit) : (Bridge.applyEdit y x).2.AllowanceSound := by
  unfold Bridge.applyEdit
  split
  · split
    · simp only
      split <;> exact h
    · exact h
  · exact h
  · split <;> exact h

theorem applyEdits : ∀ (l : List Edit) {y : Tally × Bridge}, y.2.AllowanceSound → (l.foldl Bridge.applyEdit y).2.AllowanceSound
  | [], _, h => h
  | x :: l, _, h => applyEdits l (applyEdit h x)

theorem applyCommit (h : b.AllowanceSound) : b.applyCommit.2.AllowanceSound := by
  unfold Bridge.applyCommit
  extract_lets edits y c
  have hy : y.2.AllowanceSound := applyEdits _ (h.kept (kept_stopMoved b edits))
  have hc : c.AllowanceSound := .foldl (fun h x => h.kept (kept_liftAll _ x.2)) _ hy
  have hr : (c.modDir fun d => { d with staging := [] }).refreshReach.AllowanceSound :=
    refreshReach (b := c.modDir fun d => { d with staging := [] }) hc
  unfold endSetup
  simp only
  split <;> exact hr

theorem commit (h : b.AllowanceSound) : b.commit.2.2.AllowanceSound := by
  unfold Bridge.commit
  split
  · exact h
  · split
    · exact h
    · split
      · exact h
      · split
        · exact h
        · exact h.applyCommit

/-- A setting that is stored may lower its port's cap, and the allowance is brought within it at once (R99). -/
theorem settingChanged (h : b.AllowanceSound) {p : Port} {id : Nat} {v : SettingValue} {y : Settings}
    (hy : b.settings.store p id v = some y) (old : PortSettings) :
    ((b.setSettings y).settingChanged p old y.port[p]).AllowanceSound := by
  unfold Bridge.settingChanged
  extract_lets b₁ b₂
  have h₁ : b₁.AllowanceSound := by
    intro q
    obtain rfl | hq := eq_or_ne q p
    · have hp : b₁.port q = { b.port q with allowance := min (b.port q).allowance y.port[q].cap } := port_modPort_self _ _ _
      rw [hp]
      exact ⟨Nat.min_le_right _ _, (h q).2⟩
    · have hp : b₁.port q = b.port q := port_modPort_ne _ hq.symm _
      have hs : b₁.portSettings q = b.portSettings q := Settings.port_store hy hq
      rw [hp, hs]
      exact h q
  have h₂ : b₂.AllowanceSound := h₁.lawful (.ofMon b₁ p _)
  split
  · exact h₂
  · split
    · exact h₂.lawful (lawful_enablePort b₂ p)
    · exact h₂.lawful (lawful_disablePort b₂ p)

theorem setSetting (h : b.AllowanceSound) (sel id : Nat) (v : SettingValue) : (b.setSetting sel id v).2.2.AllowanceSound := by
  unfold Bridge.setSetting
  split
  · exact h
  · split
    · exact h
    next hy => exact h.settingChanged hy _

/-! ## Management -/

theorem stage (h : b.AllowanceSound) (x : Edit) : (b.stage x).2.2.AllowanceSound := by
  unfold Bridge.stage
  extract_lets replaced c
  split <;> exact h

theorem editEntry (h : b.AllowanceSound) (sel : Nat) (x : EntryEdit) : (b.editEntry sel x).2.2.AllowanceSound := by
  unfold Bridge.editEntry
  extract_lets malformed
  split
  · exact h
  · split
    · exact h
    · exact h.stage _

theorem editPrinter (h : b.AllowanceSound) (sel : Nat) (x : Binding) : (b.editPrinter sel x).2.2.AllowanceSound := by
  unfold Bridge.editPrinter
  extract_lets bad
  split
  · exact h
  · exact h.stage _

theorem onPort (h : b.AllowanceSound) (sel : Nat) {f : Port → Result × AnswerBody × AfterAnswer × Bridge}
    (hf : ∀ p, (f p).2.2.2.AllowanceSound) : (b.onPort sel f).2.2.2.AllowanceSound := by
  unfold Bridge.onPort
  split
  · exact hf _
  · exact h

theorem requestReset (h : b.AllowanceSound) (k : ArmedReset) : (b.requestReset k).2.2.2.AllowanceSound := by
  unfold Bridge.requestReset
  split <;> exact h

theorem carryOut (h : b.AllowanceSound) (r : ManageReq) : (b.carryOut r).2.2.2.AllowanceSound := by
  cases r with
  | readStatus => exact h
  | setSetting sel id v => exact h.setSetting sel id v
  | readSetting sel id =>
    simp only [Bridge.carryOut, plain, Bridge.readSetting]
    split <;> exact h
  | readEntry sel =>
    simp only [Bridge.carryOut]
    split <;> exact h
  | editEntry sel e => exact h.editEntry sel e
  | editPrinter sel x => exact h.editPrinter sel x
  | discardEdits => exact h
  | commit => exact h.commit
  | readPort sel => exact h.onPort sel fun _ => h
  | clearFaults sel kinds foreign =>
    refine h.onPort sel fun p => ?_
    split
    · exact h
    · exact h.lawful (lawful_clearFaults b p kinds)
  | readSpool sel => exact h
  | readJob sel => exact h
  | cancelJob sel =>
    simp only [Bridge.carryOut]
    split
    · exact h.cancelJob _ _
    · exact h
  | readPrinter sel clear =>
    simp only [Bridge.carryOut]
    split <;> exact h
  | readErrors sel =>
    simp only [Bridge.carryOut, onGroup]
    split <;> exact h
  | clearErrors sel clear =>
    simp only [Bridge.carryOut, onGroup]
    split <;> exact h
  | readForwarding clear =>
    simp only [Bridge.carryOut]
    split <;> exact h
  | save =>
    simp only [Bridge.carryOut, plain, beginSave]
    split <;> exact h
  | resetBridge => exact h.requestReset _
  | resetPort sel => exact h.onPort sel fun _ => h.requestReset _

theorem manageAnswer (h : b.AllowanceSound) (a : Asker) (l : List Byte) : (b.manageAnswer a l).2.AllowanceSound := by
  cases a with
  | coax p src dst seq e =>
    have hs := h.sendEach [p] (Block.build src dst .manage seq l) .agent none
    simp only [Bridge.manageAnswer]
    split <;> exact hs
  | pair mac dst tag seq e =>
    have hs := h.sendPair { mac, kind := .manage, seq, tag, dst := e.getD 0, src := dst, data := l } .agent
    simp only [Bridge.manageAnswer]
    split <;> next heq => rw [heq] at hs; exact hs

theorem takeManage (h : b.AllowanceSound) (a : Asker) (code sel : Nat) (r : Option ManageReq) :
    (b.takeManage a code sel r).AllowanceSound := by
  unfold Bridge.takeManage
  extract_lets x c y
  have hc : c.AllowanceSound := by
    unfold c x
    split
    · split
      · exact h.carryOut _
      · exact h
    · exact h
  have hy : y.2.AllowanceSound := hc.manageAnswer a _
  unfold Bridge.armReset
  split <;> exact hy

/-! ## Arrivals -/

theorem placeData (h : b.AllowanceSound) (ps : List Port) (x : Block) : (b.placeData ps x).AllowanceSound := by
  have hs := h.sendEach ps x .forward none
  unfold Bridge.placeData
  simp only
  split <;> exact hs

theorem placePairData (h : b.AllowanceSound) (x : Carrier) : (b.placePairData x).AllowanceSound := by
  have hs := h.sendPair x .forward
  unfold Bridge.placePairData
  split <;> next heq => rw [heq] at hs; exact hs

theorem forwardData (h : b.AllowanceSound) (src : Option DirNo) (n : DirNo) (e : Entry) (a : Arrival) :
    (b.forwardData src n e a).AllowanceSound := by
  unfold Bridge.forwardData
  split
  · exact h
  · split
    · split
      · exact h.placeData _ _
      · exact h
    · exact h.placePairData _
    · exact h

theorem copyToSegment (src : Option DirNo) (a : Arrival) (h : b.AllowanceSound) (t : Port) :
    (Bridge.copyToSegment src a b t).AllowanceSound := by
  unfold Bridge.copyToSegment
  extract_lets ps
  split
  · exact h
  · split
    · exact h.placeData _ _
    · exact h

theorem broadcast (h : b.AllowanceSound) (src : Option DirNo) (a : Arrival) : (b.broadcast src a).AllowanceSound := by
  unfold Bridge.broadcast
  split
  · exact h
  · split
    · extract_lets s set c
      have hc : c.AllowanceSound := .foldl (copyToSegment src _) _ h
      split
      · unfold copyToPair
        split
        · exact hc.placePairData _
        · exact hc
      · exact hc
    · exact .foldl (copyToSegment src _) _ h

theorem refuse (h : b.AllowanceSound) (a : Asker) : (b.refuse a).AllowanceSound := h.answer _ _ _

theorem answerArrival (h : b.AllowanceSound) (src : Option DirNo) (a : Arrival) : (b.answerArrival src a).AllowanceSound := by
  unfold Bridge.answerArrival
  split
  · exact h.printerAnswer _ _ _ _
  · split
    · exact h
    · split
      · exact h.exchangeCoaxAnswer _ _
      · exact h.exchangePairAnswer _

theorem printArrival (h : b.AllowanceSound) (src : Option DirNo) (n : DirNo) (a : Arrival) : (b.printArrival src n a).AllowanceSound := by
  unfold Bridge.printArrival
  split
  · exact h.printRequest _ _ _ _ _ _
  · exact h.refuse _

theorem dispatchTarget (h : b.AllowanceSound) (src : Option DirNo) (n : DirNo) (e : Entry) (a : Arrival) :
    (b.dispatchTarget src n e a).AllowanceSound := by
  unfold Bridge.dispatchTarget
  split
  · exact h.answerArrival _ _
  · split
    · split
      · exact h.forwardData _ _ _ _
      · exact h
    · unfold requestArrival
      split
      · split <;> exact h.takeRequest _ _ _ _ _ _
      · exact h.refuse _
    · exact h.printArrival _ _ _
    · exact h.printArrival _ _ _
    · exact h.printArrival _ _ _
    · split
      · exact h.takeManage _ _ _ _
      · exact h.refuse _
    · exact h

theorem relay (h : b.AllowanceSound) (p : Port) (blk : Block) : (b.relay p blk).AllowanceSound := by
  unfold Bridge.relay
  extract_lets q i x
  have hx : x.2.AllowanceSound := h.sendEach _ _ _ _
  split
  · split <;> exact hx
  · exact h

theorem relayIfSplit (h : b.AllowanceSound) (p : Port) (blk : Block) (k : Class) : (b.relayIfSplit p blk k).AllowanceSound := by
  unfold Bridge.relayIfSplit
  split
  · split
    · exact h.relay p blk
    · exact h
  · split
    · exact h.relay p blk
    · exact h
  · exact h

theorem heardPrinter (h : b.AllowanceSound) (src : Option DirNo) : (b.heardPrinter src).AllowanceSound := by
  unfold Bridge.heardPrinter
  split
  · split <;> exact h
  · exact h

theorem dispatchArrival (h : b.AllowanceSound) (src : Option DirNo) (k : Class) (a : Arrival) :
    (b.dispatchArrival src k a).AllowanceSound := by
  unfold Bridge.dispatchArrival
  extract_lets handed c
  have hc : c.AllowanceSound := by
    unfold c
    split
    · exact h
    · exact h.heardPrinter src
  clear_value c
  split
  · exact hc.broadcast _ _
  · exact hc
  · exact hc.dispatchTarget _ _ _ _
  · unfold dispatchPairLocal
    split
    · exact hc.answerArrival _ _
    · split
      · exact hc.refuse _
      · exact hc
  · unfold dispatchUnknown
    split
    · exact hc.answerArrival _ _
    · split <;> exact hc

theorem takeArrival (h : b.AllowanceSound) (src : ArrivalSource) : (b.takeArrival src).AllowanceSound := by
  cases src with
  | port p =>
    simp only [Bridge.takeArrival]
    split
    next a rest _ =>
      have hp : (b.modPort p fun x => { x with arrivals := rest }).AllowanceSound := h.ofPort p _ rfl rfl
      exact ((hp.steady (steady_sourceLookup _ _ _)).relayIfSplit _ _ _).dispatchArrival _ _ _
    next => exact h
  | pair =>
    simp only [Bridge.takeArrival]
    split
    next a rest _ =>
      have hp : (b.modPair fun x => { x with arrivals := rest }).AllowanceSound := h
      exact hp.dispatchArrival _ _ _
    next => exact h

/-! ## The pair port -/

theorem answerHello (h : b.AllowanceSound) (f : Carrier) (k : Kind) (reason dst : Nat) :
    (b.answerHello f k reason dst).AllowanceSound := by
  have hs := h.sendPair { mac := f.mac, kind := k, reason, seq := f.seq, tag := f.tag, dst, src := 1 } .answer
  unfold Bridge.answerHello
  split <;> next heq => rw [heq] at hs; exact hs

theorem hello (h : b.AllowanceSound) (f : Carrier) : (b.hello f).AllowanceSound := by
  unfold Bridge.hello
  split
  · exact (h.kept (.ofEntries b _)).answerHello _ _ _ _
  · split
    · exact h.answerHello _ _ _ _
    · split
      · exact (h.kept (.ofEntries b _)).answerHello _ _ _ _
      · exact (h.countCapture _ _ _).answerHello _ _ _ _

theorem receiveFrame (h : b.AllowanceSound) (f : EtherIn) : (b.receiveFrame f).AllowanceSound := by
  unfold Bridge.receiveFrame
  split
  · exact h
  split
  · exact h
  split
  · exact h
  split
  · exact h
  split
  · exact h
  split
  · exact h
  split
  · exact h
  next c _ =>
    unfold knowSender
    split
    · exact h.hello c
    · split
      · unfold fromKnown
        extract_lets b₁ b₂
        have h₂ : b₂.AllowanceSound := by
          unfold b₂
          split <;> exact h
        exact h₂
      · split
        · exact h.takeManage _ _ _ _
        · exact h

theorem offerPairPlace : ∀ (l : List Lp) {b : Bridge}, b.AllowanceSound → (b.offerPairPlace l).AllowanceSound
  | [], _, h => h
  | l :: rest, b, h => by
    rw [Bridge.offerPairPlace]
    split
    next f _ =>
      exact kept (b := b.modPair fun x => { x with waiting := rest }) h ((kept_offerPair _ f).trans (kept_listedAccepted _ l))
    next => exact offerPairPlace rest h

theorem completeHandover (h : b.AllowanceSound) : b.completeHandover.AllowanceSound := by
  unfold Bridge.completeHandover
  split
  · extract_lets c
    have hc : c.AllowanceSound := h
    exact (offerPairPlace _ hc).steady (steady_sendReport _ _ _ _)
  · exact h

theorem linkComesUp (h : b.AllowanceSound) : b.linkComesUp.AllowanceSound := by
  unfold Bridge.linkComesUp
  split
  next => exact refreshReach (b := b.modPair fun x => { x with link := true, waitFrom := none }) h
  next => exact h

theorem indicationBreak (h : b.AllowanceSound) : b.indicationBreak.AllowanceSound := by
  unfold Bridge.indicationBreak
  split <;> exact h

theorem linkGoesDown (h : b.AllowanceSound) : b.linkGoesDown.AllowanceSound := by
  unfold Bridge.linkGoesDown
  split
  · have he : b.linkEmptied.AllowanceSound := h
    exact he.steady (steady_linkLost b)
  · exact h.indicationBreak

/-! ## Coax commands -/

theorem receiveBurst (h : b.AllowanceSound) (p : Port) (x : Burst) : (b.receiveBurst p x).AllowanceSound := by
  unfold Bridge.receiveBurst
  split
  · exact h
  · split
    · exact h
    · unfold handOn
      split
      · exact h.ofPort p _ rfl rfl
      · exact h

theorem keepAmplitude (h : b.AllowanceSound) (p : Port) (x : Burst) : (b.keepAmplitude p x).AllowanceSound := by
  unfold Bridge.keepAmplitude
  split
  · exact h.ofPort p _ rfl rfl
  · exact h

/-- An attempt charges what the allowance covers (R98). -/
theorem startAttempt (h : b.AllowanceSound) (p : Port) : (b.startAttempt p).AllowanceSound := by
  unfold Bridge.startAttempt
  split
  · split
    · exact h.ofPort p _ rfl rfl
    next f rest _ _ =>
      split
      · intro q
        rw [port_modPort]
        split
        · refine ⟨?_, (h q).2⟩
          have hle : (startClass1 b.now f rest (b.port q)).allowance ≤ (b.port q).allowance := by
            simp only [startClass1]
            split
            · exact Nat.le_refl _
            · exact Nat.sub_le _ _
          exact hle.trans (h q).1
        · exact h q
      · exact h
    · exact h
  · exact h

theorem collide (h : b.AllowanceSound) (p : Port) : (b.collide p).AllowanceSound := by
  unfold Bridge.collide
  split
  next a _ =>
    extract_lets c
    have hc : c.AllowanceSound := h.ofPort p _ rfl rfl
    clear_value c
    split
    next f _ =>
      split
      · extract_lets ends
        have hw : (c.writeHead p a.class0 { f with attempts := f.attempts + 1 }).AllowanceSound := by
          refine hc.ofPort p _ ?_ ?_ <;> split <;> rfl
        have hb : ((c.writeHead p a.class0 { f with attempts := f.attempts + 1 }).modPort p fun x =>
            { x with backoff := some ends }).AllowanceSound := hw.ofPort p _ rfl rfl
        exact hb
      · have hd : (c.countLine p .excessCollision).AllowanceSound := hc
        exact (hd.steady (steady_removeHead _ p _)).steady (steady_frameLost _ _ f)
    next => exact hc
  next => exact h

theorem frameSent (h : b.AllowanceSound) (f : CoaxFrame) : (b.frameSent f).AllowanceSound := by
  have hm : (b.markSent f.serial).AllowanceSound := by
    intro q
    have hp : (b.markSent f.serial).port q = { b.port q with
        class0 := ((b.markSent f.serial).port q).class0, class1 := ((b.markSent f.serial).port q).class1 } := by
      simp [markSent, port]
    rw [hp]
    exact h q
  unfold Bridge.frameSent
  simp only
  split
  · exact hm
  · exact hm.steady (steady_sendReport _ _ _ _)

theorem completeSend (h : b.AllowanceSound) (p : Port) : (b.completeSend p).AllowanceSound := by
  unfold Bridge.completeSend
  split
  · split
    · extract_lets frame c
      have hc : c.AllowanceSound := h.ofPort p _ rfl rfl
      clear_value c frame
      split
      · exact (hc.steady (steady_removeHead _ p _)).frameSent _
      · exact hc
    · exact h
  · exact h

theorem endBackoff (h : b.AllowanceSound) (p : Port) : (b.endBackoff p).AllowanceSound := by
  unfold Bridge.endBackoff
  split
  · exact h.ofPort p _ rfl rfl
  · exact h

/-- A refill stops at the cap and leaves less than a hundredth's worth of remainder (R97). -/
theorem refillPort (h : b.AllowanceSound) (p : Port) :
    (b.modPort p (refill (b.portSettings p).share (b.portSettings p).cap)).AllowanceSound := by
  intro q
  rw [port_modPort]
  split
  next e =>
    subst e
    exact ⟨Nat.min_le_left _ _, Nat.mod_lt _ (by decide)⟩
  next => exact h q

theorem refillAll (h : b.AllowanceSound) : b.refillAll.AllowanceSound := by
  unfold Bridge.refillAll
  split
  · have hf : ((List.finRange 4).foldl
        (fun b p => b.modPort p (refill (b.portSettings p).share (b.portSettings p).cap)) b).AllowanceSound :=
      .foldl (fun h p => h.refillPort p) _ h
    exact hf
  · exact h

theorem endAgeingPeriod (h : b.AllowanceSound) : b.endAgeingPeriod.AllowanceSound := by
  unfold Bridge.endAgeingPeriod
  split
  · extract_lets c
    have hc : c.AllowanceSound := h
    exact hc.freed (freed_freeEntries _ c)
  · exact h

/-! ## Line and feed commands -/

theorem ofMon (h : b.AllowanceSound) (p : Port) (f : Monitor → Monitor) : (b.modMon p f).AllowanceSound := h.ofPort p _ rfl rfl

theorem testRunEnds (h : b.AllowanceSound) (p : Port) (r : TestResult) : (b.testRunEnds p r).AllowanceSound := by
  unfold Bridge.testRunEnds
  split
  · exact h.lawful (lawful_testResult b p r)
  · exact h

theorem testInterrupted (h : b.AllowanceSound) (p : Port) : (b.testInterrupted p).AllowanceSound := by
  unfold Bridge.testInterrupted
  split
  · exact h.lawful (lawful_interruptTest b p)
  · exact h

theorem testResumes (h : b.AllowanceSound) (p : Port) : (b.testResumes p).AllowanceSound := by
  unfold Bridge.testResumes
  split
  · exact h.ofMon p _
  · exact h

theorem shortDetected (h : b.AllowanceSound) (p : Port) (t : Nat) : (b.shortDetected p t).AllowanceSound := by
  unfold Bridge.shortDetected
  split
  · exact h.lawful (lawful_detect b p _ _ fun b => lawful_isolate b p _)
  · exact h

theorem jabberDetected (h : b.AllowanceSound) (p : Port) : (b.jabberDetected p).AllowanceSound := by
  unfold Bridge.jabberDetected
  split
  · refine lawful (h.ofPort p _ rfl rfl) (lawful_detect _ p _ _ fun b => lawful_isolate b p _)
  · exact h

theorem jabberRecovers (h : b.AllowanceSound) (p : Port) : (b.jabberRecovers p).AllowanceSound := by
  unfold Bridge.jabberRecovers
  split
  · exact h.lawful (lawful_leaveHold b p _)
  · exact h

theorem echoMeasured (h : b.AllowanceSound) (p : Port) (a : Nat) : (b.echoMeasured p a).AllowanceSound := by
  unfold Bridge.echoMeasured
  split
  · exact h.lawful (lawful_measureEcho b p a)
  · exact h

theorem sampleDue (h : b.AllowanceSound) (p : Port) (w : Option Nat) : (b.sampleDue p w).AllowanceSound := by
  unfold Bridge.sampleDue
  split
  · exact h.lawful (lawful_takeSample b p w)
  · exact h

theorem switchWindowCloses (h : b.AllowanceSound) (i : PairNo) : (b.switchWindowCloses i).AllowanceSound := by
  unfold Bridge.switchWindowCloses
  split
  · exact h.lawful (lawful_feedEvent b i _)
  · exact h

theorem splitWindowCloses (h : b.AllowanceSound) (i : PairNo) : (b.splitWindowCloses i).AllowanceSound := by
  unfold Bridge.splitWindowCloses
  split
  · exact h.lawful (lawful_splitNow b i)
  · exact h

theorem probeFallsDue (h : b.AllowanceSound) (i : PairNo) : (b.probeFallsDue i).AllowanceSound := by
  unfold Bridge.probeFallsDue
  split
  · split <;> exact h
  · exact h

theorem pulse (h : b.AllowanceSound) (i : PairNo) (a : Nat) (foreign : Bool) : (b.pulse i a foreign).AllowanceSound := by
  unfold Bridge.pulse
  split
  · extract_lets level disturbed c
    have hc : c.AllowanceSound := .foldl (fun h p => h.ofPort p _ rfl rfl) _ h
    split
    · exact hc.lawful ((lawful_feedEvent c i _).trans (.ofFeed _ i _))
    · exact hc
  · exact h

/-! ## Resets and the load -/

/-- A port that starts anew has its cap (R96). -/
theorem restartPort (h : b.AllowanceSound) (p : Port) (k : FaultSet) : (b.restartPort p k).AllowanceSound := by
  rw [restartPort_eq]
  exact h.lawful (.ofPort b p _ (fun _ => Nat.le_refl _) (fun _ => Nat.zero_lt_succ _) fun _ => ⟨rfl, rfl⟩)

theorem followBoth (h : b.AllowanceSound) : b.followBoth.2.AllowanceSound :=
  h.lawful ((lawful_follow b 0).trans (lawful_follow _ 1))

theorem restartFeed (h : b.AllowanceSound) (i : PairNo) (on : Bool) (k : Counters) : (b.restartFeed i on k).AllowanceSound :=
  freed (b := b.modFeed i fun _ => Feed.restart on k) h (freed_restartFeed b i on k)

theorem softReset (h : b.AllowanceSound) : b.softReset.AllowanceSound := by
  have h₁ : b.softEmptied.AllowanceSound := by
    have hp : ((List.finRange 4).foldl emptyPort b).AllowanceSound := .foldl (fun h p => h.lawful (lawful_takeFlush _ p)) _ h
    unfold softEmptied
    exact hp
  have h₂ : b.softClosed.AllowanceSound := by
    unfold softClosed
    exact .foldl (fun h t => h.steady (steady_closeExchange _ t)) _ h₁
  have h₃ : b.softStopped.AllowanceSound := by
    rw [softStopped_rest]
    exact h₂
  have h₄ : b.softPinned.AllowanceSound := freed (b := b.softStopped.modDir fun d => { d with staging := [] }) h₃ (freed_softPinned b)
  have h₅ : b.softRestarted.AllowanceSound := by
    unfold softRestarted
    exact .foldl (fun h p => h.restartPort p _) _ h₄
  have h₆ : b.softFed.AllowanceSound := by
    unfold softFed
    exact (h₅.restartFeed _ _ _).restartFeed _ _ _
  have h₇ : b.softSettled.AllowanceSound := by
    unfold softSettled
    exact h₆.followBoth
  have h₈ : b.softEnded.AllowanceSound := by
    have hc := h₇.lawful (lawful_concludeChange b.softSettled b b.softFed.followBoth.1)
    unfold softEnded
    exact hc
  rw [softReset_eq]
  refine foldl (fun h j => ?_) _ h₈
  split
  · exact h.kept (kept_jobNotice _ j _ _)
  · exact h

theorem portReset (h : b.AllowanceSound) (p : Port) : (b.portReset p).AllowanceSound := by
  have h₁ : (b.portRestarted p).AllowanceSound := by
    intro q
    rw [port_portRestarted]
    split
    · exact ⟨Nat.le_refl _, Nat.zero_lt_succ _⟩
    · exact h q
  have h₂ : ((b.portRestarted p).resetFeed (pairOf p)).AllowanceSound :=
    freed (b := (b.portRestarted p).setFeeds ((b.portRestarted p).resetFeed (pairOf p)).feeds) h₁ (freed_resetFeed _ (pairOf p))
  have h₃ : (b.portFed p).AllowanceSound := h₂
  have h₄ : (b.portSettled p).AllowanceSound := h₃.lawful (lawful_follow _ _)
  exact h₄.steady (steady_portReset b p)

/-- Whatever the settings loaded, every port starts with its cap (R96, R192). -/
theorem startUp (b : Bridge) : b.startUp.AllowanceSound := by
  have ht : b.timed.AllowanceSound := ofFull fun p => by
    rw [port_timed]
    exact ⟨rfl, rfl⟩
  rw [startUp_eq_timed]
  exact ht.followBoth.lawful (lawful_concludeChange _ _ _)

theorem powerValues (b : Bridge) (ph : Phase) (k : ResetCause) : (b.powerValues ph k).AllowanceSound := by
  intro p
  have hp : (b.powerValues ph k).port p = b.powerPort p := port_setPorts_ofFn b b.powerPort p
  have hs : (b.powerValues ph k).portSettings p = {} := by simp [Bridge.powerValues, portSettings]
  rw [hp, hs]
  exact ⟨Nat.le_refl _, Nat.zero_lt_succ _⟩

theorem pinReset (h : b.AllowanceSound) : b.pinReset.AllowanceSound := by
  unfold Bridge.pinReset
  split
  · exact h
  · exact powerValues b _ _

theorem resetEnd (h : b.AllowanceSound) : b.resetEnd.AllowanceSound := by
  unfold Bridge.resetEnd
  split <;> exact h

theorem takeSoftReset (h : b.AllowanceSound) : b.takeSoftReset.AllowanceSound := by
  unfold Bridge.takeSoftReset
  split
  · split
    · exact h.softReset
    · exact h
  · exact h

theorem takePortReset (h : b.AllowanceSound) : b.takePortReset.AllowanceSound := by
  unfold Bridge.takePortReset
  split
  · split
    · split
      · exact h.portReset _
      · exact h
    · exact h
  · exact h

theorem takeLoadEnd (h : b.AllowanceSound) (ack : Bool) : (b.takeLoadEnd ack).AllowanceSound := by
  unfold Bridge.takeLoadEnd
  split
  · exact startUp _
  · exact h

theorem completeSave (h : b.AllowanceSound) (ack : Bool) : (b.completeSave ack).AllowanceSound := by
  unfold Bridge.completeSave
  split <;> exact h

/-! ## Commands -/

theorem whenRunning (h : b.AllowanceSound) {f : Bridge → Bridge} (hf : (f b).AllowanceSound) : (b.whenRunning f).AllowanceSound := by
  unfold Bridge.whenRunning
  split
  · exact hf
  · exact h

theorem whenPowered (h : b.AllowanceSound) {f : Bridge → Bridge} (hf : (f b).AllowanceSound) : (b.whenPowered f).AllowanceSound := by
  unfold Bridge.whenPowered
  split
  · exact hf
  · exact h

theorem receivesBlock (h : b.AllowanceSound) (p : Port) (x : Burst) :
    (((b.whenPowered (·.keepAmplitude p x)).carrierEnds p).whenPowered (·.receiveBurst p x)).AllowanceSound := by
  have hk : (b.whenPowered (·.keepAmplitude p x)).AllowanceSound := h.whenPowered (h.keepAmplitude p x)
  have hc : ((b.whenPowered (·.keepAmplitude p x)).carrierEnds p).AllowanceSound := hk.ofPort p _ rfl rfl
  exact hc.whenPowered (hc.receiveBurst p x)

end AllowanceSound
end Bridge

theorem allowanceSound_command {s t : State} {u : List Nat} {f : Bridge → Bridge} (hf : (f s.bridge).AllowanceSound)
    (ht : s.command u f = .next t) : t.bridge.AllowanceSound := by
  cases ht
  exact hf.settle _

/-- Every command keeps the allowances within their caps. -/
theorem allowanceSound_exec {s t : State} (c : Instr) (ht : exec c s = .next t) (h : s.bridge.AllowanceSound) :
    t.bridge.AllowanceSound := by
  have running {u : List Nat} {f : Bridge → Bridge} (hf : (f s.bridge).AllowanceSound)
      (e : s.command u (·.whenRunning f) = .next t) : t.bridge.AllowanceSound := allowanceSound_command (h.whenRunning hf) e
  have manage (a : Asker) (r : ManageReq) (e : s.manage a r = .next t) : t.bridge.AllowanceSound :=
    running (h.takeManage a _ _ _) e
  cases c with
  | receiveBlock p x =>
    exact allowanceSound_command
      (f := fun b => ((b.whenPowered (·.keepAmplitude p x)).carrierEnds p).whenPowered (·.receiveBurst p x)) (h.receivesBlock p x) ht
  | attemptStart p => exact running (h.startAttempt p) ht
  | collision p => exact running (h.collide p) ht
  | backoffEnd p => exact running (h.endBackoff p) ht
  | sendComplete p => exact running (h.completeSend p) ht
  | repeatMemoryExpire segment asker dst => exact running h ht
  | allowanceRefill => exact allowanceSound_command (h.whenPowered h.refillAll) ht
  | linkIndicationOn => exact allowanceSound_command (f := (·.indicationOn)) h ht
  | linkUp => exact running h.linkComesUp ht
  | linkDown => exact allowanceSound_command h.linkGoesDown ht
  | pairFrameReceive f => exact running (h.receiveFrame f) ht
  | pairSendComplete => exact running h.completeHandover ht
  | pairRepeatExpire asker dst tag => exact running h ht
  | takeArrival src upset => exact running (h.takeArrival src) ht
  | exchangeWindowClose tag => exact running (h.closeAnswerWindow tag) ht
  | busyDelayEnd tag => exact running (h.endBusyDelay tag) ht
  | exchangeTimeout tag => exact running (h.timeOutExchange tag) ht
  | jobStall job => exact running (h.jobStalls job) ht
  | ageingPeriodEnd => exact running h.endAgeingPeriod ht
  | paceRefill lp upset => exact running (h.paceRefills lp) ht
  | deliveryWindowClose lp upset => exact running (h.deliveryWindowCloses lp) ht
  | holdWaitEnd lp upset => exact running (h.holdWaitEnds lp) ht
  | statusQueryDue printer => exact running (h.pollDue printer) ht
  | queryWindowClose printer => exact running (h.queryWindowCloses printer) ht
  | pauseLimit printer => exact running (h.pauseEnds printer) ht
  | saveComplete ack => exact running (h.completeSave ack) ht
  | softReset => exact running h.takeSoftReset ht
  | portReset => exact running h.takePortReset ht
  | powerOn => exact allowanceSound_command (.powerValues _ _ _) ht
  | pinReset => exact allowanceSound_command h.pinReset ht
  | resetEnd => exact allowanceSound_command h.resetEnd ht
  | configLoadEnd ack => exact allowanceSound_command (h.takeLoadEnd ack) ht
  | testRunEnd p result => exact running (h.testRunEnds p result) ht
  | testInterrupt p => exact running (h.testInterrupted p) ht
  | testRunResume p => exact running (h.testResumes p) ht
  | shortDetection x => exact running (h.shortDetected _ _) ht
  | jabberDetection p => exact running (h.jabberDetected p) ht
  | jabberRecovery p => exact running (h.jabberRecovers p) ht
  | echoMeasurement p amplitude => exact running (h.echoMeasured p amplitude) ht
  | levelSample x => exact running (h.sampleDue _ _) ht
  | switchWindowClose k => exact running (h.switchWindowCloses k) ht
  | splitWindowClose k => exact running (h.splitWindowCloses k) ht
  | probeDue k => exact running (f := (·.probeFallsDue k)) (h.probeFallsDue k) ht
  | probePulse k amplitude foreign => exact running (h.pulse k amplitude foreign) ht
  | linkIndicationBreak => exact allowanceSound_command h.indicationBreak ht
  | foreignCarrierStart p => exact allowanceSound_command (f := (·.carrierStarts p)) (h.ofPort p _ rfl rfl) ht
  | _ => exact manage _ _ ht

/-- Settles O5: only the refill, the charge of an attempt, a changed cap, a port that starts anew and a reset touch an allowance, and each
leaves it within its cap. -/
theorem allowanceStaysWithinCap : Obligations.AllowanceStaysWithinCap := by
  intro s t hs ht
  unfold step at ht
  split at ht
  · cases ht
    exact hs
  · exact allowanceSound_exec _ ht hs

end Sys2Proof.Machine

/-! # The refill of the allowances (O16). -/

namespace Sys2Proof.Machine
open Sys2Proof

/-! ## The refill every millisecond (R97) -/

/-- The remainder of a division as the dividend less the whole part. -/
theorem refill_eq (share cap : Nat) (x : PortState) : Bridge.refill share cap x =
    { x with remainder := x.remainder + 125 * share - 100 * ((x.remainder + 125 * share) / 100),
             allowance := min (x.allowance + (x.remainder + 125 * share) / 100) cap } := by
  simp only [Bridge.refill, Nat.min_comm cap, Nat.mod_eq_sub]

namespace Bridge

theorem refillAll_due (b : Bridge) (h : b.refillDue ≤ b.ctl.now) : b.refillAll =
    (b.setPorts (Vector.ofFn fun p => refill (b.portSettings p).share (b.portSettings p).cap (b.port p))).setRefillDue
      (b.refillDue + 125) := by
  have hf := foldl_onPorts (fun b p => b.modPort p (refill (b.portSettings p).share (b.portSettings p).cap))
    (fun _ y p => refill y.port[p].share y.port[p].cap) (fun _ _ => rfl) _ (List.nodup_finRange 4) b
  simp only [List.mem_finRange, if_true] at hf
  rw [refillAll, if_pos h, hf]
  rfl

theorem refillAll_waits (b : Bridge) (h : b.ctl.now < b.refillDue) : b.refillAll = b := if_neg (Nat.not_le.2 h)

theorem whenPowered_run (b : Bridge) (f : Bridge → Bridge) (h : b.ctl.phase = .running ∨ b.ctl.phase = .loading) :
    b.whenPowered f = f b := if_pos h

end Bridge

/-- Settles O16: the four ports are refilled one after another, each by its own settings. -/
theorem allowanceIsRefilledEachMillisecond : Obligations.AllowanceIsRefilledEachMillisecond := by
  intro s hs
  have hexec : exec .allowanceRefill s = .next (s.after [] s.bridge.refillAll) :=
    State.after_congr s [] (s.bridge.whenPowered_run (·.refillAll) hs)
  refine ⟨fun h => hexec.trans (State.after_congr s [] ?_), fun h => hexec.trans (State.after_congr s [] (s.bridge.refillAll_waits h))⟩
  rw [s.bridge.refillAll_due h]
  simp only [refill_eq]
  rfl

end Sys2Proof.Machine

/-! # DATA forwarded and broadcasts copied (O19, O28). -/

namespace Sys2Proof.Machine
open Sys2Proof

namespace Bridge

/-! ## DATA placed on queues (R88, R91) -/

section
variable (b : Bridge) {ps : List Port} (blk : Block) (hn : ps.Nodup)
include hn

theorem placeData_room (h : ∀ q ∈ ps, ¬ b.full1 q) : b.placeData ps blk = b.offeredOn ps blk .forward none := by
  have hf : (ps.filter fun p => !b.hasPlace p) = [] :=
    List.filter_eq_nil_iff.2 fun q hq => by rw [(b.hasPlace_iff q).2 (h q hq)]; decide
  simp only [placeData, sendEach_nodup _ _ _ _ _ hn, hf]
  rfl

theorem placeData_full (h : ∃ q ∈ ps, b.full1 q) :
    b.placeData ps blk = (b.offeredOn ps blk .forward none).countForward .queueFull := by
  obtain ⟨q, hq, hf⟩ := h
  have hr : b.hasPlace q = false := Bool.eq_false_iff.2 fun hp => (b.hasPlace_iff q).1 hp hf
  have hne : (ps.filter fun p => !b.hasPlace p).isEmpty = false :=
    List.isEmpty_eq_false_iff_exists_mem.2 ⟨q, List.mem_filter.2 ⟨hq, by rw [hr]; rfl⟩⟩
  simp only [placeData, sendEach_nodup _ _ _ _ _ hn, hne]
  rfl

end

theorem placePairData_room (b : Bridge) (c : Carrier) (hl : b.pair.link = true) (hq : b.pair.queue.length < 48) :
    b.placePairData c = b.queuedPair c .forward := by
  simp only [placePairData, sendPair_accepted b c .forward hl hq]

theorem placePairData_full (b : Bridge) (c : Carrier) (hl : b.pair.link = true) (hq : 48 ≤ b.pair.queue.length) :
    b.placePairData c = (b.setSerial (b.serial + 1)).countForward .queueFull := by
  simp only [placePairData, sendPair_refused b c .forward hl hq]

/-! ## The number a forwarded block is sent under (R87, R90) -/

theorem sourceOn_eq (b : Bridge) (src : Option DirNo) (t : Port) :
    b.sourceOn src t = (src.bind fun m => b.numberOf m t).or (b.bridgeNumberOn t) := Option.orElse_eq_or

/-! ## DATA to a STATION (R86 to R91) -/

section
variable (b : Bridge) (src : Option DirNo) (n : DirNo) (e : Entry) (a : Arrival)

theorem forwardData_unreachable (he : e.reachable = false) : b.forwardData src n e a = b.countForward .destUnreachable := by
  simp [forwardData, he]

theorem forwardData_noNumber {t : Port} {num : Nat} (he : e.reachable = true) (hh : e.home = .seg t num)
    (hs : b.sourceOn src t = none) : b.forwardData src n e a = b.countForward .noNumber := by
  simp [forwardData, he, hh, hs]

theorem forwardData_coax {t : Port} {num k : Nat} (he : e.reachable = true) (hh : e.home = .seg t num)
    (hs : b.sourceOn src t = some k) :
    b.forwardData src n e a = b.placeData (b.endsFor t e.endField) (b.dataBlock src num k a) := by
  simp [forwardData, he, hh, hs]

theorem forwardData_pair {mac : Mac} {order : Order} (he : e.reachable = true) (hh : e.home = .pair mac order) :
    b.forwardData src n e a =
      b.placePairData { mac, kind := .data, dst := n, src := src.getD 1, data := inOrder order a.content } := by
  simp [forwardData, he, hh]

end

/-! ## Copies of a broadcast (R93, R94) -/

theorem ableEnds_nodup (b : Bridge) (t : Port) : (b.ableEnds t).Nodup := by
  refine List.Nodup.filter _ ?_
  split
  · simp [lowerOf_ne_upperOf]
  · exact List.nodup_singleton t

section
variable (src : Option DirNo) (a : Arrival) (b : Bridge) (t : Port)

theorem copyToSegment_mute (h : b.ableEnds t = []) : copyToSegment src a b t = b.countForward .destUnreachable := by
  simp [copyToSegment, h]

theorem copyToSegment_noNumber (h : b.ableEnds t ≠ []) (hs : b.sourceOn src t = none) :
    copyToSegment src a b t = b.countForward .noNumber := by
  simp [copyToSegment, h, hs]

theorem copyToSegment_sent {k : Nat} (h : b.ableEnds t ≠ []) (hs : b.sourceOn src t = some k) :
    copyToSegment src a b t = b.placeData (b.ableEnds t) (b.dataBlock src 255 k a) := by
  simp [copyToSegment, h, hs]

end

/-- The segments that a broadcast set names, less one (R92; log 24). -/
theorem members_less (b : Bridge) (set : PortSet) (own : Port) : b.members set (some own) =
    (List.finRange 4).filter fun t => b.segmentOf t = t ∧ t ≠ own ∧ ∃ q : Port, set[q] = true ∧ b.segmentOf q = t := by
  rw [members, segments, List.filter_filter]
  refine List.filter_congr fun t _ => Bool.eq_iff_iff.2 ?_
  simp [and_comm]

/-- The segments that a broadcast set names (R92; log 24). -/
theorem members_all (b : Bridge) (set : PortSet) : b.members set none =
    (List.finRange 4).filter fun t => b.segmentOf t = t ∧ ∃ q : Port, set[q] = true ∧ b.segmentOf q = t := by
  rw [members, segments, List.filter_filter]
  refine List.filter_congr fun t _ => Bool.eq_iff_iff.2 ?_
  simp [and_comm]

end Bridge

/-- Settles O19: which copies a broadcast has, and the fate of a copy for a segment and of the copy for the pair side. -/
theorem broadcastsAreCopied : Obligations.BroadcastsAreCopied := by
  refine ⟨fun b src a h => if_pos h, fun b src p blk h => ?_, fun b src f h => ?_, fun b src a t _ => ?_, fun b src p blk => ?_⟩
  · simp only [Bridge.broadcast, Arrival.kind, h, Bridge.members_less]
    rfl
  · simp only [Bridge.broadcast, Arrival.kind, h, Bridge.members_all]
    rfl
  · refine ⟨b.copyToSegment_mute src a t, fun hps hk => b.copyToSegment_noNumber src a t hps ((b.sourceOn_eq src t).trans hk),
      fun k blk hps hk hcoax hcarrier => ?_⟩
    have hblk : b.dataBlock src 255 k a = blk := by
      cases a with
      | coax p x => exact (hcoax p x rfl).symm
      | carrier f => exact (hcarrier f rfl).symm
    have hsent := b.copyToSegment_sent src a t hps ((b.sourceOn_eq src t).trans hk)
    rw [hblk] at hsent
    exact ⟨fun hr => hsent.trans (b.placeData_room blk (b.ableEnds_nodup t) hr),
      fun hf => hsent.trans (b.placeData_full blk (b.ableEnds_nodup t) hf)⟩
  · refine ⟨fun hl => ?_, fun hl hq => ?_, fun hl hq => ?_⟩
    · simp [Bridge.copyToPair, hl]
    · exact (if_pos hl).trans (b.placePairData_room _ hl hq)
    · exact (if_pos hl).trans (b.placePairData_full _ hl hq)

end Sys2Proof.Machine

/-! # Unicast DATA forwarded (O28). -/

namespace Sys2Proof.Machine
open Sys2Proof

namespace Bridge

/-! ## A silent PRINTER that is heard (R83, R150; log 64) -/

theorem heardPrinter_none (b : Bridge) : b.heardPrinter none = b := rfl

theorem heardPrinter_printer (b : Bridge) {n : DirNo} {e : Entry} (he : b.entry n = some e) (hk : e.kind = .printer) :
    b.heardPrinter (some n) = b.modPrinter n fun r =>
      if r.status = .notResponding then { r with status := .unknown, pollFrom := none } else r := by
  simp [heardPrinter, he, hk, leaveSilence]

theorem heardPrinter_other (b : Bridge) {n : DirNo} {e : Entry} (he : b.entry n = some e) (hk : e.kind ≠ .printer) :
    b.heardPrinter (some n) = b := by
  simp [heardPrinter, he, hk]

/-- Hearing a printer changes the delivery unit's records only. -/
theorem heardPrinter_delivery (b : Bridge) (src : Option DirNo) : ∃ f, b.heardPrinter src = b.modDelivery f := by
  unfold heardPrinter
  split
  · split
    · unfold leaveSilence modPrinter
      exact ⟨_, rfl⟩
    · exact ⟨id, rfl⟩
  · exact ⟨id, rfl⟩

theorem relayIfSplit_target (b : Bridge) (p : Port) (blk : Block) (n : DirNo) (e : Entry) :
    b.relayIfSplit p blk (.target n e) = b := rfl

theorem relayIfSplit_unknown (b : Bridge) (p : Port) (blk : Block) : b.relayIfSplit p blk .unknown = b := rfl

/-- What forwarding reads of a bridge is as it was before a printer was heard. -/
structure Reads (b c : Bridge) : Prop where
  ends : ∀ t e, c.endsFor t e = b.endsFor t e
  source : ∀ src t, c.sourceOn src t = b.sourceOn src t
  full : ∀ q, c.full1 q ↔ b.full1 q
  pair : c.pair = b.pair

theorem reads_heardPrinter (b : Bridge) (src : Option DirNo) : Reads b (b.heardPrinter src) := by
  obtain ⟨f, hf⟩ := b.heardPrinter_delivery src
  rw [hf]
  exact ⟨fun _ _ => rfl, fun _ _ => rfl, fun _ => Iff.rfl, rfl⟩

end Bridge

/-- A DATA block whose destination is a target that is a STATION is forwarded to it (R79, R81). -/
theorem exec_takeArrival_station (s : State) (p : Port) (u : List Nat) {a : CoaxArrival} {rest : List CoaxArrival}
    {src : Option DirNo} {b : Bridge} {n : DirNo} {e : Entry} (ht : s.takesTraffic) (ha : (s.bridge.port p).arrivals = a :: rest)
    (hl : (s.bridge.modPort p fun x => { x with arrivals := rest }).sourceLookup p a.block.src = (src, b))
    (hd : a.block.dst ≠ 255) (hh : findHome b.dir.entries (b.segmentOf p) a.block.dst = none)
    (hs : findOn b.dir.entries (b.segmentOf p) a.block.dst = some (n, e)) (hk : a.block.kind = .data) (he : e.kind = .station) :
    exec (.takeArrival (.port p) u) s = .next (s.after u ((b.heardPrinter src).forwardData src n e (.coax p a.block))) := by
  refine (exec_takeArrival_port s p u ht ha hl).trans (State.after_congr s u ?_)
  have hkind : (Arrival.coax p a.block).kind = .data := hk
  have hask : (Arrival.coax p a.block).isAnswer = false := Bridge.isAnswer_data p hk
  rw [Bridge.coaxClass_target hd hh hs, Bridge.relayIfSplit_target, Bridge.dispatchArrival_target]
  simp [Bridge.dispatchTarget, hask, hkind, he]

/-- Settles O28: the station unreachable, on coax with a source number or without, and on the pair side. -/
theorem unicastDataIsForwarded : Obligations.UnicastDataIsForwarded := by
  intro s p u a rest src b n e ht ha hl hd hh hs hk he c
  have hexec := exec_takeArrival_station s p u ht ha hl hd hh hs hk he
  have reads : Bridge.Reads b c := b.reads_heardPrinter src
  have leaves {d : Bridge} (h : c.forwardData src n e (.coax p a.block) = d) :
      exec (.takeArrival (.port p) u) s = .next (s.after u d) := hexec.trans (State.after_congr s u h)
  refine ⟨fun hr => leaves (c.forwardData_unreachable src n e _ hr), fun t num k hr hhome hnum => ?_,
    fun t num hr hhome hnum hbridge => ?_, fun mac order hr hhome hlink => ?_⟩
  · have hk : c.sourceOn src t = some k := by
      rw [reads.source, Bridge.sourceOn_eq]
      obtain h | ⟨h, hb⟩ := hnum
      · rw [h]
        rfl
      · rw [h]
        exact hb
    intro ps d
    have hsent := c.forwardData_coax src n e (.coax p a.block) hr hhome hk
    rw [reads.ends] at hsent
    split
    next hf =>
      obtain ⟨q, hq, hfull⟩ := hf
      exact leaves (hsent.trans (c.placeData_full _ (b.endsFor_nodup t e.endField) ⟨q, hq, (reads.full q).2 hfull⟩))
    next hroom =>
      exact leaves (hsent.trans (c.placeData_room _ (b.endsFor_nodup t e.endField) fun q hq hfull =>
        hroom ⟨q, hq, (reads.full q).1 hfull⟩))
  · refine leaves (c.forwardData_noNumber src n e _ hr hhome ?_)
    rw [reads.source, Bridge.sourceOn_eq, hnum]
    exact hbridge
  · have hsent := c.forwardData_pair src n e (.coax p a.block) hr hhome
    have hup : c.pair.link = true := by rw [reads.pair]; exact hlink
    split
    next hq => exact leaves (hsent.trans (c.placePairData_room _ hup (by rw [reads.pair]; exact hq)))
    next hq => exact leaves (hsent.trans (c.placePairData_full _ hup (by rw [reads.pair]; exact Nat.le_of_not_lt hq)))

end Sys2Proof.Machine

/-! # Arrivals dispatched by class, kind and target (O29). -/

namespace Sys2Proof.Machine
open Sys2Proof

namespace Arrival

/-! ## What an arrival answers (R83, R145, R146) -/

variable {a : Arrival}

theorem statusCode_none (h : a.kind ≠ .status) : a.statusCode = none := by
  cases a with
  | coax p blk => exact if_neg h
  | carrier f => exact if_neg h

theorem isAnswer_iff (a : Arrival) : a.isAnswer = true ↔
    a.kind = .reply ∨ a.kind = .hold ∨ a.kind = .busy ∨ a.kind = .fail ∨ (a.kind = .status ∧ a.statusCode ≠ none) := by
  have hs : a.statusCode ≠ none → a.kind = .status := fun h => by
    by_contra hk
    exact h (statusCode_none hk)
  rw [isAnswer, Bool.or_eq_true, Option.isSome_iff_ne_none]
  cases hk : a.kind <;> simp_all [Kind.isAnswer]

/-- A kind that is neither an answer kind nor STATUS is no answer. -/
theorem not_isAnswer (hs : a.kind ≠ .status) (hk : a.kind.isAnswer = false) : a.isAnswer = false := by
  rw [isAnswer, hk, statusCode_none hs]
  rfl

theorem isAnswer_of_data (h : a.kind = .data) : a.isAnswer = false :=
  not_isAnswer (by rw [h]; decide) (by rw [h]; rfl)

theorem isAnswer_of_notice (h : a.kind = .notice) : a.isAnswer = false :=
  not_isAnswer (by rw [h]; decide) (by rw [h]; rfl)

theorem isRequestLike_iff (k : Kind) :
    k.isRequestLike = true ↔ k = .request ∨ k = .printOpen ∨ k = .printData ∨ k = .printClose ∨ k = .manage := by
  cases k <;> decide

theorem isAnswer_of_requestLike (h : a.kind.isRequestLike = true) : a.isAnswer = false := by
  refine not_isAnswer (fun hs => ?_) ?_
  · rw [hs] at h
    cases h
  · generalize a.kind = k at h
    revert h
    cases k <;> decide

/-- What an arrival of each answer kind answers a printer's question with. -/
theorem printerAnswer_kinds (a : Arrival) :
    (a.kind = .reply → a.printerAnswer = some .reply) ∧
    (a.kind = .hold → a.printerAnswer = some (.hold (read16 a.content 0))) ∧
    (a.kind = .busy → a.printerAnswer = some .busy) ∧ (a.kind = .fail → a.printerAnswer = some .fail) ∧
    (∀ x, a.kind = .status → a.statusCode = some x → a.printerAnswer = some (.status x)) := by
  refine ⟨fun h => ?_, fun h => ?_, fun h => ?_, fun h => ?_, fun x h hx => ?_⟩
  · simp [printerAnswer, h]
  · simp [printerAnswer, h]
  · simp [printerAnswer, h]
  · simp [printerAnswer, h]
  · simp [printerAnswer, h, hx]

end Arrival

namespace Bridge

/-! ## The source entry and the class of a carrier frame (R79, R82; log 27) -/

theorem mac?_eq_some (h : Home) (m : Mac) : h.mac? = some m ↔ h = .pair m .asSent ∨ h = .pair m .swapped := by
  cases h with
  | pair k o => cases o <;> simp [Home.mac?]
  | _ => simp [Home.mac?]

theorem mac?_isSome (h : Home) : h.mac?.isSome = true ↔ ∃ m o, h = .pair m o := by
  cases h with
  | pair k o => exact ⟨fun _ => ⟨k, o, rfl⟩, fun _ => rfl⟩
  | _ => simp [Home.mac?]

theorem sourceStands_found (b : Bridge) (f : Carrier) {n : DirNo} {e : Entry} (h : b.entry n = some e) :
    b.sourceStands f n =
      if e.state ≠ .learned ∨ e.home = .pair f.mac .asSent ∨ e.home = .pair f.mac .swapped then some n else none := by
  simp [sourceStands, h, mac?_eq_some]

theorem sourceStands_freed (b : Bridge) (f : Carrier) {n : DirNo} (h : b.entry n = none) : b.sourceStands f n = none := by
  simp [sourceStands, h]

section
variable (b : Bridge) (src : Option DirNo) {d : Nat} {e : Entry}

theorem pairClass_everyone : b.pairClass src 0 = .everyone := if_pos rfl

theorem pairClass_pairLocal (hd : d ≠ 0) (h : b.entry d = some e) (hr : e.state ≠ .retiring)
    (hl : (∃ m o, e.home = .pair m o) ∨ src = some d) : b.pairClass src d = .pairLocal := by
  rw [← mac?_isSome] at hl
  simp only [pairClass, if_neg hd, h, Option.filter_some, Entry.inPlan, hr, ne_eq, not_false_eq_true, decide_true, if_true, if_pos hl]

theorem pairClass_target (hd : d ≠ 0) (h : b.entry d = some e) (hr : e.state ≠ .retiring)
    (hh : ∀ m o, e.home ≠ .pair m o) (hs : src ≠ some d) : b.pairClass src d = .target d e := by
  have hl : ¬ (e.home.mac?.isSome = true ∨ src = some d) := by
    rw [mac?_isSome]
    exact fun h => h.elim (fun ⟨m, o, h⟩ => hh m o h) hs
  simp only [pairClass, if_neg hd, h, Option.filter_some, Entry.inPlan, hr, ne_eq, not_false_eq_true, decide_true, if_true, if_neg hl]

theorem pairClass_unknown (hd : d ≠ 0) (h : b.entry d = none ∨ ∃ e, b.entry d = some e ∧ e.state = .retiring) :
    b.pairClass src d = .unknown := by
  obtain h | ⟨e, h, hr⟩ := h
  · simp only [pairClass, if_neg hd, h, Option.filter_none]
  · have hp : Entry.inPlan e = false := by simp [Entry.inPlan, hr]
    simp only [pairClass, if_neg hd, h, Option.filter_some, hp]
    rfl

end

/-! ## Dispatch by class (R82, R83) -/

theorem relayIfSplit_whole {b : Bridge} {p : Port} (h : b.inSplit p = false) (blk : Block) (c : Class) :
    b.relayIfSplit p blk c = b := by
  cases c <;> simp [relayIfSplit, h]

section
variable (b : Bridge) (src : Option DirNo) {a : Arrival}

theorem dispatchUnknown_cases (b : Bridge) (src : Option DirNo) (a : Arrival) :
    (a.isAnswer = true → b.dispatchArrival src .unknown a = b.answerArrival src a) ∧
    (a.kind = .data → b.dispatchArrival src .unknown a = (b.heardPrinter src).countForward .unknownDest) ∧
    (a.kind ≠ .data → a.isAnswer = false → b.dispatchArrival src .unknown a = b.heardPrinter src) := by
  rw [dispatchArrival_unknown]
  refine ⟨fun h => if_pos h, fun h => ?_, fun h hn => ?_⟩
  · simp [Arrival.isAnswer_of_data h, h]
  · simp [hn, h]

theorem dispatchPairLocal_answer (h : a.isAnswer = true) : b.dispatchArrival src .pairLocal a = b.answerArrival src a := by
  simp [dispatchArrival, dispatchPairLocal, h]

theorem dispatchPairLocal_request (h : a.kind.isRequestLike = true) :
    b.dispatchArrival src .pairLocal a = (b.heardPrinter src).refuse (a.asker src) := by
  simp [dispatchArrival, dispatchPairLocal, Arrival.isAnswer_of_requestLike h, h]

theorem dispatchPairLocal_other (ha : a.isAnswer = false) (h : a.kind.isRequestLike = false) :
    b.dispatchArrival src .pairLocal a = (b.heardPrinter src).countForward .pairLocal := by
  simp [dispatchArrival, dispatchPairLocal, ha, h]

end

/-! ## A target, by the arrival's kind (R81, R84, R85) -/

section
variable (b : Bridge) (src : Option DirNo) (n : DirNo) (e : Entry) {a : Arrival}

theorem dispatchTarget_print (hn : a.isAnswer = false) (h : a.kind = .printOpen ∨ a.kind = .printData ∨ a.kind = .printClose) :
    b.dispatchTarget src n e a = b.printArrival src n a := by
  obtain h | h | h := h
  · simp [dispatchTarget, hn, h]
  · simp [dispatchTarget, hn, h]
  · simp [dispatchTarget, hn, h]

theorem lpOf_none {n : Nat} (h : n < 2 ∨ 9 < n) : lpOf n = none := dif_neg (by omega)

theorem printArrival_refused (a : Arrival) (h : n < 2 ∨ 9 < n ∨ src = none) :
    b.printArrival src n a = b.refuse (a.asker src) := by
  cases src with
  | none => rfl
  | some k =>
    have hl : lpOf n = none := lpOf_none (h.imp_right fun h => h.resolve_right (Option.some_ne_none k))
    simp only [printArrival, hl]

theorem printArrival_coax {k : DirNo} {l : Lp} (p : Port) (blk : Block) (hl : lpOf n = some l) :
    b.printArrival (some k) n (.coax p blk) =
      b.printRequest ((Arrival.coax p blk).asker (some k)) k l blk.kind .asSent blk.content := by
  simp only [printArrival, hl]
  rfl

theorem printArrival_carrier {k : DirNo} {l : Lp} (f : Carrier) (hl : lpOf n = some l) :
    b.printArrival (some k) n (.carrier f) =
      b.printRequest ((Arrival.carrier f).asker (some k)) k l f.kind (orderOf b.dir.entries k) f.data := by
  simp only [printArrival, hl]
  rfl

end

/-! ## An answer, by its source (R83) -/

theorem answerArrival_printer (b : Bridge) {n : DirNo} {e : Entry} {a : Arrival} {x : PrinterAnswer} (he : b.entry n = some e)
    (hk : e.kind = .printer) (hx : a.printerAnswer = some x) :
    b.answerArrival (some n) a = b.printerAnswer n a.sequence.1 a.sequence.2 x := by
  have hf : ((some n).filter fun n => (b.entry n).any (·.kind = .printer)) = some n := by
    simp [Option.filter_some, he, hk]
  simp only [answerArrival, hf, hx]

section
variable (b : Bridge) {src : Option DirNo} (h : src = none ∨ ∃ n, src = some n ∧ ∀ e, b.entry n = some e → e.kind ≠ .printer)
include h

theorem filter_printer_none : (src.filter fun n => (b.entry n).any (·.kind = .printer)) = none := by
  obtain rfl | ⟨n, rfl, hn⟩ := h
  · rfl
  · have ha : (b.entry n).any (·.kind = .printer) = false := by
      cases he : b.entry n with
      | none => rfl
      | some e => exact decide_eq_false (hn e he)
    simp [Option.filter_some, ha]

theorem answerArrival_status {a : Arrival} (ha : a.kind = .status) : b.answerArrival src a = b.countForward .noOwner := by
  simp only [answerArrival, filter_printer_none b h, if_pos ha]

theorem answerArrival_coax (p : Port) {blk : Block} (hk : blk.kind ≠ .status) :
    b.answerArrival src (.coax p blk) = b.exchangeCoaxAnswer p blk := by
  simp only [answerArrival, filter_printer_none b h]
  exact if_neg hk

theorem answerArrival_carrier {f : Carrier} (hk : f.kind ≠ .status) :
    b.answerArrival src (.carrier f) = b.exchangePairAnswer f := by
  simp only [answerArrival, filter_printer_none b h]
  exact if_neg hk

end

theorem orderOf_eq {es : Entries} {k : DirNo} {e : Entry} (h : look k es = some e) :
    (∀ m o, e.home = .pair m o → orderOf es k = o) ∧ ((∀ m o, e.home ≠ .pair m o) → orderOf es k = .asSent) := by
  refine ⟨fun m o hh => by simp [orderOf, h, hh], fun hh => ?_⟩
  cases hc : e.home with
  | pair m o => exact absurd hc (hh m o)
  | _ => simp [orderOf, h, hc]

end Bridge

/-- The oldest arrival of the pair side is dispatched with the source entry that still stands (R79). -/
theorem exec_takeArrival_pair (s : State) (u : List Nat) {x : PairArrival} {rest : List PairArrival} (ht : s.takesTraffic)
    (ha : s.bridge.pair.arrivals = x :: rest) :
    exec (.takeArrival .pair u) s = .next (s.after u
      ((s.bridge.modPair fun y => { y with arrivals := rest }).takeCarrier x.frame x.source)) := by
  refine (s.command_run u (·.takeArrival .pair) ht).trans (State.after_congr s u ?_)
  simp only [Bridge.takeArrival, ha]

/-- Settles O29: the classes on the pair side and on coax, a printer heard, the targets by kind, the answers by source. -/
theorem arrivalsAreDispatchedByClass : Obligations.ArrivalsAreDispatchedByClass := by
  refine ⟨fun s u x rest src ht ha => ?_, fun s p u x rest src b ht hsplit ha hl => ?_, fun b n => ?_, fun b src n e a => ?_,
    fun b src a hans => ?_, fun a => ⟨a.isAnswer_iff, a.printerAnswer_kinds⟩, fun es k e h => Bridge.orderOf_eq h,
    fun b src n e f t num hh => ?_⟩
  · intro f a b c hfound hfreed
    have hsrc : b.sourceStands f x.source = src := by
      cases he : s.bridge.entry x.source with
      | none => exact (b.sourceStands_freed f he).trans (hfreed he).symm
      | some e => exact (b.sourceStands_found f he).trans (hfound e he).symm
    have hexec : exec (.takeArrival .pair u) s =
        .next (s.after u (b.dispatchArrival src (b.pairClass src f.dst) a)) :=
      (exec_takeArrival_pair s u ht ha).trans (State.after_congr s u (by rw [← hsrc]; rfl))
    refine ⟨fun hd => ?_, fun e hd he hr => ⟨fun hl => ?_, fun hh hs => ?_⟩, fun hd hu => ?_⟩
    · rw [hexec, hd, Bridge.pairClass_everyone, Bridge.dispatchArrival_everyone]
    · rw [hexec, b.pairClass_pairLocal src hd he hr hl]
      refine ⟨fun h => ?_, fun h => ?_, fun h => ?_⟩
      · rw [b.dispatchPairLocal_answer src h]
      · rw [b.dispatchPairLocal_request src ((Arrival.isRequestLike_iff a.kind).2 h)]
        rfl
      · obtain ⟨hn, hq⟩ : a.isAnswer = false ∧ a.kind.isRequestLike = false := by
          obtain h | h | ⟨h, hn⟩ := h
          · exact ⟨Arrival.isAnswer_of_data h, by rw [show a.kind = .data from h]; rfl⟩
          · exact ⟨Arrival.isAnswer_of_notice h, by rw [show a.kind = .notice from h]; rfl⟩
          · exact ⟨hn, by rw [show a.kind = .status from h]; rfl⟩
        rw [b.dispatchPairLocal_other src hn hq]
    · rw [hexec, b.pairClass_target src hd he hr hh hs, Bridge.dispatchArrival_target]
    · rw [hexec, b.pairClass_unknown src hd hu]
      obtain ⟨hans, hdata, hother⟩ := b.dispatchUnknown_cases src a
      exact ⟨fun h => by rw [hans h], fun h => by rw [hdata h], fun hk hn => by rw [hother hk hn]⟩
  · intro a c home shown
    have hb : b.inSplit p = false := by
      have hsteady := (s.bridge.modPort p fun y => { y with arrivals := rest }).steady_sourceLookup p x.block.src
      rw [hl] at hsteady
      exact (hsteady.inSplit p).trans hsplit
    rw [exec_takeArrival_port s p u ht ha hl, Bridge.relayIfSplit_whole hb]
    refine ⟨fun hd => ?_, fun hd hh => ?_, fun n e hd hh hsh => ?_, fun hd hh hsh => ?_⟩
    · rw [hd, Bridge.coaxClass_everyone, Bridge.dispatchArrival_everyone]
    · obtain ⟨⟨n, e⟩, hh⟩ := Option.ne_none_iff_exists'.1 hh
      rw [Bridge.coaxClass_homed hd hh, Bridge.dispatchArrival_homed]
    · rw [Bridge.coaxClass_target hd hh hsh, Bridge.dispatchArrival_target]
    · rw [Bridge.coaxClass_unknown hd hh hsh]
      obtain ⟨hans, hdata, hother⟩ := b.dispatchUnknown_cases src a
      exact ⟨fun h => by rw [hans h], fun h => by rw [hdata h], fun hk hn => by rw [hother hk hn]⟩
  · exact ⟨b.heardPrinter_none, fun e he hk => b.heardPrinter_printer he hk, fun e he hk => b.heardPrinter_other he hk⟩
  · refine ⟨fun h => if_pos h, fun hn => ⟨fun hk he => ?_, fun hk he => ?_, fun k p blk hc hk hs => ?_, fun k f hc hk hs => ?_,
      fun hk hs => ?_, fun hk => ?_, fun hk h1 => ?_, fun hk h1 => ?_, fun hk => ?_⟩⟩
    · simp [Bridge.dispatchTarget, hn, hk, he]
    · simp [Bridge.dispatchTarget, hn, hk, he]
    · subst hc hs
      have hkind : (Arrival.coax p blk).kind = .request := hk
      simp [Bridge.dispatchTarget, hn, hkind, Bridge.requestArrival]
    · subst hc hs
      have hkind : (Arrival.carrier f).kind = .request := hk
      simp [Bridge.dispatchTarget, hn, hkind, Bridge.requestArrival]
    · subst hs
      simp only [Bridge.dispatchTarget, hn, hk, Bridge.requestArrival]
      rfl
    · rw [b.dispatchTarget_print src n e hn hk]
      refine ⟨fun k l p blk hc hs hl _ => ?_, fun k l f hc hs hl _ => ?_, fun h => b.printArrival_refused src n a h⟩
      · rw [hc, hs, b.printArrival_coax n p blk ((lpOf_eq_some n l).2 hl)]
      · rw [hc, hs, b.printArrival_carrier n f ((lpOf_eq_some n l).2 hl)]
    · simp [Bridge.dispatchTarget, hn, hk, h1]
    · simp only [Bridge.dispatchTarget, hn, hk, if_neg h1]
      rfl
    · obtain hk | hk := hk
      · simp [Bridge.dispatchTarget, hn, hk]
      · simp [Bridge.dispatchTarget, hn, hk]
  · refine ⟨fun n e x hs he hk hx => ?_, fun hs => ⟨fun hk => b.answerArrival_status hs hk, fun p blk hc hk => ?_, fun f hc hk => ?_⟩⟩
    · rw [hs]
      exact b.answerArrival_printer he hk hx
    · rw [hc]
      exact b.answerArrival_coax hs p hk
    · rw [hc]
      exact b.answerArrival_carrier hs hk
  · intro a ps number order
    refine ⟨fun hr => b.forwardData_unreachable src n e a hr,
      fun hr hk => b.forwardData_noNumber src n e a hr hh ((b.sourceOn_eq src t).trans hk), fun k hr hk => ?_⟩
    have hsent := b.forwardData_coax src n e a hr hh ((b.sourceOn_eq src t).trans hk)
    have hn := b.endsFor_nodup t e.endField
    exact ⟨fun hroom => hsent.trans (b.placeData_room _ hn hroom), fun hfull => hsent.trans (b.placeData_full _ hn hfull)⟩

end Sys2Proof.Machine

/-! # The reads of the management agent (O41). -/

namespace Sys2Proof.Machine
open Sys2Proof

/-! ## What a selector names (R183) -/

@[simp] theorem portOf_val (p : Port) : portOf p.val = some p := dif_pos p.isLt

theorem portOf_none {n : Nat} (h : 3 < n) : portOf n = none := dif_neg (Nat.not_lt.2 h)

namespace Bridge

@[simp] theorem groupOf_val (g : Fin 9) : groupOf g.val = some g := dif_pos g.isLt

theorem groupOf_none {n : Nat} (h : 8 < n) : groupOf n = none := dif_neg (Nat.not_lt.2 h)

section
variable (b : Bridge) {sel : Nat}

theorem onPort_val (p : Port) (f : Port → Result × AnswerBody × AfterAnswer × Bridge) : b.onPort p.val f = f p := by
  simp only [onPort, portOf_val]

theorem onPort_malformed (h : 3 < sel) (f : Port → Result × AnswerBody × AfterAnswer × Bridge) :
    b.onPort sel f = plain (.malformed, .none, b) := by
  simp only [onPort, portOf_none h]
  rfl

theorem onGroup_val (g : Fin 9) (f : Fin 9 → Result × AnswerBody × AfterAnswer × Bridge) : b.onGroup g.val f = f g := by
  simp only [onGroup, groupOf_val]

theorem onGroup_malformed (h : 8 < sel) (f : Fin 9 → Result × AnswerBody × AfterAnswer × Bridge) :
    b.onGroup sel f = plain (.malformed, .none, b) := by
  simp only [onGroup, groupOf_none h]
  rfl

/-! ## The records as they stand (R154, R171, R173, R183) -/

theorem smoothed_eq (l : List Nat) : smoothed l = if l = [] then none else some (l.sum / l.length) := by
  cases l <;> rfl

theorem portRead_eq (p : Port) : b.portRead p =
    { state := (b.mon p).state, hold := (b.mon p).hold, latched := (b.mon p).latched, testOwed := (b.mon p).testOwed,
      restarts := (b.mon p).restarts, echo := (b.mon p).echo, lowRun := (b.mon p).lowRun,
      jabberQuiet := match (b.mon p).jabberFrom with
        | some t => min 500 ((b.ctl.now - t) / 125)
        | none => 0,
      history := (b.mon p).history,
      smoothed := if (b.mon p).history = [] then none else some ((b.mon p).history.sum / (b.mon p).history.length),
      degraded := (b.mon p).degraded, mode := (b.mon p).mode, allowance := (b.port p).allowance,
      remainder := (b.port p).remainder, counters := (b.group (lineGroup p)).counters, feed := b.feedRead p } := by
  rw [← smoothed_eq]
  rfl

theorem feedRead_lower {p : Port} (hp : b.paired p = true) (hl : p = lowerOf (pairOf p)) : b.feedRead p = some
    { state := (b.feed (pairOf p)).state, window := (b.feed (pairOf p)).window, counters := (b.feed (pairOf p)).counters,
      probeTimer := match (b.feed (pairOf p)).probeFrom with
        | some t => min 1250000 (b.ctl.now - t)
        | none => 0 } := by
  have h : b.lowerPaired p = true := by rw [lowerPaired, hp, decide_eq_true hl]; rfl
  exact if_pos h

theorem feedRead_other {p : Port} (h : b.paired p = false ∨ p = upperOf (pairOf p)) : b.feedRead p = none := by
  have hl : b.lowerPaired p = false := by
    obtain h | h := h
    · exact lowerPaired_unpaired h
    · have hne : p ≠ lowerOf (pairOf p) := fun e => lowerOf_ne_upperOf _ (e.symm.trans h)
      rw [lowerPaired, decide_eq_false hne, Bool.and_false]
  rw [feedRead, hl]
  rfl

theorem spoolRead_lp {l : Lp} (h : sel = l.val + 2) :
    b.spoolRead sel = (.ok, .spool b.spool.freeList.length b.spool.jobs.length (some (b.lp l))) := by
  have hz : sel ≠ 0 := by omega
  simp only [spoolRead, if_neg hz, (lpOf_eq_some sel l).2 h]

theorem spoolRead_malformed (h : sel = 1 ∨ 9 < sel) : b.spoolRead sel = (.malformed, .none) := by
  have hz : sel ≠ 0 := by omega
  simp only [spoolRead, if_neg hz, lpOf_none (show sel < 2 ∨ 9 < sel by omega)]

theorem jobRead_found {j : Job} (h1 : 1 ≤ sel) (h2 : sel ≤ 65535) (hj : b.job sel = some j) : b.jobRead sel = (.ok, .job j) := by
  have hr : ¬ (sel < 1 ∨ 65535 < sel) := by omega
  simp only [jobRead, if_neg hr, hj]

theorem jobRead_notFound (h1 : 1 ≤ sel) (h2 : sel ≤ 65535) (hj : b.job sel = none) : b.jobRead sel = (.notFound, .none) := by
  have hr : ¬ (sel < 1 ∨ 65535 < sel) := by omega
  simp only [jobRead, if_neg hr, hj]

theorem jobRead_malformed (h : sel < 1 ∨ 65535 < sel) : b.jobRead sel = (.malformed, .none) := if_pos h

theorem printerRead_lp {l : Lp} (h : sel = l.val + 2) :
    b.printerRead sel = (.ok, .delivery (b.record l) b.delivery.pace[l] b.delivery.counters) := by
  have hr : ¬ (sel < 2 ∨ 384 < sel) := by omega
  simp only [printerRead, if_neg hr, (lpOf_eq_some sel l).2 h]

theorem printerRead_found {r : Printer} (h1 : 10 ≤ sel) (h2 : sel ≤ 384) (hr : b.printer sel = some r) :
    b.printerRead sel = (.ok, .printer
      { status := r.status, delivering := r.delivering, pauseStart := r.pauseStart, question := r.question,
        pollTimer := r.pollFrom.map fun t => min 250000 (b.ctl.now - t) } b.delivery.counters) := by
  have hn : ¬ (sel < 2 ∨ 384 < sel) := by omega
  simp only [printerRead, if_neg hn, lpOf_none (show sel < 2 ∨ 9 < sel by omega), hr]
  rfl

theorem printerRead_notFound (h1 : 10 ≤ sel) (h2 : sel ≤ 384) (hr : b.printer sel = none) :
    b.printerRead sel = (.notFound, .none) := by
  have hn : ¬ (sel < 2 ∨ 384 < sel) := by omega
  simp only [printerRead, if_neg hn, lpOf_none (show sel < 2 ∨ 9 < sel by omega), hr]

theorem printerRead_malformed (h : sel < 2 ∨ 384 < sel) : b.printerRead sel = (.malformed, .none) := if_pos h

/-! ## The reads with a clear flag (R185) -/

/-- The counters that a clear flag leaves. -/
def zeroed (clear : Bool) (l : Counters) : Counters := if clear then l.map fun x => (x.1, 0) else l

theorem carryOut_readPrinter_ok (clear : Bool) {body : AnswerBody} (h : b.printerRead sel = (.ok, body)) :
    b.carryOut (.readPrinter sel clear) =
      plain (.ok, body, b.modDelivery fun x => { x with counters := zeroed clear x.counters }) := by
  simp only [carryOut, h]
  cases clear <;> rfl

theorem carryOut_readPrinter_refused (clear : Bool) {res : Result} {body : AnswerBody} (hr : res ≠ .ok)
    (h : b.printerRead sel = (res, body)) : b.carryOut (.readPrinter sel clear) = plain (res, body, b) := by
  simp only [carryOut, h, decide_eq_false hr, Bool.and_false]
  rfl

theorem clearErrors_eq (g : Fin 9) (clear : Bool) : b.clearErrors g clear =
    b.modGroup g fun x => { counters := zeroed clear x.counters, first := none, multiple := false } := rfl

theorem carryOut_readForwarding (clear : Bool) : b.carryOut (.readForwarding clear) =
    plain (.ok, .forwarding b.forwarding, b.setForwarding (zeroed clear b.forwarding)) := by
  cases clear <;> rfl

end
end Bridge

/-- Settles O41: the reads, the feed controller's record, and the reads with a clear flag. -/
theorem readsAnswerTheStoredRecords : Obligations.ReadsAnswerTheStoredRecords := by
  refine ⟨fun s a sel ht hm => ?_, fun b p => ⟨b.feedRead_lower, b.feedRead_other⟩, fun s a sel clear ht hm => ?_⟩
  · intro b
    have answers (r : ManageReq) {res : Result} {body : AnswerBody} {c : Bridge} (h : b.carryOut r = Bridge.plain (res, body, c)) :=
      manage_plain s a r ht hm h
    refine ⟨answers .readStatus rfl, fun h1 h2 => answers (.readEntry sel) (if_neg (by omega)),
      fun h => answers (.readEntry sel) (if_pos h), fun p hp => ?_, fun h => answers (.readPort sel) (b.onPort_malformed h _),
      fun h => ?_, fun l h => answers (.readSpool sel) ?_, fun h => answers (.readSpool sel) ?_,
      fun j h1 h2 hj => answers (.readJob sel) ?_, fun h1 h2 hj => answers (.readJob sel) ?_,
      fun h => answers (.readJob sel) ?_, fun g hg => ?_, fun h => answers (.readErrors sel) (b.onGroup_malformed h _)⟩
    · subst hp
      refine answers (.readPort p.val) ((b.onPort_val p _).trans ?_)
      rw [b.portRead_eq]
      rfl
    · subst h
      exact answers (.readSpool 0) rfl
    · rw [Bridge.carryOut, b.spoolRead_lp h]
    · rw [Bridge.carryOut, b.spoolRead_malformed h]
    · rw [Bridge.carryOut, b.jobRead_found h1 h2 hj]
    · rw [Bridge.carryOut, b.jobRead_notFound h1 h2 hj]
    · rw [Bridge.carryOut, b.jobRead_malformed h]
    · subst hg
      exact answers (.readErrors g.val) (b.onGroup_val g _)
  · intro b zero
    have answers (r : ManageReq) {res : Result} {body : AnswerBody} {c : Bridge} (h : b.carryOut r = Bridge.plain (res, body, c)) :=
      manage_plain s a r ht hm h
    refine ⟨fun l h => answers (.readPrinter sel clear) (b.carryOut_readPrinter_ok clear (b.printerRead_lp h)),
      fun r h1 h2 hr => answers (.readPrinter sel clear) (b.carryOut_readPrinter_ok clear (b.printerRead_found h1 h2 hr)),
      fun h1 h2 hr => answers (.readPrinter sel clear)
        (b.carryOut_readPrinter_refused clear (by decide) (b.printerRead_notFound h1 h2 hr)),
      fun h => answers (.readPrinter sel clear) (b.carryOut_readPrinter_refused clear (by decide) (b.printerRead_malformed h)),
      fun g hg => ?_, fun h => answers (.clearErrors sel clear) (b.onGroup_malformed h _),
      answers (.readForwarding clear) (b.carryOut_readForwarding clear)⟩
    subst hg
    refine answers (.clearErrors g.val clear) ((b.onGroup_val g _).trans ?_)
    rw [b.clearErrors_eq]
    rfl

end Sys2Proof.Machine

/-! # Settings stored, answered and taking effect (O43). -/

namespace Sys2Proof

namespace Settings

/-! ## The kind and range of a setting (R184) -/

/-- The values that a setting may take: those of its kind that its table admits. -/
def Storable (id : Nat) : SettingValue → Prop
  | .number _ => id ∈ [1, 8, 9, 12, 13, 14, 15, 16, 24, 25]
  | .mac m => id = 2 ∧ m.getLsbD 40 = false
  | .onOff _ => id ∈ [3, 5, 6, 17]
  | .order _ => id = 4
  | .ports _ => id ∈ [7, 11]
  | .broadcast _ => id = 10
  | .response _ => id ∈ [18, 19]
  | .report _ => id ∈ [20, 21, 22, 23]
  | .sampling _ => id = 26
  | .pairing _ => id = 27
  | .destination n => id ∈ [28, 29] ∧ ∀ k, n = some k → 10 ≤ k ∧ k ≤ 384

theorem destinationOk_iff (n : Option DirNo) : destinationOk n = true ↔ ∀ k, n = some k → 10 ≤ k ∧ k ≤ 384 := by
  cases n <;> simp [destinationOk]

theorem Storable.range {id : Nat} {v : SettingValue} (h : Storable id v) : 1 ≤ id ∧ id ≤ 29 := by
  cases v <;> simp only [Storable, List.mem_cons, List.not_mem_nil, or_false] at h <;> omega

variable {x y : Settings} {p q : Port} {id j : Nat} {v : SettingValue}

theorem storable_of_store (h : x.store p id v = some y) : Storable id v := by
  unfold store at h
  split at h
  case h_2 =>
    split at h
    next => cases h
    next hm => exact ⟨rfl, Bool.not_eq_true _ ▸ hm⟩
  case h_28 | h_29 =>
    split at h
    next hd => exact ⟨by decide, (destinationOk_iff _).1 hd⟩
    next => cases h
  case h_30 => cases h
  case h_4 | h_10 | h_26 | h_27 => exact rfl
  all_goals exact List.elem_iff.1 rfl

theorem store_of_storable (x : Settings) (p : Port) (h : Storable id v) : (x.store p id v).isSome = true := by
  cases v with
  | mac m =>
    obtain ⟨rfl, hm⟩ := h
    have hg : isGroup m = false := hm
    simp [store, hg]
  | destination n =>
    obtain ⟨hid, hn⟩ := h
    have hd := (destinationOk_iff n).2 hn
    simp only [List.mem_cons, List.not_mem_nil, or_false] at hid
    rcases hid with rfl | rfl <;> simp [store, hd]
  | order _ | broadcast _ | sampling _ | pairing _ => cases h; rfl
  | number _ | onOff _ | ports _ | response _ | report _ =>
    revert id
    simp [Storable, store]

theorem store_isSome_iff (x : Settings) (p : Port) (id : Nat) (v : SettingValue) :
    (x.store p id v).isSome = true ↔ Storable id v := by
  refine ⟨fun h => ?_, store_of_storable x p⟩
  obtain ⟨y, hy⟩ := Option.isSome_iff_exists.1 h
  exact storable_of_store hy

theorem store_none (x : Settings) (p : Port) (h : ¬ Storable id v) : x.store p id v = none :=
  Option.not_isSome_iff_eq_none.1 (mt (x.store_isSome_iff p id v).1 h)

theorem fetch_isSome (x : Settings) (p : Port) (h1 : 1 ≤ id) (h29 : id ≤ 29) : (x.fetch p id).isSome = true := by
  interval_cases id <;> rfl

theorem fetch_none (x : Settings) (p : Port) (h : id < 1 ∨ 29 < id) : x.fetch p id = none := by
  unfold fetch
  split
  case h_30 => rfl
  all_goals exact absurd h (by decide)

/-! ## A setting read back after a store (R184) -/

theorem fetch_own_modPort (x : Settings) (p : Port) (f : PortSettings → PortSettings) (hj : j ∈ ownSettings) :
    (x.modPort p f).fetch p j = (f x.port[p]).fetch j := by
  rw [fetch_own _ _ hj, port_modPort_self]

/-- A value that is no number is read back as it was stored. -/
theorem fetch_store (h : x.store p id v = some y) (hv : ∀ n, v ≠ .number n) : y.fetch p id = some v := by
  unfold store at h
  split at h
  case h_30 => cases h
  case h_2 | h_28 | h_29 =>
    split at h <;> cases h
    rfl
  case h_1 | h_8 | h_9 | h_12 | h_13 | h_14 | h_15 | h_16 | h_24 | h_25 => exact absurd rfl (hv _)
  case h_3 | h_4 | h_7 | h_11 => cases h; rfl
  case h_27 =>
    cases h
    simp [fetch]
  all_goals
    cases h
    exact x.fetch_own_modPort p _ (by decide)

/-- A number is read back brought into the range of its setting. -/
theorem fetch_store_number (x : Settings) (p : Port) (n : Nat) {lo hi : Nat}
    (h : (id, lo, hi) ∈ [(1, 0x0600, 0xFFFF), (8, 10, 600), (9, 1, 255), (12, 5, 90), (13, 521, 8191), (14, 1, 255), (15, 5, 255),
      (16, 0, 60), (24, 10, 80), (25, 200, 2000)]) :
    ∃ y, x.store p id (.number n) = some y ∧ y.fetch p id = some (.number (clampTo lo hi n)) := by
  simp only [List.mem_cons, List.not_mem_nil, or_false, Prod.mk.injEq] at h
  rcases h with ⟨rfl, rfl, rfl⟩ | ⟨rfl, rfl, rfl⟩ | ⟨rfl, rfl, rfl⟩ | ⟨rfl, rfl, rfl⟩ | ⟨rfl, rfl, rfl⟩ |
    ⟨rfl, rfl, rfl⟩ | ⟨rfl, rfl, rfl⟩ | ⟨rfl, rfl, rfl⟩ | ⟨rfl, rfl, rfl⟩ | ⟨rfl, rfl, rfl⟩
  any_goals exact ⟨_, rfl, rfl⟩
  · exact ⟨_, rfl, x.fetch_own_modPort p _ (show 12 ∈ ownSettings by decide)⟩
  · exact ⟨_, rfl, x.fetch_own_modPort p _ (show 13 ∈ ownSettings by decide)⟩
  · exact ⟨_, rfl, x.fetch_own_modPort p _ (show 24 ∈ ownSettings by decide)⟩
  · exact ⟨_, rfl, x.fetch_own_modPort p _ (show 25 ∈ ownSettings by decide)⟩

/-- A setting other than the one stored is as before, and so is the same one of another port or pair. -/
theorem fetch_store_other (h : x.store p id v = some y) (ho : j ≠ id ∨ (Machine.pairOf q ≠ Machine.pairOf p ∧ j = 27) ∨
    (q ≠ p ∧ j ∈ ownSettings)) : y.fetch q j = x.fetch q j := by
  cases stored h with
  | own f hid hf =>
    by_cases hj : j ∈ ownSettings
    · rw [fetch_own _ _ hj, fetch_own _ _ hj]
      by_cases hq : q = p
      · subst hq
        rw [port_modPort_self]
        refine hf _ j (ho.resolve_right ?_)
        rintro (⟨hne, -⟩ | ⟨hne, -⟩)
        · exact hne rfl
        · exact hne rfl
      · rw [x.port_modPort_ne p q f hq]
    · exact x.fetch_modPort_shared p q f hj
  | pairing on hid =>
    obtain ho | ⟨hne, rfl⟩ | ⟨-, hj⟩ := ho
    · unfold fetch
      split
      any_goals rfl
      exact absurd hid.symm ho
    · simp [fetch, Fin.val_inj, hne.symm]
    · rw [fetch_own _ _ hj, fetch_own _ _ hj]
  | shared y hid hp hf =>
    obtain ho | ⟨-, rfl⟩ | ⟨-, hj⟩ := ho
    · exact hf q j ho
    · exact hf q 27 fun e => hid (e ▸ List.mem_cons_self)
    · rw [fetch_own _ _ hj, fetch_own _ _ hj, hp]

end Settings

end Sys2Proof

namespace Sys2Proof.Machine
open Sys2Proof

/-! ## The port a setting is of (R184; log 74) -/

theorem perPort_iff (id : Nat) :
    perPort id = true ↔ id ∈ [5, 6, 10, 12, 13, 17, 18, 19, 20, 21, 22, 23, 24, 25, 26, 27] := by
  simp only [perPort, Bool.or_eq_true, Bool.and_eq_true, decide_eq_true_eq, List.mem_cons, List.not_mem_nil, or_false]
  omega

theorem settingPort_own {id : Nat} (sel : Nat) (h : perPort id = true) : settingPort sel id = portOf sel := if_pos h

theorem settingPort_shared {id : Nat} (sel : Nat) (h : ¬ perPort id = true) : settingPort sel id = some 0 := if_neg h

namespace Bridge

/-! ## SET-SETTING and READ-SETTING (R183, R184) -/

section
variable (b : Bridge) {sel id : Nat} {v w : SettingValue} {p : Port} {y : Settings}

theorem setSetting_stored (hp : settingPort sel id = some p) (hs : b.settings.store p id v = some y) (hw : y.fetch p id = some w) :
    b.setSetting sel id v = (.ok, .setting w, (b.setSettings y).settingChanged p (b.portSettings p) y.port[p]) := by
  simp only [setSetting, hp, hs, hw]

theorem setSetting_malformed
    (h : settingPort sel id = none ∨ ∃ p, settingPort sel id = some p ∧ b.settings.store p id v = none) :
    b.setSetting sel id v = (.malformed, .none, b) := by
  obtain h | ⟨p, hp, hs⟩ := h
  · simp only [setSetting, h]
  · simp only [setSetting, hp, hs]

theorem readSetting_found (h : b.settings.fetch p id = some w) : b.readSetting p.val id = (.ok, .setting w, b) := by
  simp only [readSetting, portOf_val, Option.bind_some, h]

theorem readSetting_malformed (h : 3 < sel ∨ id < 1 ∨ 29 < id) : b.readSetting sel id = (.malformed, .none, b) := by
  have hn : ((portOf sel).bind fun p => b.settings.fetch p id) = none := by
    obtain h | h := h
    · rw [portOf_none h]
      rfl
    · simp [b.settings.fetch_none _ h]
  simp only [readSetting, hn]

end

/-! ## What a change acts on at once (R99, R159, R167) -/

section
variable (b : Bridge) (p : Port) {old new : PortSettings}

/-- A changed cap lowers the allowance, and a changed sampling mode is taken on. -/
def capAndMode (new : PortSettings) : Bridge := b.modPort p fun x =>
  { x with allowance := min x.allowance new.cap, mon := { x.mon with mode := if x.mon.hold.lowSignal then .watch else new.sampling } }

theorem settingChanged_eq : b.settingChanged p old new =
    if old.enable = new.enable then b.capAndMode p new
    else if new.enable then (b.capAndMode p new).enablePort p else (b.capAndMode p new).disablePort p := by
  rw [settingChanged, modMon_eq, modPort_modPort]
  rfl

theorem settingChanged_same (h : old.enable = new.enable) : b.settingChanged p old new = b.capAndMode p new :=
  (b.settingChanged_eq p).trans (if_pos h)

theorem settingChanged_off (ho : old.enable = true) (hn : new.enable = false) :
    b.settingChanged p old new = (b.capAndMode p new).disablePort p := by
  rw [settingChanged_eq, ho, hn]
  rfl

theorem settingChanged_on (ho : old.enable = false) (hn : new.enable = true) :
    b.settingChanged p old new = (b.capAndMode p new).enablePort p := by
  rw [settingChanged_eq, ho, hn]
  rfl

theorem settings_settingChanged : (b.settingChanged p old new).settings = b.settings := by
  rw [settingChanged_eq]
  split
  · rfl
  · split
    · exact (lawful_enablePort _ p).settings
    · exact (lawful_disablePort _ p).settings

theorem mon_capAndMode (new : PortSettings) : (b.capAndMode p new).mon p =
    { b.mon p with mode := if (b.mon p).hold.lowSignal then .watch else new.sampling } := by
  unfold capAndMode mon
  rw [port_modPort_self]

/-- A port switched off: OFF, its hold set, test owed and counts empty. -/
theorem mon_disablePort (h : (b.mon p).state ≠ .off) : (b.disablePort p).mon p = Monitor.enter b.now .off
    { b.mon p with hold := {}, testOwed := false, restarts := 0, echo := 0, jabberFrom := none, lowRun := 0,
                   mode := (b.portSettings p).sampling } := by
  rw [disablePort, mon_changeState, mon_modMon_self, if_pos ⟨rfl, h.symm⟩]
  rfl

/-- A port switched on: TESTING, with the test owed and the sampler started. -/
theorem mon_enablePort (h : (b.mon p).state = .off) : (b.enablePort p).mon p =
    Monitor.enter b.now .testing (Monitor.startSampler b.now (b.portSettings p).sampling { b.mon p with testOwed := true }) := by
  have hne : PortMode.testing ≠ (b.mon p).state := by rw [h]; decide
  rw [enablePort, mon_changeState, mon_modMon_self, if_pos ⟨rfl, hne⟩]
  rfl

end

/-! ## What an answer leaves (R181) -/

/-- Offering a management answer leaves the settings and the line monitors. -/
theorem manageAnswer_leaves (b : Bridge) (a : Asker) (bytes : List Byte) :
    (b.manageAnswer a bytes).2.settings = b.settings ∧ ∀ p, (b.manageAnswer a bytes).2.mon p = b.mon p := by
  cases a with
  | coax p src dst seq e =>
    have h := b.steady_sendEach [p] (Block.build src dst .manage seq bytes) .agent none
    simp only [manageAnswer]
    split <;> exact ⟨h.settings, h.mon⟩
  | pair mac dst tag seq e =>
    have h := b.steady_sendPair { mac, kind := .manage, seq, tag, dst := e.getD 0, src := dst, data := bytes } .agent
    simp only [manageAnswer]
    split <;> next heq => rw [heq] at h; exact ⟨h.settings, h.mon⟩

end Bridge

section
variable (s : State) (a : Asker) (code sel : Nat) (r : Result) (body : AnswerBody) (b : Bridge)

theorem State.settings_answered : (s.answered a code sel r body b).bridge.settings = b.settings :=
  (Bridge.steady_settle _ _).settings.trans (b.manageAnswer_leaves a _).1

theorem State.mon_answered (p : Port) : (s.answered a code sel r body b).bridge.mon p = b.mon p :=
  ((Bridge.steady_settle _ _).mon p).trans ((b.manageAnswer_leaves a _).2 p)

end

/-! ## The port enable, through the whole command (R159) -/

/-- The settings with the enable of a port written. -/
def withEnable (x : Settings) (p : Port) (on : Bool) : Settings := x.modPort p fun z => { z with enable := on }

/-- The bridge once the enable of a port has been written and has taken effect. -/
def Bridge.enabled (b : Bridge) (p : Port) (on : Bool) : Bridge :=
  (b.setSettings (withEnable b.settings p on)).settingChanged p (b.portSettings p) { b.portSettings p with enable := on }

section
variable {s : State} (a : Asker) {sel id : Nat} {v : SettingValue} (ht : s.takesTraffic) (hm : s.bridge.mayManage a = true)
include ht hm

theorem exec_setSetting_stored {w : SettingValue} {p : Port} {y : Settings} (hp : settingPort sel id = some p)
    (hs : s.bridge.settings.store p id v = some y) (hw : y.fetch p id = some w) :
    exec (.setSetting a sel id v) s = .next (s.answered a 2 sel .ok (.setting w)
      ((s.bridge.setSettings y).settingChanged p (s.bridge.portSettings p) y.port[p])) :=
  manage_plain s a (.setSetting sel id v) ht hm (congrArg Bridge.plain (s.bridge.setSetting_stored hp hs hw))

theorem exec_setEnable (p : Port) (on : Bool) : exec (.setSetting a p.val 17 (.onOff on)) s =
    .next (s.answered a 2 p.val .ok (.setting (.onOff on)) (s.bridge.enabled p on)) := by
  have hstore : s.bridge.settings.store p 17 (.onOff on) = some (withEnable s.bridge.settings p on) := rfl
  have hport : settingPort p.val 17 = some p := portOf_val p
  rw [exec_setSetting_stored a ht hm hport hstore (Settings.fetch_store hstore (by simp)), withEnable, Settings.port_modPort_self]
  rfl

end

namespace Bridge

section
variable (b : Bridge) (p : Port)

theorem enable_enabled (on : Bool) : ((b.enabled p on).portSettings p).enable = on := by
  rw [portSettings, enabled, settings_settingChanged]
  exact congrArg (·.enable) (b.settings.port_modPort_self p _)

theorem mon_enabled_off (he : (b.portSettings p).enable = true) (hs : (b.mon p).state ≠ .off) : ∃ m,
    (b.enabled p false).mon p = Monitor.enter b.now .off
      { b.mon p with hold := {}, testOwed := false, restarts := 0, echo := 0, jabberFrom := none, lowRun := 0, mode := m } := by
  have hmon := (b.setSettings (withEnable b.settings p false)).mon_capAndMode p { b.portSettings p with enable := false }
  rw [enabled, settingChanged_off _ p he rfl, mon_disablePort _ p (by rw [hmon]; exact hs), hmon]
  exact ⟨_, rfl⟩

theorem mon_enabled_on (he : (b.portSettings p).enable = false) (hs : (b.mon p).state = .off) : ∃ m m',
    (b.enabled p true).mon p = Monitor.enter b.now .testing
      (Monitor.startSampler b.now m { b.mon p with testOwed := true, mode := m' }) := by
  have hmon := (b.setSettings (withEnable b.settings p true)).mon_capAndMode p { b.portSettings p with enable := true }
  rw [enabled, settingChanged_on _ p he rfl, mon_enablePort _ p (by rw [hmon]; exact hs), hmon]
  exact ⟨_, _, rfl⟩

end
end Bridge

/-- Settles O43: settings stored and read back, the requests, the changes that act at once, and the port enable. -/
theorem settingsAreStoredAndTakeEffect : Obligations.SettingsAreStoredAndTakeEffect := by
  refine ⟨fun x p id n lo hi h => x.fetch_store_number p n h, fun x y p id v => Settings.fetch_store,
    fun s a sel id v p y ht hm hp hs => ?_, fun s a sel id v ht hm h => ?_, fun s a id p w ht hm h => ?_, fun s a sel id ht hm h => ?_,
    fun sel id => ⟨fun h => ?_, fun h => ?_⟩, fun x p id v => ?_, fun x y p q id j v => Settings.fetch_store_other,
    fun x p id h1 h29 => ?_,
    fun b p old new => b.settingChanged_same p,
    fun b p old new => ⟨b.settingChanged_off p, b.settingChanged_on p⟩, fun x p v id h => ?_, fun x p m h => ?_, fun x p n h => ?_,
    fun s a p ht hm => ⟨fun he hs => ?_, fun he hs => ?_⟩⟩
  · obtain ⟨h1, h29⟩ := (Settings.storable_of_store hs).range
    obtain ⟨w, hw⟩ := Option.isSome_iff_exists.1 (y.fetch_isSome p h1 h29)
    exact ⟨w, hw, exec_setSetting_stored a ht hm hp hs hw⟩
  · exact manage_plain s a (.setSetting sel id v) ht hm (congrArg Bridge.plain (s.bridge.setSetting_malformed h))
  · exact manage_plain s a (.readSetting p.val id) ht hm (congrArg Bridge.plain (s.bridge.readSetting_found h))
  · exact manage_plain s a (.readSetting sel id) ht hm (congrArg Bridge.plain (s.bridge.readSetting_malformed h))
  · rw [settingPort_own sel ((perPort_iff id).2 h)]
    exact ⟨fun p hp => by rw [hp, portOf_val], portOf_none⟩
  · exact settingPort_shared sel (mt (perPort_iff id).1 h)
  · have h := x.store_isSome_iff p id v
    cases v <;> exact h
  · exact Option.isSome_iff_ne_none.1 (x.fetch_isSome p h1 h29)
  · refine ⟨x.store_none p fun hs => ?_, x.fetch_none p (h.imp_left fun h => by omega)⟩
    have hr := hs.range
    omega
  · refine x.store_none p fun hs => ?_
    obtain ⟨-, hm⟩ := hs
    exact absurd (h.symm.trans hm) (by decide)
  · have hbad (id : Nat) : ¬ Settings.Storable id (.destination (some n)) := by
      rintro ⟨-, hr⟩
      obtain ⟨h10, h384⟩ := hr n rfl
      exact h.elim (Nat.not_lt.2 h10) (Nat.not_lt.2 h384)
    exact ⟨x.store_none p (hbad 28), x.store_none p (hbad 29)⟩
  · refine ⟨_, exec_setEnable a ht hm p false, ?_, ?_⟩
    · rw [Bridge.portSettings, State.settings_answered]
      exact s.bridge.enable_enabled p false
    · obtain ⟨m, hmon⟩ := s.bridge.mon_enabled_off p he hs
      rw [State.mon_answered, hmon]
      exact ⟨rfl, rfl, rfl, rfl, rfl, rfl, rfl, rfl, rfl, rfl⟩
  · refine ⟨_, exec_setEnable a ht hm p true, ?_, ?_⟩
    · rw [Bridge.portSettings, State.settings_answered]
      exact s.bridge.enable_enabled p true
    · obtain ⟨m, m', hmon⟩ := s.bridge.mon_enabled_on p he hs
      rw [State.mon_answered, hmon]
      exact ⟨rfl, rfl, rfl, rfl⟩

end Sys2Proof.Machine

/-! # The timers of an exchange record, and its question sent again (O31). -/

namespace Sys2Proof.Machine
open Sys2Proof

/-! ## The timers as commands (R192) -/

theorem exec_exchangeWindowClose (s : State) (tag : Nat) (h : s.takesTraffic) :
    exec (.exchangeWindowClose tag) s = .next (s.after [] (s.bridge.closeAnswerWindow tag)) := s.command_run [] _ h

theorem exec_busyDelayEnd (s : State) (tag : Nat) (h : s.takesTraffic) :
    exec (.busyDelayEnd tag) s = .next (s.after [] (s.bridge.endBusyDelay tag)) := s.command_run [] _ h

theorem exec_exchangeTimeout (s : State) (tag : Nat) (h : s.takesTraffic) :
    exec (.exchangeTimeout tag) s = .next (s.after [] (s.bridge.timeOutExchange tag)) := s.command_run [] _ h

namespace Bridge

section
variable {b : Bridge} {tag : Nat} {x : Exchange} (hx : b.exchange tag = some x)
include hx

/-! ## A timer that is due, one that is not, and one that the record does not have (R108, R111, R114) -/

theorem closeAnswerWindow_due {w : Time} (hs : x.state = .opened (.window w)) (hw : w ≤ b.ctl.now) :
    b.closeAnswerWindow tag = b.questionUnanswered tag := by
  simp only [closeAnswerWindow, hx, hs, hw, if_true]

theorem closeAnswerWindow_waits {w : Time} (hs : x.state = .opened (.window w)) (hw : b.ctl.now < w) :
    b.closeAnswerWindow tag = b := by
  simp only [closeAnswerWindow, hx, hs, Nat.not_le.2 hw, if_false]

theorem closeAnswerWindow_other (hs : ∀ w, x.state ≠ .opened (.window w)) : b.closeAnswerWindow tag = b := by
  unfold closeAnswerWindow
  rw [hx]
  dsimp only
  split
  next w hw => exact absurd hw (hs w)
  next => rfl

theorem endBusyDelay_due {d : Time} (hs : x.state = .opened (.busyDelay d)) (hd : d ≤ b.ctl.now) :
    b.endBusyDelay tag = b.resendQuestion tag := by
  simp only [endBusyDelay, hx, hs, hd, if_true]

theorem endBusyDelay_waits {d : Time} (hs : x.state = .opened (.busyDelay d)) (hd : b.ctl.now < d) : b.endBusyDelay tag = b := by
  simp only [endBusyDelay, hx, hs, Nat.not_le.2 hd, if_false]

theorem endBusyDelay_other (hs : ∀ d, x.state ≠ .opened (.busyDelay d)) : b.endBusyDelay tag = b := by
  unfold endBusyDelay
  rw [hx]
  dsimp only
  split
  next d hd => exact absurd hd (hs d)
  next => rfl

theorem timeOutExchange_due (hd : x.deadline ≤ b.ctl.now) :
    b.timeOutExchange tag = ((b.answer (Exchange.asker x) (.fail .timeout 0) true).closeExchange tag).count 5 .timedOut := by
  simp only [timeOutExchange, hx, hd, if_true, failExchange_eq hx rfl]

theorem timeOutExchange_waits (hd : b.ctl.now < x.deadline) : b.timeOutExchange tag = b := by
  simp only [timeOutExchange, hx, Nat.not_le.2 hd, if_false]

end

/-! ## The question sent again (R107 to R109) -/

/-- A record as its question leaves it: QUEUED, with the number of the copies that are offered next. -/
def questionQueued (b : Bridge) (tag : Nat) : Bridge :=
  b.modExchange tag fun y => { y with state := .opened .queued, sending := b.serial }

section
variable {b : Bridge} {tag : Nat} {x : Exchange}

theorem exchange_questionQueued (hx : b.exchange tag = some x) :
    (b.questionQueued tag).exchange tag = some { x with state := .opened .queued, sending := b.serial } := by
  rw [questionQueued, exchange_modExchange_self, hx, Option.map_some]

/-- To send a record's question is to put the record in QUEUED and to send the question of the record as it then stands. -/
theorem sendQuestion_questionQueued (hx : b.exchange tag = some x) : (b.questionQueued tag).sendQuestion tag = b.sendQuestion tag := by
  have hq := exchange_questionQueued hx
  have hsame : ((b.questionQueued tag).modExchange tag fun y =>
      { y with state := .opened .queued, sending := (b.questionQueued tag).serial }) = b.questionQueued tag :=
    modExchange_queued hq rfl rfl
  simp only [sendQuestion, hq, hx, hsame]
  rfl

theorem resendQuestion_eq (b : Bridge) (tag : Nat) : b.resendQuestion tag =
    if (b.sendQuestion tag).1 = true then (b.sendQuestion tag).2 else (b.sendQuestion tag).2.failExchange tag .refused := by
  unfold resendQuestion
  obtain ⟨sent, c⟩ := b.sendQuestion tag
  cases sent <;> rfl

theorem resendQuestion_pair (hx : b.exchange tag = some x) {mac : Mac} (hr : x.targetRoute = .pair mac) :
    let d := (b.questionQueued tag).offeredPair (b.requestFrame tag x mac) (.request tag)
    b.resendQuestion tag =
      if b.pair.link = true ∧ 48 ≤ b.pair.queue.length then
        (d.answer (Exchange.asker x) (.fail .refused 0) true).closeExchange tag
      else d := by
  intro d
  have hq : b.sendQuestion tag = (decide ¬ (b.pair.link = true ∧ 48 ≤ b.pair.queue.length), d) :=
    (sendQuestion_questionQueued hx).symm.trans (sendQuestion_pair (exchange_questionQueued hx) rfl rfl hr)
  have hd : d.exchange tag = some { x with state := .opened .queued, sending := b.serial } := by
    unfold d offeredPair
    split <;> exact exchange_questionQueued hx
  rw [resendQuestion_eq, hq]
  simp only [decide_eq_true_eq, ite_not, failExchange_eq (a := Exchange.asker x) hd rfl]

theorem resendQuestion_segment (hx : b.exchange tag = some x) (hr : ∀ mac, x.targetRoute ≠ .pair mac)
    (hl : namesLower x.targetRoute) :
    let ps := b.routePorts x.targetRoute
    let d := (b.questionQueued tag).offeredOn ps (b.requestBlock x) (.request tag) x.targetRoute.named
    b.resendQuestion tag =
      if ∀ p ∈ ps, 24 ≤ (b.port p).class1.length then
        (d.answer (Exchange.asker x) (.fail .refused 0) true).closeExchange tag
      else d := by
  intro ps d
  have hd : d.exchange tag = some { x with state := .opened .queued, sending := b.serial } := exchange_questionQueued hx
  have hq : b.sendQuestion tag = (decide ¬ ∀ p ∈ ps, 24 ≤ (b.port p).class1.length, d) :=
    (sendQuestion_questionQueued hx).symm.trans
      (sendQuestion_segment (x := { x with state := .opened .queued, sending := b.serial }) hd rfl rfl hr hl)
  rw [resendQuestion_eq, hq]
  simp only [decide_eq_true_eq, ite_not, failExchange_eq (a := Exchange.asker x) hd rfl]

end

/-! ## What the question is (R107, R109) -/

theorem requestFrame_byte (b : Bridge) (tag : Nat) {x : Exchange} (mac : Mac) {q : Byte} (hq : x.outSeq = .byte q) :
    b.requestFrame tag x mac =
      { mac, kind := .request, seq := q, tag, dst := x.target, src := x.requester,
        data := inOrder (orderOf b.dir.entries x.target) (if x.copyPad then x.copy.dropLast else x.copy) } := by
  rw [requestFrame, hq]
  rfl

theorem requestBlock_bit (b : Bridge) {x : Exchange} {bit : Bool} (hq : x.outSeq = .bit bit) :
    b.requestBlock x =
      if x.direction = .pairCoax then
        Block.build x.wireDst x.wireSrc .request bit (inOrder (orderOf b.dir.entries x.requester) x.copy)
      else { dst := x.wireDst, src := x.wireSrc, kind := .request, seq := bit, pad := x.copyPad, payload := x.copy } := by
  rw [requestBlock, hq]
  cases x.direction <;> rfl

end Bridge

/-- Settles O31: each timer due, not due and not the record's, and the question sent again on either side. -/
theorem exchangeTimersActOnTheRecord : Obligations.ExchangeTimersActOnTheRecord := by
  refine ⟨fun s tag x ht hx => ?_, fun b tag x hx hl => ⟨fun mac q hr hq => ?_, fun bit hr hq => ?_⟩⟩
  · rw [exec_exchangeWindowClose s tag ht, exec_busyDelayEnd s tag ht, exec_exchangeTimeout s tag ht]
    refine ⟨fun w hs hw h3 => ?_, fun w hs hw h3 => ?_, fun w hs hw => ?_, fun d hs hd => ?_, fun d hs hd => ?_, fun hs => ?_,
      fun hs => ?_, fun hs => ?_, fun hd => ?_, fun hd => ?_⟩
    · rw [Bridge.closeAnswerWindow_due hx hs hw, s.bridge.questionUnanswered_again tag hx h3]
    · rw [Bridge.closeAnswerWindow_due hx hs hw, s.bridge.questionUnanswered_last tag hx h3]
    · rw [Bridge.closeAnswerWindow_waits hx hs hw]
    · rw [Bridge.endBusyDelay_due hx hs hd]
    · rw [Bridge.endBusyDelay_waits hx hs hd]
    · rw [Bridge.closeAnswerWindow_other hx hs]
    · rw [Bridge.endBusyDelay_other hx hs]
    · rw [Bridge.endBusyDelay_other hx (by simp [hs]), Bridge.closeAnswerWindow_other hx (by simp [hs])]
      exact ⟨rfl, rfl⟩
    · rw [Bridge.timeOutExchange_due hx hd]
    · rw [Bridge.timeOutExchange_waits hx hd]
  · rw [← b.requestFrame_byte tag mac hq]
    exact Bridge.resendQuestion_pair hx hr
  · rw [← b.requestBlock_bit hq]
    exact Bridge.resendQuestion_segment hx hr hl

end Sys2Proof.Machine

/-! # The answers of a target, and the records a report loses (O40). -/

namespace Sys2Proof.Machine
open Sys2Proof

/-! ## The requester as the asker of its answers (R112) -/

theorem Exchange.asker_port {x : Exchange} {p : Port} {s : Bool} (hr : x.requesterRoute = .port p) (hq : x.requesterSeq = .bit s) :
    Exchange.asker x = .coax p x.requesterSrc x.numberAsked s (some x.requester) := by
  simp only [Exchange.asker, hr, hq]

theorem Exchange.asker_pair {x : Exchange} {mac : Mac} {t : Nat} {s : Byte} (hr : x.requesterRoute = .pair mac)
    (hq : x.requesterSeq = .tagged t s) : Exchange.asker x = .pair mac x.numberAsked t s (some x.requester) := by
  simp only [Exchange.asker, hr, hq]

namespace Bridge

/-! ## The answer a block or a frame carries (R110) -/

theorem coaxAnswer_eq {blk : Block} {y : TargetAnswer} (hr : blk.kind = .reply → y = .reply blk.content blk.payload blk.pad)
    (hh : blk.kind = .hold → y = .hold) (hb : blk.kind = .busy → y = .busy)
    (hf : blk.kind = .fail → y = .fail (blk.content.getD 0 0).toNat)
    (hk : blk.kind = .reply ∨ blk.kind = .hold ∨ blk.kind = .busy ∨ blk.kind = .fail) :
    coaxAnswer blk = some y ∧ (blk.kind = .reply ↔ ∃ content payload pad, y = .reply content payload pad) := by
  rcases hk with hk | hk | hk | hk
  · simp [coaxAnswer, hk, hr hk]
  · simp [coaxAnswer, hk, hh hk]
  · simp [coaxAnswer, hk, hb hk]
  · simp [coaxAnswer, hk, hf hk]

theorem carrierAnswer_eq {f : Carrier} {y : TargetAnswer} (hr : f.kind = .reply → y = .reply f.data f.data false)
    (hh : f.kind = .hold → y = .hold) (hb : f.kind = .busy → y = .busy) (hf : f.kind = .fail → y = .fail f.reason)
    (hk : f.kind = .reply ∨ f.kind = .hold ∨ f.kind = .busy ∨ f.kind = .fail) :
    carrierAnswer f = some y ∧ (f.kind = .reply ↔ ∃ content payload pad, y = .reply content payload pad) := by
  rcases hk with hk | hk | hk | hk
  · simp [carrierAnswer, hk, hr hk]
  · simp [carrierAnswer, hk, hh hk]
  · simp [carrierAnswer, hk, hb hk]
  · simp [carrierAnswer, hk, hf hk]

/-! ## The record an answer matches (R110; log 48) -/

/-- A coax answer fits a record: its target route lies on the segment, under these wire numbers and this sequence bit (R110). -/
def FitsCoax (b : Bridge) (p : Port) (blk : Block) (x : Exchange) : Prop :=
  x.wireDst = blk.src ∧ x.wireSrc = blk.dst ∧ x.outSeq = .bit blk.seq ∧
    ∃ q, (x.targetRoute = .port q ∨ x.targetRoute = .unknownEnd q) ∧ b.segmentOf q = b.segmentOf p

theorem routeOnSegment_iff (b : Bridge) (r : Route) (p : Port) : b.routeOnSegment r p = true ↔
    ∃ q, (r = .port q ∨ r = .unknownEnd q) ∧ b.segmentOf q = b.segmentOf p := by
  cases r <;> simp [routeOnSegment]

section
variable {b : Bridge} {p : Port} {blk : Block}

theorem fitsCoax_iff (x : Exchange) : b.FitsCoax p blk x ↔
    (b.routeOnSegment x.targetRoute p && x.wireDst = blk.src && x.wireSrc = blk.dst && x.outSeq = .bit blk.seq) = true := by
  simp only [FitsCoax, Bool.and_eq_true, decide_eq_true_eq, routeOnSegment_iff]
  exact ⟨fun ⟨hdst, hsrc, hseq, hroute⟩ => ⟨⟨⟨hroute, hdst⟩, hsrc⟩, hseq⟩,
    fun ⟨⟨⟨hroute, hdst⟩, hsrc⟩, hseq⟩ => ⟨hdst, hsrc, hseq, hroute⟩⟩

theorem matchCoax_first {front back : List (Nat × Exchange)} {tag : Nat} {x : Exchange}
    (he : b.exchanges = front ++ (tag, x) :: back) (hf : ∀ z ∈ front, ¬ b.FitsCoax p blk z.2) (hx : b.FitsCoax p blk x) :
    b.matchCoax p blk = some tag := by
  unfold matchCoax
  refine Option.map_eq_some_iff.2 ⟨(tag, x), List.find?_eq_some_iff_append.2
    ⟨(fitsCoax_iff x).1 hx, front, back, he, fun z hz => ?_⟩, rfl⟩
  rw [Bool.not_eq_true', ← Bool.not_eq_true]
  exact mt (fitsCoax_iff z.2).2 (hf z hz)

theorem matchCoax_none (h : ∀ z ∈ b.exchanges, ¬ b.FitsCoax p blk z.2) : b.matchCoax p blk = none :=
  Option.map_eq_none_iff.2 (List.find?_eq_none.2 fun z hz => mt (fitsCoax_iff z.2).2 (h z hz))

end

/-- A pair answer fits the record of its tag with its MAC and its sequence (R110). -/
def FitsPair (f : Carrier) (z : Nat × Exchange) : Prop := z.1 = f.tag ∧ z.2.targetRoute = .pair f.mac ∧ z.2.outSeq = .byte f.seq

section
variable {b : Bridge} {f : Carrier}

theorem fitsPair_iff (z : Nat × Exchange) : FitsPair f z ↔
    (z.1 = f.tag && z.2.targetRoute = .pair f.mac && z.2.outSeq = .byte f.seq) = true := by
  simp only [FitsPair, Bool.and_eq_true, decide_eq_true_eq, and_assoc]

theorem matchPair_fits (h : ∃ z ∈ b.exchanges, FitsPair f z) : b.matchPair f = some f.tag := by
  obtain ⟨z, hz, hfit⟩ := h
  unfold matchPair
  cases hy : b.exchanges.find? fun r => r.1 = f.tag && r.2.targetRoute = .pair f.mac && r.2.outSeq = .byte f.seq with
  | none => exact absurd ((fitsPair_iff z).1 hfit) (List.find?_eq_none.1 hy z hz)
  | some y =>
    have hfound := List.find?_some hy
    obtain ⟨htag, -, -⟩ := (fitsPair_iff y).2 hfound
    exact congrArg some htag

theorem matchPair_none (h : ∀ z ∈ b.exchanges, ¬ FitsPair f z) : b.matchPair f = none :=
  Option.map_eq_none_iff.2 (List.find?_eq_none.2 fun z hz => mt (fitsPair_iff z).2 (h z hz))

end

/-- An answer that matches none is counted, a REPLY captured too (R113). -/
theorem unexpected_eq (b : Bridge) {y : TargetAnswer} (detail : ErrorDetail) {r : Prop} [Decidable r]
    (hr : r ↔ ∃ content payload pad, y = .reply content payload pad) :
    b.unexpected y detail =
      if r then (b.count 5 .unexpectedReply).capture 5 .unexpectedReply detail else b.count 5 .unexpectedAnswer := by
  cases y with
  | reply content payload pad => rw [if_pos (hr.2 ⟨_, _, _, rfl⟩)]; rfl
  | hold => rw [if_neg fun h => by simpa using hr.1 h]; rfl
  | busy => rw [if_neg fun h => by simpa using hr.1 h]; rfl
  | fail reason => rw [if_neg fun h => by simpa using hr.1 h]; rfl

/-! ## What an answer does to its record (R111, R112) -/

section
variable {b : Bridge} {tag : Nat} {x : Exchange} (hx : b.exchange tag = some x)
include hx

theorem targetAnswered_hold : b.targetAnswered tag .hold = b.modExchange tag fun x => { x with state := .held } := by
  simp only [targetAnswered, hx, targetHolds]

/-- A change of an exchange record is known by what it does to the record in use. -/
theorem modExchange_congr {f g : Exchange → Exchange} (h : f x = g x) : b.modExchange tag f = b.modExchange tag g := by
  have hv (v : Exchange) (hv : look tag b.exchanges = some v) : f v = g v := by
    obtain rfl : x = v := Option.some.inj (hx.symm.trans hv)
    exact h
  rw [modExchange, change_congr tag b.exchanges hv]
  rfl

theorem targetAnswered_busy_ignored (hs : x.state = .opened .queued ∨ ∃ d, x.state = .opened (.busyDelay d)) :
    b.targetAnswered tag .busy = b := by
  have hid : b.modExchange tag id = b := by
    rw [modExchange, change_id]
    rfl
  refine Eq.trans ?_ hid
  simp only [targetAnswered, hx, targetBusy]
  refine modExchange_congr hx ?_
  rcases hs with hs | ⟨d, hs⟩ <;> simp only [hs, id]

theorem targetAnswered_busy_delays (hs : x.state = .held ∨ x.state = .opened .awaiting ∨ ∃ w, x.state = .opened (.window w)) :
    b.targetAnswered tag .busy = b.modExchange tag fun x => { x with state := .opened (.busyDelay (b.ctl.now + 2500)) } := by
  simp only [targetAnswered, hx, targetBusy]
  refine modExchange_congr hx ?_
  rcases hs with hs | hs | ⟨w, hs⟩ <;> simp only [hs]

theorem targetAnswered_reply_port {p : Port} {s : Bool} (content payload : List Byte) (pad : Bool)
    (hr : x.requesterRoute = .port p) (hq : x.requesterSeq = .bit s) :
    let blk : Block := if x.direction = .coaxPair then
        Block.build x.requesterSrc x.numberAsked .reply s (inOrder (orderOf b.dir.entries x.target) content)
      else { dst := x.requesterSrc, src := x.numberAsked, kind := .reply, seq := s, pad, payload }
    b.targetAnswered tag (.reply content payload pad) = (b.offeredOn [p] blk .answer (some p)).closeExchange tag := by
  simp only [targetAnswered, hx, relayReply, Exchange.asker_port hr hq, sendEach_nodup _ _ _ _ _ (List.nodup_singleton p)]
  cases x.direction <;> rfl

theorem targetAnswered_reply_pair {mac : Mac} {t : Nat} {s : Byte} (content payload : List Byte) (pad : Bool)
    (hr : x.requesterRoute = .pair mac) (hq : x.requesterSeq = .tagged t s) :
    b.targetAnswered tag (.reply content payload pad) =
      (b.offeredPair { mac, kind := .reply, seq := s, tag := t, dst := x.requester, src := x.target,
                       data := inOrder (orderOf b.dir.entries x.requester) content } .answer).closeExchange tag := by
  simp only [targetAnswered, hx, relayReply, Exchange.asker_pair hr hq, (b.sendPair_eq _ .answer).1]

theorem targetAnswered_fail_port {p : Port} {s : Bool} (reason : Nat) (hr : x.requesterRoute = .port p)
    (hq : x.requesterSeq = .bit s) :
    b.targetAnswered tag (.fail reason) =
      ((b.answer (.coax p x.requesterSrc x.numberAsked s (some x.requester)) (.fail .targetFailed reason) true).closeExchange
        tag).count 5 .targetFailed := by
  simp only [targetAnswered, hx, relayFail, Exchange.asker_port hr hq]

theorem targetAnswered_fail_pair {mac : Mac} {t : Nat} {s : Byte} (reason : Nat) (hr : x.requesterRoute = .pair mac)
    (hq : x.requesterSeq = .tagged t s) :
    b.targetAnswered tag (.fail reason) =
      ((b.offeredPair { mac, kind := .fail, reason := 11, seq := s, tag := t, dst := x.requester, src := x.numberAsked,
                        data := if reason = 0 then [] else [BitVec.ofNat 8 reason] } .answer).closeExchange tag).count 5
        .targetFailed := by
  simp only [targetAnswered, hx, relayFail, Exchange.asker_pair hr hq, (b.sendPair_eq _ .answer).1]
  rfl

end

/-! ## The records a report loses (R115) -/

/-- A report of what concerns some routes loses a route of them that cannot transmit. -/
def Loses (b : Bridge) (concerns : Route → Bool) (r : Route) : Prop := concerns r = true ∧ b.routeCan r = false

theorem loses_iff (b : Bridge) (concerns : Route → Bool) (r : Route) :
    b.Loses concerns r ↔ (concerns r && !b.routeCan r) = true := by
  simp only [Loses, Bool.and_eq_true, Bool.not_eq_true']

section
variable {b : Bridge} {tag : Nat} {x : Exchange} (hx : b.exchange tag = some x)
include hx

theorem exchangeLoss_kept {concerns : Route → Bool} (hr : ¬ b.Loses concerns x.requesterRoute)
    (ht : ¬ b.Loses concerns x.targetRoute) : b.exchangeLoss concerns tag = b := by
  rw [loses_iff, Bool.not_eq_true] at hr ht
  simp only [exchangeLoss, hx, hr, ht, Bool.or_self, Bool.false_eq_true, if_false]

theorem exchangeLoss_lost {concerns : Route → Bool} (h : b.Loses concerns x.requesterRoute ∨ b.Loses concerns x.targetRoute) :
    b.exchangeLoss concerns tag =
      ((if b.routeCan x.requesterRoute then b.answer (Exchange.asker x) (.fail .unreachable 0) true else b).closeExchange
        tag).count 5 .closedByLine := by
  rw [loses_iff, loses_iff, ← Bool.or_eq_true] at h
  simp only [exchangeLoss, hx, h, if_true, failExchange_eq hx rfl]
  split <;> rfl

end

theorem exchanges_closeExchange (b : Bridge) (tag : Nat) : (b.closeExchange tag).exchanges = drop tag b.exchanges :=
  (freed_closeExchange b tag).exchanges

/-- A report takes a record out, or leaves the table as it is where it loses no route of the record. -/
theorem exchange_exchangeLoss {b : Bridge} {concerns : Route → Bool} {t tag : Nat} {x : Exchange}
    (h : (b.exchangeLoss concerns t).exchange tag = some x) :
    b.exchange tag = some x ∧ (tag = t → ¬ b.Loses concerns x.requesterRoute ∧ ¬ b.Loses concerns x.targetRoute) := by
  cases hy : b.exchange t with
  | none =>
    have hb : b.exchangeLoss concerns t = b := by simp only [exchangeLoss, hy]
    rw [hb] at h
    exact ⟨h, fun e => nomatch (e ▸ h).symm.trans hy⟩
  | some y =>
    by_cases hl : b.Loses concerns y.requesterRoute ∨ b.Loses concerns y.targetRoute
    · have hanswered : (if b.routeCan y.requesterRoute then b.answer (Exchange.asker y) (.fail .unreachable 0) true
          else b).exchanges = b.exchanges := by
        split
        · exact b.exchanges_answer _ _ _
        · rfl
      have hdrop : (b.exchangeLoss concerns t).exchanges = drop t b.exchanges := by
        rw [exchangeLoss_lost hy hl]
        exact (exchanges_closeExchange _ t).trans (congrArg _ hanswered)
      rw [exchange, hdrop] at h
      have hne : tag ≠ t := by
        rintro rfl
        exact nomatch (look_drop_self tag b.exchanges).symm.trans h
      exact ⟨(look_drop_ne hne b.exchanges).symm.trans h, fun e => absurd e hne⟩
    · rw [not_or] at hl
      rw [exchangeLoss_kept hy hl.1 hl.2] at h
      refine ⟨h, fun e => ?_⟩
      subst e
      obtain rfl : y = x := Option.some.inj (hy.symm.trans h)
      exact hl

/-! ## The records a loss of the link leaves (R115) -/

/-- With the link DOWN, the report of the pair side loses every PAIR route. -/
theorem loses_pair {b : Bridge} (h : b.pair.link = false) (mac : Mac) : b.Loses onPair (.pair mac) := ⟨rfl, h⟩

/-- Of the records of some tags, those with a PAIR route do not outlast the reports of a link that is DOWN. -/
theorem exchange_losses_onPair : ∀ (ts : List Nat) {b : Bridge} {tag : Nat} {x : Exchange}, b.pair.link = false →
    (ts.foldl (fun c t => c.exchangeLoss onPair t) b).exchange tag = some x →
    b.exchange tag = some x ∧ (tag ∈ ts → (∀ m, x.requesterRoute ≠ .pair m) ∧ ∀ m, x.targetRoute ≠ .pair m)
  | [], b, tag, x, _, h => ⟨h, fun hm => nomatch hm⟩
  | t :: ts, b, tag, x, hl, h => by
    obtain ⟨hx, hts⟩ := exchange_losses_onPair ts ((pairGroupKept_exchangeLoss b onPair t).link.trans hl) h
    obtain ⟨hb, ht⟩ := exchange_exchangeLoss hx
    refine ⟨hb, fun hm => (List.mem_cons.1 hm).elim (fun e => ?_) hts⟩
    obtain ⟨hr, hq⟩ := ht e
    exact ⟨fun m hm => hr (hm ▸ loses_pair hl m), fun m hm => hq (hm ▸ loses_pair hl m)⟩

theorem exchanges_countCapture (b : Bridge) (g : Fin 9) (kind : Ctr) (detail : ErrorDetail) :
    (b.countCapture g kind detail).exchanges = b.exchanges := by
  cases h : ((b.count g kind).group g).first with
  | some e => rw [countCapture, capture_held _ g kind detail h]; rfl
  | none =>
    rw [countCapture, capture_first _ g kind detail h]
    split
    · rfl
    · exact (kept_notify _ _).exchanges

theorem exchanges_lossReport (b : Bridge) (cause : LossCause) {o : Origin} (n : Nat) (h : ∀ tag, o ≠ .request tag) :
    (b.lossReport cause o n).exchanges = b.exchanges := by
  cases o with
  | forward => simp only [lossReport]; split <;> rfl
  | request tag => exact absurd rfl (h tag)
  | delivery l => exact (kept_deliveryNotSent b l n).exchanges
  | relay _ | query _ | agent | notice | jobNotice | answer => rfl

theorem exchanges_pairFrameLost (b : Bridge) (f : PairFrame) : (b.pairFrameLost f).exchanges = b.exchanges := by
  by_cases h : ∃ tag, f.origin = .request tag
  · obtain ⟨tag, ho⟩ := h
    rw [b.pairFrameLost_request f ho]
  · have ho : ∀ tag, f.origin ≠ .request tag := fun tag e => h ⟨tag, e⟩
    rw [b.pairFrameLost_other f ho, b.exchanges_lossReport _ _ ho]

theorem exchanges_pairFramesLost : ∀ (l : List PairFrame) (b : Bridge), (l.foldl pairFrameLost b).exchanges = b.exchanges
  | [], _ => rfl
  | f :: l, b => (exchanges_pairFramesLost l (b.pairFrameLost f)).trans (b.exchanges_pairFrameLost f)

/-- After the exchanges with a PAIR route have been closed, nothing of a loss of the link changes the table. -/
theorem exchanges_linkLost (b : Bridge) : b.linkLost.exchanges = (b.linkEmptied.exchangeLosses onPair).exchanges := by
  have hclosed : b.linkClosed.exchanges = (b.linkEmptied.exchangeLosses onPair).exchanges := (kept_deliveryLosses _ _).exchanges
  have hcounted : b.linkCounted.exchanges = b.linkClosed.exchanges := exchanges_countCapture _ _ _ _
  rw [linkLost_eq, (BridgeKept.foldl _ kept_listedPairFlushed _ _).exchanges, exchanges_pairFramesLost, hcounted, hclosed]

theorem exchange_linkLost {b : Bridge} (h16 : ∀ z ∈ b.exchanges, z.1 < 16) {tag : Nat} {x : Exchange}
    (h : b.linkLost.exchange tag = some x) :
    b.exchange tag = some x ∧ (∀ m, x.requesterRoute ≠ .pair m) ∧ ∀ m, x.targetRoute ≠ .pair m := by
  rw [exchange, exchanges_linkLost] at h
  obtain ⟨hx, hoff⟩ := exchange_losses_onPair (List.range 16) b.link_linkEmptied h
  have hb : b.exchange tag = some x := hx
  exact ⟨hb, hoff (List.mem_range.2 (h16 _ (mem_of_look hb)))⟩

end Bridge

/-- Settles O40: the record an answer matches, what the answer does to it, and the records that reports close. -/
theorem targetAnswersActOnTheRecord : Obligations.TargetAnswersActOnTheRecord := by
  refine ⟨fun b p blk y hr hh hb hf hk => ?_, fun b f y hr hh hb hf hk => ?_, fun b tag x hx => ?_, fun b concerns tag x hx => ?_,
    fun b concerns => rfl, fun s hl h16 => ⟨s.after [] s.bridge.linkLost, ?_, fun tag x h => ?_⟩⟩
  · obtain ⟨hy, hreply⟩ := Bridge.coaxAnswer_eq hr hh hb hf hk
    refine ⟨fun front tag x back he hfront hx => ?_, fun hnone => ?_⟩
    · simp only [Bridge.exchangeCoaxAnswer, hy, Bridge.matchCoax_first he hfront hx]
    · simp only [Bridge.exchangeCoaxAnswer, hy, Bridge.matchCoax_none hnone, b.unexpected_eq _ hreply]
  · obtain ⟨hy, hreply⟩ := Bridge.carrierAnswer_eq hr hh hb hf hk
    refine ⟨fun hsome => ?_, fun hnone => ?_⟩
    · simp only [Bridge.exchangePairAnswer, hy, Bridge.matchPair_fits hsome]
    · simp only [Bridge.exchangePairAnswer, hy, Bridge.matchPair_none hnone, b.unexpected_eq _ hreply]
  · exact ⟨Bridge.targetAnswered_hold hx, Bridge.targetAnswered_busy_ignored hx, Bridge.targetAnswered_busy_delays hx,
      fun p s content payload pad => Bridge.targetAnswered_reply_port hx content payload pad,
      fun mac t s content payload pad => Bridge.targetAnswered_reply_pair hx content payload pad,
      fun p s reason => Bridge.targetAnswered_fail_port hx reason, fun mac t s reason => Bridge.targetAnswered_fail_pair hx reason⟩
  · exact ⟨Bridge.exchangeLoss_kept hx, Bridge.exchangeLoss_lost hx⟩
  · rw [exec_linkDown, s.bridge.linkGoesDown_up hl]
  · have hsettled : (s.after [] s.bridge.linkLost).bridge.exchanges = s.bridge.linkLost.exchanges :=
      (Bridge.kept_settle _ _).exchanges
    rw [Bridge.exchange, hsettled] at h
    exact Bridge.exchange_linkLost h16 h

end Sys2Proof.Machine

/-! # The bytes of the spool store (O7). -/

namespace Sys2Proof.Machine
open Sys2Proof

namespace Bridge

/-- Nothing waits to be written into the spool store (log 5). -/
def AllWritten (b : Bridge) : Prop := b.spool.toWrite = []

namespace AllWritten

variable {b c : Bridge}

/-! ## What leaves nothing to write in general -/

theorem lawful (h : b.AllWritten) (k : Lawful b c) : c.AllWritten := k.toWrite h

theorem steady (h : b.AllWritten) (k : Steady b c) : c.AllWritten := k.toWrite h

theorem kept (h : b.AllWritten) (k : BridgeKept b c) : c.AllWritten := k.toWrite h

theorem freed (h : b.AllWritten) (k : Freed b c) : c.AllWritten := by
  obtain ⟨es, rs, ps, rfl⟩ := k.rest
  exact h

theorem foldl {α : Type} {f : Bridge → α → Bridge} (hf : ∀ {b : Bridge}, b.AllWritten → ∀ x, (f b x).AllWritten) :
    ∀ (l : List α) {b : Bridge}, b.AllWritten → (l.foldl f b).AllWritten
  | [], _, h => h
  | x :: l, _, h => foldl hf l (hf h x)

/-- An effect under a condition. -/
theorem guarded {p : Prop} [Decidable p] (hc : c.AllWritten) (h : b.AllWritten) : (if p then c else b).AllWritten := by
  split
  · exact hc
  · exact h

theorem sendPair (h : b.AllWritten) (x : Carrier) (o : Origin) : (b.sendPair x o).2.AllWritten := h.kept (kept_sendPair b x o)

/-! ## Coax commands -/

theorem handOn (h : b.AllWritten) (p : Port) (blk : Block) : (b.handOn p blk).AllWritten := guarded h h

theorem receiveBurst (h : b.AllWritten) (p : Port) (x : Burst) : (b.receiveBurst p x).AllWritten := by
  unfold Bridge.receiveBurst
  split
  · exact h
  · split
    · exact h
    · exact h.handOn p _

theorem startAttempt (h : b.AllWritten) (p : Port) : (b.startAttempt p).AllWritten := by
  unfold Bridge.startAttempt
  split
  · split
    · exact h
    · exact guarded h h
    · exact h
  · exact h

theorem collide (h : b.AllWritten) (p : Port) : (b.collide p).AllWritten := by
  unfold Bridge.collide
  split
  next a _ =>
    extract_lets c
    have hc : c.AllWritten := h
    split
    next f _ =>
      split
      · exact hc
      · have hd : (c.countLine p .excessCollision).AllWritten := hc
        exact (hd.steady (steady_removeHead _ p _)).steady (steady_frameLost _ _ f)
    next => exact hc
  next => exact h

theorem frameSent (h : b.AllWritten) (f : CoaxFrame) : (b.frameSent f).AllWritten :=
  guarded (c := b.markSent f.serial) h (steady (b := b.markSent f.serial) h (steady_sendReport _ _ _ _))

theorem completeSend (h : b.AllWritten) (p : Port) : (b.completeSend p).AllWritten := by
  unfold Bridge.completeSend
  split
  · split
    · extract_lets frame c
      have hc : c.AllWritten := h
      clear_value c frame
      split
      · exact (hc.steady (steady_removeHead _ p _)).frameSent _
      · exact hc
    · exact h
  · exact h

theorem refillAll (h : b.AllWritten) : b.refillAll.AllWritten := by
  have hf : ((List.finRange 4).foldl
      (fun b p => b.modPort p (refill (b.portSettings p).share (b.portSettings p).cap)) b).AllWritten := foldl (fun h _ => by exact h) _ h
  exact guarded hf h

/-! ## The pair port -/

theorem answerHello (h : b.AllWritten) (f : Carrier) (k : Kind) (reason dst : Nat) : (b.answerHello f k reason dst).AllWritten := by
  have hs := h.sendPair { mac := f.mac, kind := k, reason, seq := f.seq, tag := f.tag, dst, src := 1 } .answer
  unfold Bridge.answerHello
  split <;> next heq => rw [heq] at hs; exact hs

theorem hello (h : b.AllWritten) (f : Carrier) : (b.hello f).AllWritten := by
  unfold Bridge.hello
  split
  next n _ _ => exact answerHello (b := b.heardFrom n) h _ _ _ _
  next =>
    split
    · exact h.answerHello _ _ _ _
    · split
      next n _ => exact answerHello (b := b.modEntries (put n (b.registeredEntry f.mac))) h _ _ _ _
      next => exact (h.steady (steady_countCapture b _ _ _)).answerHello _ _ _ _

theorem offerPairPlace : ∀ (l : List Lp) {b : Bridge}, b.AllWritten → (b.offerPairPlace l).AllWritten
  | [], _, h => h
  | l :: rest, b, h => by
    rw [Bridge.offerPairPlace]
    split
    next f _ =>
      exact kept (b := b.modPair fun x => { x with waiting := rest }) h ((kept_offerPair _ f).trans (kept_listedAccepted _ l))
    next => exact offerPairPlace rest h

theorem completeHandover (h : b.AllWritten) : b.completeHandover.AllWritten := by
  unfold Bridge.completeHandover
  split
  · extract_lets c
    have hc : c.AllWritten := h
    exact (offerPairPlace _ hc).steady (steady_sendReport _ _ _ _)
  · exact h

theorem linkComesUp (h : b.AllWritten) : b.linkComesUp.AllWritten :=
  guarded (steady (b := b.modPair fun x => { x with link := true, waitFrom := none }) h (steady_refreshReach _)) h

theorem indicationBreak (h : b.AllWritten) : b.indicationBreak.AllWritten := guarded h h

theorem linkGoesDown (h : b.AllWritten) : b.linkGoesDown.AllWritten :=
  guarded (steady (b := b.linkEmptied) h (steady_linkLost b)) h.indicationBreak

/-! ## Exchanges, jobs and entries -/

theorem closeAnswerWindow (h : b.AllWritten) (tag : Nat) : (b.closeAnswerWindow tag).AllWritten := by
  unfold Bridge.closeAnswerWindow
  split
  · split
    · exact guarded (h.steady (steady_questionUnanswered b tag)) h
    · exact h
  · exact h

theorem endBusyDelay (h : b.AllWritten) (tag : Nat) : (b.endBusyDelay tag).AllWritten := by
  unfold Bridge.endBusyDelay
  split
  · split
    · exact guarded (h.steady (steady_resendQuestion b tag)) h
    · exact h
  · exact h

theorem timeOutExchange (h : b.AllWritten) (tag : Nat) : (b.timeOutExchange tag).AllWritten := by
  unfold Bridge.timeOutExchange
  split
  · exact guarded (h.steady ((steady_failExchange b tag _).trans (steady_count _ _ _))) h
  · exact h

theorem toldOfData (h : b.AllWritten) (l : Lp) : (b.toldOfData l).AllWritten := guarded (h.kept (kept_buildFrame b l)) h

theorem stallJob (h : b.AllWritten) (j : Job) : (b.stallJob j).AllWritten := by
  unfold Bridge.stallJob
  refine steady ?_ (steady_countCapture _ _ _ _)
  split
  · exact h.kept (kept_endJob b _ _ _)
  · extract_lets c
    have hc : c.AllWritten := h
    exact guarded (hc.kept (kept_endJob c _ _ _)) (guarded (hc.toldOfData _) hc)

theorem jobStalls (h : b.AllWritten) (n : Nat) : (b.jobStalls n).AllWritten := by
  unfold Bridge.jobStalls
  split
  · exact guarded (h.stallJob _) h
  · exact h

theorem endAgeingPeriod (h : b.AllWritten) : b.endAgeingPeriod.AllWritten := by
  unfold Bridge.endAgeingPeriod
  split
  · extract_lets c
    have hc : c.AllWritten := h
    exact hc.freed (freed_freeEntries _ c)
  · exact h

theorem cancelJob (h : b.AllWritten) (n : Nat) (r : JobReason) : (b.cancelJob n r).AllWritten := by
  unfold Bridge.cancelJob
  split
  · split
    · exact h.kept (kept_endJob b n _ _)
    · exact h.kept (kept_endJob b n _ _)
    · unfold cancelDelivery
      split
      next d _ =>
        have hc : (b.modJob d.job fun j => { j with cancelReason := some r }).AllWritten := h
        simp only
        split
        · exact hc
        · exact hc
        · exact hc.kept (kept_finish _ _ _ _)
      next => exact h
    · exact h
  · exact h

/-! ## Deliveries -/

theorem paceRefills (h : b.AllWritten) (l : Lp) : (b.paceRefills l).AllWritten := by
  unfold Bridge.paceRefills
  split
  · exact guarded h h
  · exact h

theorem deliveryWindowCloses (h : b.AllWritten) (l : Lp) : (b.deliveryWindowCloses l).AllWritten := by
  unfold Bridge.deliveryWindowCloses
  split
  · exact guarded (h.kept (kept_tryEnds b l)) h
  · exact h

theorem holdWaitEnds (h : b.AllWritten) (l : Lp) : (b.holdWaitEnds l).AllWritten := by
  unfold Bridge.holdWaitEnds
  split
  · exact guarded (h.kept (kept_resend b l 1)) h
  · exact h

theorem sendQuery (h : b.AllWritten) (n : DirNo) (r : Route) (src : Nat) : (b.sendQuery n r src).AllWritten := by
  unfold Bridge.sendQuery
  extract_lets q serial c
  have hc : c.AllWritten := (h.kept (kept_newQuestion b n r)).kept (kept_modPrinter _ n _)
  clear_value c
  split
  next mac seq =>
    have hs := hc.sendPair { mac, kind := .status, seq, tag := 1, dst := n, src := 1 } (.query n)
    split <;> next heq => rw [heq] at hs; exact hs
  next =>
    have hn : c.nextSerial.AllWritten := hc
    exact foldl (fun h p => h.steady (steady_offer0 _ p _)) _ hn

theorem queryDue (h : b.AllWritten) (n : DirNo) : (b.queryDue n).AllWritten := by
  unfold Bridge.queryDue
  split
  · exact h.sendQuery _ _ _
  · split
    · split
      · exact guarded (h.sendQuery _ _ _) h
      · exact h
    · exact h

theorem pollDue (h : b.AllWritten) (n : DirNo) : (b.pollDue n).AllWritten := by
  unfold Bridge.pollDue
  split
  · exact guarded (queryDue (b := b.modPrinter n fun r => { r with pollFrom := some b.now }) h n) h
  · exact h

theorem queryWindowCloses (h : b.AllWritten) (n : DirNo) : (b.queryWindowCloses n).AllWritten := by
  unfold Bridge.queryWindowCloses
  split
  · exact guarded h h
  · exact h

theorem pauseEnds (h : b.AllWritten) (n : DirNo) : (b.pauseEnds n).AllWritten := by
  unfold Bridge.pauseEnds
  split
  · extract_lets c
    have hc : c.AllWritten := h
    split
    · exact hc.kept (kept_stop c _)
    · exact hc
  · exact h

/-! ## The plan and the settings -/

theorem applyEdit {y : Tally × Bridge} (h : y.2.AllWritten) (x : Edit) : (Bridge.applyEdit y x).2.AllWritten := by
  unfold Bridge.applyEdit
  split
  · split
    · dsimp only
      split <;> exact h
    · exact h
  · unfold followPrinter
    exact h
  · split <;> exact h

theorem applyEdits : ∀ (l : List Edit) {y : Tally × Bridge}, y.2.AllWritten → (l.foldl Bridge.applyEdit y).2.AllWritten
  | [], _, h => h
  | x :: l, _, h => applyEdits l (applyEdit h x)

theorem applyCommit (h : b.AllWritten) : b.applyCommit.2.AllWritten := by
  unfold Bridge.applyCommit
  extract_lets edits y c
  have hy : y.2.AllWritten := applyEdits _ (h.kept (kept_stopMoved b edits))
  have hc : c.AllWritten := foldl (fun h x => h.kept (kept_liftAll _ x.2)) _ hy
  have hr : (c.modDir fun d => { d with staging := [] }).refreshReach.AllWritten :=
    steady (b := c.modDir fun d => { d with staging := [] }) hc (steady_refreshReach _)
  exact guarded hr hr

theorem commit (h : b.AllWritten) : b.commit.2.2.AllWritten := by
  unfold Bridge.commit
  split
  · exact h
  · split
    · exact h
    · split
      · exact h
      · split
        · exact h
        · exact h.applyCommit

theorem settingChanged (h : b.AllWritten) (p : Port) (old new : PortSettings) : (b.settingChanged p old new).AllWritten := by
  unfold Bridge.settingChanged
  extract_lets b₁ b₂
  have h₂ : b₂.AllWritten := h
  exact guarded h₂ (guarded (h₂.lawful (lawful_enablePort b₂ p)) (h₂.lawful (lawful_disablePort b₂ p)))

theorem setSetting (h : b.AllWritten) (sel id : Nat) (v : SettingValue) : (b.setSetting sel id v).2.2.AllWritten := by
  unfold Bridge.setSetting
  split
  · exact h
  · split
    · exact h
    next y _ => exact settingChanged (b := b.setSettings y) h _ _ _

/-! ## Management -/

theorem editEntry (h : b.AllWritten) (sel : Nat) (x : EntryEdit) : (b.editEntry sel x).2.2.AllWritten := by
  unfold Bridge.editEntry stage
  extract_lets malformed
  split
  · exact h
  · split
    · exact h
    · split <;> exact h

theorem editPrinter (h : b.AllWritten) (sel : Nat) (x : Binding) : (b.editPrinter sel x).2.2.AllWritten := by
  unfold Bridge.editPrinter stage
  extract_lets bad
  split
  · exact h
  · split <;> exact h

theorem onPort (h : b.AllWritten) (sel : Nat) {f : Port → Result × AnswerBody × AfterAnswer × Bridge}
    (hf : ∀ p, (f p).2.2.2.AllWritten) : (b.onPort sel f).2.2.2.AllWritten := by
  unfold Bridge.onPort
  split
  · exact hf _
  · exact h

theorem requestReset (h : b.AllWritten) (k : ArmedReset) : (b.requestReset k).2.2.2.AllWritten := by
  unfold Bridge.requestReset
  split <;> exact h

theorem carryOut (h : b.AllWritten) (r : ManageReq) : (b.carryOut r).2.2.2.AllWritten := by
  cases r with
  | setSetting sel id v => exact h.setSetting sel id v
  | editEntry sel e => exact h.editEntry sel e
  | editPrinter sel x => exact h.editPrinter sel x
  | commit => exact h.commit
  | readPort sel => exact h.onPort sel fun _ => h
  | clearFaults sel kinds foreign =>
    refine h.onPort sel fun p => ?_
    split
    · exact h
    · exact h.lawful (lawful_clearFaults b p kinds)
  | cancelJob sel =>
    simp only [Bridge.carryOut]
    split
    · exact h.cancelJob _ _
    · exact h
  | resetBridge => exact h.requestReset _
  | resetPort sel => exact h.onPort sel fun _ => h.requestReset _
  | readSetting sel id =>
    simp only [Bridge.carryOut, plain, Bridge.readSetting]
    split <;> exact h
  | readEntry sel =>
    simp only [Bridge.carryOut]
    split <;> exact h
  | readPrinter sel clear => exact guarded (c := b.modDelivery fun u => { u with counters := cleared u.counters }) h h
  | readErrors sel =>
    simp only [Bridge.carryOut, onGroup]
    split <;> exact h
  | clearErrors sel clear =>
    simp only [Bridge.carryOut, onGroup]
    split <;> exact h
  | readForwarding clear => exact guarded (c := b.setForwarding (cleared b.forwarding)) h h
  | save =>
    simp only [Bridge.carryOut, plain, beginSave]
    split <;> exact h
  | _ => exact h

theorem manageAnswer (h : b.AllWritten) (a : Asker) (l : List Byte) : (b.manageAnswer a l).2.AllWritten := by
  cases a with
  | coax p src dst seq e =>
    have hs := h.kept (kept_sendEach b [p] (Block.build src dst .manage seq l) .agent none)
    simp only [Bridge.manageAnswer]
    split <;> exact hs
  | pair mac dst tag seq e =>
    have hs := h.sendPair { mac, kind := .manage, seq, tag, dst := e.getD 0, src := dst, data := l } .agent
    simp only [Bridge.manageAnswer]
    split <;> next heq => rw [heq] at hs; exact hs

theorem takeManage (h : b.AllWritten) (a : Asker) (code sel : Nat) (r : Option ManageReq) :
    (b.takeManage a code sel r).AllWritten := by
  unfold Bridge.takeManage
  extract_lets x c y
  have hc : c.AllWritten := by
    unfold c x
    split
    · split
      · exact h.carryOut _
      · exact h
    · exact h
  have hy : y.2.AllWritten := hc.manageAnswer a _
  unfold Bridge.armReset
  split <;> exact hy

theorem knowSender (h : b.AllWritten) (f : Carrier) : (b.knowSender f).AllWritten := by
  unfold Bridge.knowSender
  split
  · exact h.hello f
  · split
    next n _ _ =>
      exact guarded (c := b.heardFrom n) (b := (b.heardFrom n).countPair .sourceMismatch) h h
    next => exact guarded (h.takeManage _ _ _ _) h

theorem receiveFrame (h : b.AllWritten) (f : EtherIn) : (b.receiveFrame f).AllWritten := by
  unfold Bridge.receiveFrame
  refine guarded h (guarded h (guarded h (guarded h (guarded h (guarded h ?_)))))
  split
  · exact h
  · exact h.knowSender _

theorem completeSave (h : b.AllWritten) (ack : Bool) : (b.completeSave ack).AllWritten := guarded h h

/-! ## Feed commands -/

theorem probeFallsDue (h : b.AllWritten) (i : PairNo) : (b.probeFallsDue i).AllWritten := guarded (guarded h h) h

theorem pulse (h : b.AllWritten) (i : PairNo) (a : Nat) (foreign : Bool) : (b.pulse i a foreign).AllWritten := by
  unfold Bridge.pulse
  split
  · extract_lets level disturbed c
    have hc : c.AllWritten := h
    exact guarded (hc.lawful ((lawful_feedEvent c i _).trans (.ofFeed _ i _))) hc
  · exact h

theorem jabberDetected (h : b.AllWritten) (p : Port) : (b.jabberDetected p).AllWritten :=
  guarded (lawful (b := b.modPort p fun x => { x with carrier := x.carrier.map fun c => { c with jabbered := true } }) h
    (lawful_detect _ p _ _ fun b => lawful_isolate b p _)) h

/-! ## Resets and the load -/

/-- Whatever a soft reset makes of the jobs, it writes no byte of the store. -/
theorem resetJobs (h : b.AllWritten) : b.resetJobs.AllWritten :=
  foldl (fun h j => guarded (h.kept (kept_retireJob _ j)) (guarded (h.kept (kept_requeue _ j)) h)) _ h

theorem restartFeed (h : b.AllWritten) (i : PairNo) (on : Bool) (k : Counters) : (b.restartFeed i on k).AllWritten :=
  freed (b := b.modFeed i fun _ => Feed.restart on k) h (freed_restartFeed b i on k)

theorem followBoth (h : b.AllWritten) : b.followBoth.2.AllWritten := h.lawful ((lawful_follow b 0).trans (lawful_follow _ 1))

theorem softReset (h : b.AllWritten) : b.softReset.AllWritten := by
  have h₁ : b.softEmptied.AllWritten := by
    rw [softEmptied_eq]
    exact h
  have h₂ : b.softClosed.AllWritten := by
    unfold softClosed
    exact foldl (fun h t => h.steady (steady_closeExchange _ t)) _ h₁
  have h₃ : b.softStopped.AllWritten := by
    unfold softStopped
    exact resetJobs (b := b.softClosed.endDeliveries) h₂
  have h₄ : b.softPinned.AllWritten := freed (b := b.softStopped.modDir fun d => { d with staging := [] }) h₃ (freed_softPinned b)
  have h₅ : b.softRestarted.AllWritten := by
    unfold softRestarted
    exact foldl (fun h _ => by exact h) _ h₄
  have h₆ : b.softFed.AllWritten := by
    unfold softFed
    exact (h₅.restartFeed _ _ _).restartFeed _ _ _
  have h₇ : b.softSettled.AllWritten := by
    unfold softSettled
    exact h₆.followBoth
  have h₈ : b.softEnded.AllWritten := by
    have hc := h₇.lawful (lawful_concludeChange b.softSettled b b.softFed.followBoth.1)
    unfold softEnded
    exact hc
  rw [softReset_eq]
  refine foldl (fun h j => ?_) _ h₈
  split
  · exact h.kept (kept_jobNotice _ j _ _)
  · exact h

theorem portReset (h : b.AllWritten) (p : Port) : (b.portReset p).AllWritten := by
  have hr : ((b.portRestarted p).resetFeed (pairOf p)).AllWritten :=
    freed (b := (b.portRestarted p).setFeeds ((b.portRestarted p).resetFeed (pairOf p)).feeds) h (freed_resetFeed _ (pairOf p))
  have hf : (b.portFed p).AllWritten := hr
  exact (hf.lawful (lawful_follow _ _)).steady (steady_portReset b p)

theorem startUp (h : b.AllWritten) : b.startUp.AllWritten := by
  have ht : b.timed.AllWritten := h
  rw [startUp_eq_timed]
  exact ht.followBoth.lawful (lawful_concludeChange _ _ _)

theorem endLoad (h : b.AllWritten) (ack : Bool) : (b.endLoad ack).AllWritten := by
  unfold Bridge.endLoad
  extract_lets r c
  have hc : c.AllWritten := guarded h h
  exact startUp (b := c.modAgent fun a => { a with loadResult := r, setup := r ≠ .good }) hc

theorem takeSoftReset (h : b.AllWritten) : b.takeSoftReset.AllWritten := by
  unfold Bridge.takeSoftReset
  split
  · exact guarded h.softReset h
  · exact h

theorem takePortReset (h : b.AllWritten) : b.takePortReset.AllWritten := by
  unfold Bridge.takePortReset
  split
  · split
    · exact guarded (h.portReset _) h
    · exact h
  · exact h

/-! ## Commands -/

theorem receivesBlock (h : b.AllWritten) (p : Port) (x : Burst) :
    (((b.whenPowered (·.keepAmplitude p x)).carrierEnds p).whenPowered (·.receiveBurst p x)).AllWritten := by
  have hk : (b.whenPowered (·.keepAmplitude p x)).AllWritten := guarded (guarded h h) h
  have hc : ((b.whenPowered (·.keepAmplitude p x)).carrierEnds p).AllWritten := hk
  exact guarded (hc.receiveBurst p x) hc

end AllWritten
end Bridge

/-- A command changes the byte read at no address that its append does not name: a changed stored bit changes no byte (log 6). -/
theorem read_storeAfter (m : Store) (u : List Nat) (b : Bridge) {a : Nat} (ha : a ∉ b.spool.toWrite.map (·.1)) :
    Memory.read (storeAfter m u b).cells a = Memory.read m.cells a :=
  Store.read_writeAll_of_not_mem _ (m.upset u) a fun c hc hca => ha (List.mem_map.2 ⟨c, hc, hca⟩)

/-- A command whose own effect leaves nothing to write keeps every byte of the store. -/
theorem read_command {s t : State} {u : List Nat} {f : Bridge → Bridge} (hf : (f s.bridge).AllWritten)
    (ht : s.command u f = .next t) (a : Nat) : Memory.read t.store.cells a = Memory.read s.store.cells a := by
  cases ht
  refine read_storeAfter s.store u (f s.bridge) ?_
  rw [hf]
  exact List.not_mem_nil

/-- Every command but TAKE_ARRIVAL keeps every byte of the store. -/
theorem read_exec {s t : State} (c : Instr) (hc : ∀ src u, c ≠ .takeArrival src u) (ht : exec c s = .next t)
    (h : s.bridge.AllWritten) (a : Nat) : Memory.read t.store.cells a = Memory.read s.store.cells a := by
  have running {u : List Nat} {f : Bridge → Bridge} (hf : (f s.bridge).AllWritten)
      (e : s.command u (·.whenRunning f) = .next t) : Memory.read t.store.cells a = Memory.read s.store.cells a :=
    read_command (f := (·.whenRunning f)) (.guarded hf h) e a
  have manage (x : Asker) (r : ManageReq) (e : s.manage x r = .next t) :
      Memory.read t.store.cells a = Memory.read s.store.cells a := running (h.takeManage x _ _ _) e
  cases c with
  | takeArrival src upset => exact absurd rfl (hc src upset)
  | receiveBlock p x =>
    exact read_command
      (f := fun b => ((b.whenPowered (·.keepAmplitude p x)).carrierEnds p).whenPowered (·.receiveBurst p x)) (h.receivesBlock p x) ht a
  | attemptStart p => exact running (h.startAttempt p) ht
  | collision p => exact running (h.collide p) ht
  | backoffEnd p => exact running (f := (·.endBackoff p)) (.guarded h h) ht
  | sendComplete p => exact running (h.completeSend p) ht
  | repeatMemoryExpire segment asker dst => exact running h ht
  | allowanceRefill => exact read_command (f := (·.whenPowered (·.refillAll))) (.guarded h.refillAll h) ht a
  | linkIndicationOn => exact read_command (f := (·.indicationOn)) h ht a
  | linkUp => exact running h.linkComesUp ht
  | linkDown => exact read_command h.linkGoesDown ht a
  | pairFrameReceive f => exact running (h.receiveFrame f) ht
  | pairSendComplete => exact running h.completeHandover ht
  | pairRepeatExpire asker dst tag => exact running h ht
  | exchangeWindowClose tag => exact running (h.closeAnswerWindow tag) ht
  | busyDelayEnd tag => exact running (h.endBusyDelay tag) ht
  | exchangeTimeout tag => exact running (h.timeOutExchange tag) ht
  | jobStall job => exact running (h.jobStalls job) ht
  | ageingPeriodEnd => exact running h.endAgeingPeriod ht
  | paceRefill lp upset => exact running (h.paceRefills lp) ht
  | deliveryWindowClose lp upset => exact running (h.deliveryWindowCloses lp) ht
  | holdWaitEnd lp upset => exact running (h.holdWaitEnds lp) ht
  | statusQueryDue printer => exact running (h.pollDue printer) ht
  | queryWindowClose printer => exact running (h.queryWindowCloses printer) ht
  | pauseLimit printer => exact running (h.pauseEnds printer) ht
  | saveComplete ack => exact running (h.completeSave ack) ht
  | softReset => exact running h.takeSoftReset ht
  | portReset => exact running h.takePortReset ht
  | powerOn => exact read_command (f := (·.powerOn)) rfl ht a
  | pinReset => exact read_command (f := (·.pinReset)) (.guarded h rfl) ht a
  | resetEnd => exact read_command (f := (·.resetEnd)) (.guarded h h) ht a
  | configLoadEnd ack => exact read_command (f := (·.takeLoadEnd ack)) (.guarded (h.endLoad ack) h) ht a
  | testRunEnd p result => exact running (f := (·.testRunEnds p result)) (.guarded (h.lawful (Bridge.lawful_testResult _ p result)) h) ht
  | testInterrupt p => exact running (f := (·.testInterrupted p)) (.guarded (h.lawful (Bridge.lawful_interruptTest _ p)) h) ht
  | testRunResume p => exact running (f := (·.testResumes p)) (.guarded h h) ht
  | shortDetection x =>
    exact running (f := (·.shortDetected x.port x.duration))
      (.guarded (h.lawful (Bridge.lawful_detect _ x.port _ _ fun b => Bridge.lawful_isolate b x.port _)) h) ht
  | jabberDetection p => exact running (h.jabberDetected p) ht
  | jabberRecovery p => exact running (f := (·.jabberRecovers p)) (.guarded (h.lawful (Bridge.lawful_leaveHold _ p _)) h) ht
  | echoMeasurement p amplitude =>
    exact running (f := (·.echoMeasured p amplitude)) (.guarded (h.lawful (Bridge.lawful_measureEcho _ p amplitude)) h) ht
  | levelSample x =>
    exact running (f := (·.sampleDue x.port x.onWire)) (.guarded (h.lawful (Bridge.lawful_takeSample _ x.port x.onWire)) h) ht
  | switchWindowClose k =>
    exact running (f := (·.switchWindowCloses k)) (.guarded (h.lawful (Bridge.lawful_feedEvent _ k _)) h) ht
  | splitWindowClose k =>
    exact running (f := (·.splitWindowCloses k)) (.guarded (h.lawful (Bridge.lawful_splitNow _ k)) h) ht
  | probeDue k => exact running (f := (·.probeFallsDue k)) (h.probeFallsDue k) ht
  | probePulse k amplitude foreign => exact running (h.pulse k amplitude foreign) ht
  | linkIndicationBreak => exact read_command h.indicationBreak ht a
  | foreignCarrierStart p => exact read_command (f := (·.carrierStarts p)) h ht a
  | _ => exact manage _ _ ht

/-- Settles O7: only an arrival leaves bytes to write, and they go to the addresses that its append names. -/
theorem storeBytesAreKept : Obligations.StoreBytesAreKept := by
  refine ⟨fun c s t hw hc ht => read_exec c hc ht hw, fun src u s t ht a ha => ?_⟩
  cases ht
  exact read_storeAfter s.store u _ ha

end Sys2Proof.Machine

/-! # PRINT-OPEN and the place of a job in its queue (O34). -/

namespace Sys2Proof.Machine
open Sys2Proof

namespace Bridge

/-! ## The place of a job in its queue (R124) -/

/-- A change of one logical printer is known by what it does to its record. -/
theorem modLp_congr (b : Bridge) (l : Lp) {f g : LogicalPrinter → LogicalPrinter} (h : f (b.lp l) = g (b.lp l)) :
    b.modLp l f = b.modLp l g :=
  congrArg (fun x => b.setSpool { b.spool with lps := b.spool.lps.set l x }) h

theorem insertUrgent_none (u : Nat → Bool) (n : Nat) : ∀ l : List Nat, (∀ m ∈ l, u m = false) → insertUrgent u n l = n :: l
  | [], _ => rfl
  | x :: xs, h => by
    have hxs : xs.any u = false := List.any_eq_false.2 fun m hm => by simp [h m (List.mem_cons_of_mem x hm)]
    simp [insertUrgent, h x List.mem_cons_self, hxs]

theorem insertUrgent_last (u : Nat → Bool) (n : Nat) {m : Nat} (hm : u m = true) {back : List Nat} (hb : ∀ k ∈ back, u k = false) :
    ∀ front : List Nat, insertUrgent u n (front ++ m :: back) = front ++ m :: n :: back
  | [] => by simp [insertUrgent, hm, insertUrgent_none u n back hb]
  | x :: xs => by
    have hlater : (xs ++ m :: back).any u = true := List.any_eq_true.2 ⟨m, by simp, hm⟩
    simp [insertUrgent, hlater, insertUrgent_last u n hm hb xs]

section
variable (b : Bridge) {l : Lp} {n : Nat}

theorem placeJob_normal (hn : b.urgentJob n = false) : b.placeJob l n = b.modLp l fun x => { x with queue := x.queue ++ [n] } := by
  simp [placeJob, hn]

theorem placeJob_firstUrgent (hn : b.urgentJob n = true) (h : ∀ m ∈ (b.lp l).queue, b.urgentJob m = false) :
    b.placeJob l n = b.modLp l fun x => { x with queue := n :: x.queue } :=
  b.modLp_congr l (by simp only [hn, if_true, insertUrgent_none _ n _ h])

theorem placeJob_afterUrgent {front back : List Nat} {u : Nat} (hn : b.urgentJob n = true)
    (hq : (b.lp l).queue = front ++ u :: back) (hu : b.urgentJob u = true) (hb : ∀ m ∈ back, b.urgentJob m = false) :
    b.placeJob l n = b.modLp l fun x => { x with queue := front ++ u :: n :: back } :=
  b.modLp_congr l (by simp only [hn, if_true, hq, insertUrgent_last _ n hu hb])

end

/-! ## The number of a new job (R123) -/

theorem job_eq_none_iff (b : Bridge) (n : Nat) : b.job n = none ↔ ∀ j ∈ b.spool.jobs, j.number ≠ n := by
  simp [job]


/-- The number picked is one of the counter's numbers, every one before it being in use. -/
theorem pickNumber_iterate (jobs : List Job) : ∀ k n : Nat,
    ∃ i, pickNumber jobs k n = nextNumber^[i] n ∧ ∀ m < i, ∃ j ∈ jobs, j.number = nextNumber^[m] n
  | 0, n => ⟨0, rfl, nofun⟩
  | k + 1, n => by
    rw [pickNumber]
    split
    next hin =>
      obtain ⟨i, hi, hbefore⟩ := pickNumber_iterate jobs k (nextNumber n)
      refine ⟨i + 1, hi, fun m hm => ?_⟩
      cases m with
      | zero => simpa using hin
      | succ m => exact hbefore m (Nat.lt_of_succ_lt_succ hm)
    next => exact ⟨0, rfl, nofun⟩

/-- The counter runs from 1 to 65535. -/
theorem nextNumber_iterate_range {n : Nat} (h : 1 ≤ n ∧ n ≤ 65535) : ∀ i, 1 ≤ nextNumber^[i] n ∧ nextNumber^[i] n ≤ 65535
  | 0 => h
  | i + 1 => by
    have ih := nextNumber_iterate_range h i
    rw [Function.iterate_succ_apply', nextNumber]
    split <;> omega

/-! ## The judgement (R126) -/

theorem openJob_eq (c : Bridge) (owner : DirNo) (l : Lp) (number copies : Nat) (urgent : Bool) :
    let mode := (c.lp l).binding.mode
    let d := (c.modSpool fun x =>
      { x with jobs := x.jobs ++ [{ number, owner, lp := l, mode,
                                    urgent := urgent && (c.entry owner).any (·.rights.urgentPrint) && (c.lp l).binding.urgentAllowed,
                                    copies := if mode = .stream then 1 else max 1 (min 9 copies), lastActivity := c.ctl.now }],
               jobCounter := if number < 65535 then number + 1 else 1 }).modEntry owner fun e => { e with pins := e.pins + 1 }
    c.openJob owner l number copies urgent = if mode = .stream then d.placeJob l number else d := by
  simp only [openJob, urgentKept, Bool.and_assoc]
  rfl

section
variable (b : Bridge) {owner : DirNo} {l : Lp} (copies : Nat) (urgent : Bool)

theorem judgeOpen_disabled (hp : (b.lp l).binding.primary = none) :
    b.judgeOpen owner l copies urgent = (.fail .refused 0, fun b => b.count 7 .disabled) := by
  simp only [judgeOpen, hp, Option.isNone_none, if_true]
  rfl

variable (hp : (b.lp l).binding.primary ≠ none)
include hp

theorem judgeOpen_jobsFull (hj : 32 ≤ b.spool.jobs.length) :
    b.judgeOpen owner l copies urgent = (.busy, fun b => b.count 7 .jobsFull) := by
  simp only [judgeOpen, if_neg (Option.isNone_iff_eq_none.not.2 hp), if_pos hj]
  rfl

variable (hj : b.spool.jobs.length < 32)
include hj

theorem judgeOpen_fillingLimit (hf : 2 ≤ b.fillingJobs owner) :
    b.judgeOpen owner l copies urgent = (.busy, fun b => b.count 7 .fillingLimit) := by
  simp only [judgeOpen, if_neg (Option.isNone_iff_eq_none.not.2 hp), if_neg (Nat.not_le.2 hj), if_pos hf]
  rfl

theorem judgeOpen_accepted (hf : b.fillingJobs owner < 2) :
    b.judgeOpen owner l copies urgent =
      (.reply (bytes16 (pickNumber b.spool.jobs 32 b.spool.jobCounter)),
       fun c => c.openJob owner l (pickNumber b.spool.jobs 32 b.spool.jobCounter) copies urgent) := by
  simp only [judgeOpen, if_neg (Option.isNone_iff_eq_none.not.2 hp), if_neg (Nat.not_le.2 hj), if_neg (Nat.not_le.2 hf)]

end

theorem fillingJobs_eq (b : Bridge) (owner : DirNo) : b.fillingJobs owner =
    (b.spool.jobs.filter fun j => j.owner = owner ∧ j.state = .filling ∧ j.input = .opened).length := by
  simp only [fillingJobs, Bool.decide_and, Bool.and_assoc]

end Bridge

/-- Settles O34: the judgement of a PRINT-OPEN in its order, the number and the record of an accepted one, and the place of a job in its
queue. -/
theorem printOpenIsJudgedAndQueued : Obligations.PrintOpenIsJudgedAndQueued := by
  refine ⟨fun b owner l copies urgent => ⟨b.judgeOpen_disabled copies urgent, b.judgeOpen_jobsFull copies urgent,
    b.judgeOpen_fillingLimit copies urgent, fun hp hj hf hlow hhigh => ?_⟩, fun b owner => b.fillingJobs_eq owner,
    fun b l n => ⟨b.placeJob_normal, b.placeJob_firstUrgent, fun front u back => b.placeJob_afterUrgent⟩⟩
  obtain ⟨i, hi, hbefore⟩ := Bridge.pickNumber_iterate b.spool.jobs 32 b.spool.jobCounter
  have hfree : b.job (Bridge.pickNumber b.spool.jobs 32 b.spool.jobCounter) = none :=
    (b.job_eq_none_iff _).2 (Bridge.RecordsSound.pickNumber_ne hj _)
  have hrange : 1 ≤ Bridge.pickNumber b.spool.jobs 32 b.spool.jobCounter ∧
      Bridge.pickNumber b.spool.jobs 32 b.spool.jobCounter ≤ 65535 := hi ▸ Bridge.nextNumber_iterate_range ⟨hlow, hhigh⟩ i
  refine ⟨_, hrange.1, hrange.2, hfree, ⟨i, hi, fun m hm hnone => ?_⟩, ?_, fun c => ?_⟩
  · obtain ⟨j, hj, hn⟩ := hbefore m hm
    exact (b.job_eq_none_iff _).1 hnone j hj hn
  · rw [b.judgeOpen_accepted copies urgent hp hj hf]
  · rw [b.judgeOpen_accepted copies urgent hp hj hf]
    exact c.openJob_eq owner l _ copies urgent

end Sys2Proof.Machine

/-! # PRINT-DATA (O35). -/

namespace Sys2Proof.Machine
open Sys2Proof

/-! ## The cells of an append (R119, R128) -/

/-- Byte `i` of an append goes to the address of byte `held + i` of the chain. -/
theorem appendCells_eq (chain : List BlockNo) (held : Nat) (data : List Byte) :
    appendCells chain held data = (List.range data.length).map fun i =>
      ((chain.getD ((held + i) / 512) 0).val * 512 + (held + i) % 512, data.getD i 0) := by
  refine List.ext_getElem (by simp [appendCells, chainAddrs]) fun i hi _ => ?_
  have hlt : i < data.length := by simpa [appendCells, chainAddrs] using hi
  simp [appendCells, chainAddrs, chainAddr, hlt]

namespace Bridge

/-! ## The order of the judgement (R127) -/

section
variable (b : Bridge) {owner : DirNo} {l : Lp} {n seq : Nat} {data : List Byte}

theorem judgeData_unknown (h : b.job n = none) : b.judgeData owner l n seq data = (.fail .unknownJob 0, id) := by
  simp only [judgeData, h]
  rfl

variable {j : Job} (h : b.job n = some j)
include h

theorem judgeData_notOwner (ho : j.owner ≠ owner) : b.judgeData owner l n seq data = (.fail .notOwner 0, id) := by
  simp only [judgeData, h, if_pos ho]
  rfl

theorem judgeData_closed (ho : j.owner = owner) (hc : j.lp ≠ l ∨ j.input ≠ .opened ∨ j.state = .cancelling) :
    b.judgeData owner l n seq data = (.fail .unknownJob 0, id) := by
  have hne : j.lp ≠ l ∨ (!acceptsData j) = true := hc.imp_right fun hk => by
    rw [Bool.not_eq_true', ← Bool.not_eq_true, acceptsData_iff, not_and_or, ne_eq, not_not]
    exact hk
  simp only [judgeData, h, ho, ne_eq, not_true, if_false]
  exact if_pos hne

variable (ho : j.owner = owner) (hl : j.lp = l) (hi : j.input = .opened) (hs : j.state ≠ .cancelling)
include ho hl hi hs

/-- Past the job, its owner, its logical printer and its input, the sequence decides. -/
theorem judgeData_accepting : b.judgeData owner l n seq data =
    if j.lastSeq = some seq then (.reply [], id) else if seq ≠ j.nextSeq then (.fail .sequence j.nextSeq, id)
    else b.judgeAppend j data := by
  have ha : ¬ (j.lp ≠ l ∨ (!acceptsData j) = true) := by simp [hl, (acceptsData_iff j).2 ⟨hi, hs⟩]
  simp only [judgeData, h, if_neg (not_not.2 ho), if_neg ha]

end

/-! ## An append (R128) -/

section
variable (b : Bridge) (j : Job) (data : List Byte)

theorem judgeAppend_tooLarge (hb : 128 < blocksFor (j.held + data.length)) (hm : j.mode = .spool) :
    b.judgeAppend j data = (.fail .tooLarge 0, fun c =>
      ((c.endJob j.number .cancelled .tooLarge).count 7 .tooLarge).capture 7 .tooLarge (.job j.number j.owner)) := by
  simp only [judgeAppend, hm, if_pos hb]
  rfl

theorem judgeAppend_streamHeld (hb : 128 < blocksFor (j.held + data.length)) (hm : j.mode = .stream) :
    b.judgeAppend j data = (.hold 10, fun c => c.count 7 .streamHeld) := by
  simp only [judgeAppend, hm, if_pos hb]
  rfl

theorem judgeAppend_storeFull (hb : blocksFor (j.held + data.length) ≤ 128)
    (hf : b.spool.freeList.length < blocksFor (j.held + data.length) - j.chain.length) :
    b.judgeAppend j data = (.hold 10, fun c => c.count 7 .storeFull) := by
  simp only [judgeAppend, if_neg (Nat.not_lt.2 hb), if_pos hf]
  rfl

theorem judgeAppend_whole (hb : blocksFor (j.held + data.length) ≤ 128)
    (hf : blocksFor (j.held + data.length) - j.chain.length ≤ b.spool.freeList.length) :
    b.judgeAppend j data =
      (.reply [], fun c => c.appendData j (blocksFor (j.held + data.length) - j.chain.length) data) := by
  simp only [judgeAppend, if_neg (Nat.not_lt.2 hb), if_neg (Nat.not_lt.2 hf)]

theorem appendData_eq (c : Bridge) (need : Nat) :
    let chain := j.chain ++ c.spool.freeList.take need
    let d := (c.modSpool fun x =>
      { x with freeList := x.freeList.drop need,
               toWrite := (List.range data.length).map fun i =>
                 ((chain.getD ((j.held + i) / 512) 0).val * 512 + (j.held + i) % 512, data.getD i 0) }).modJob j.number
        fun x => { x with chain, held := x.held + data.length, total := min 4294967295 (x.total + data.length),
                          lastSeq := some x.nextSeq, nextSeq := (x.nextSeq + 1) % 256, lastActivity := c.ctl.now }
    c.appendData j need data = if j.state = .delivering then d.toldOfData j.lp else d := by
  simp only [appendData, appendCells_eq]
  rfl

end

end Bridge

/-- Settles O35: the judgement of a PRINT-DATA in its order, and the append it may end in. -/
theorem printDataIsJudgedInOrder : Obligations.PrintDataIsJudgedInOrder := by
  refine fun b owner l n seq data => ⟨b.judgeData_unknown, fun j h => ⟨b.judgeData_notOwner h, fun ho =>
    ⟨b.judgeData_closed h ho, fun hl hi hs => ?_⟩⟩⟩
  have hj := b.judgeData_accepting (seq := seq) (data := data) h ho hl hi hs
  refine ⟨fun hr => by rw [hj, if_pos hr], fun hr hq => by rw [hj, if_neg hr, if_pos hq], fun hr hq => ?_⟩
  rw [hj, if_neg hr, if_neg (not_not.2 hq)]
  refine ⟨b.judgeAppend_tooLarge j data, b.judgeAppend_streamHeld j data, b.judgeAppend_storeFull j data, fun hb hf => ?_⟩
  rw [b.judgeAppend_whole j data hb hf]
  exact ⟨rfl, fun c => Bridge.appendData_eq j data c _⟩

end Sys2Proof.Machine

/-! # Deliveries start and build their frames (O42). -/

namespace Sys2Proof.Machine
open Sys2Proof

namespace Bridge

/-! ## The head job and the printers (R125, R140) -/

theorem jobReady_iff (j : Job) : jobReady j = true ↔ j.mode = .spool ∨ 4 ≤ j.chain.length ∨ j.input ≠ .opened := by
  unfold jobReady
  split <;> next hm => simp [hm]

section
variable (b : Bridge) {l : Lp}

theorem readyHead_none (h : (b.lp l).binding.primary = none ∨ (b.lp l).queue = []) : b.readyHead l = none := by
  unfold readyHead
  obtain h | h := h
  · rw [h]; rfl
  · rw [h]
    exact ite_self none

theorem readyHead_head {n : Nat} {rest : List Nat} {j : Job} (hp : (b.lp l).binding.primary ≠ none)
    (hq : (b.lp l).queue = n :: rest) (hj : b.job n = some j) :
    b.readyHead l = if j.mode = .spool ∨ 4 ≤ j.chain.length ∨ j.input ≠ .opened then some j else none := by
  simp only [readyHead, if_neg (Option.isNone_iff_eq_none.not.2 hp), hq, List.head?_cons, hj, Option.filter_some, jobReady_iff]

end

theorem available_iff (b : Bridge) (n : DirNo) : b.available n = true ↔
    ∃ e r, b.entry n = some e ∧ b.printer n = some r ∧ e.state = .fixed ∧ e.kind = .printer ∧ e.reachable = true ∧
      r.status ≠ .notResponding ∧ r.delivering = none ∧ ∀ p k, e.home = .seg p k → b.bridgeNumberOn (b.segmentOf p) ≠ none := by
  unfold available
  cases he : b.entry n with
  | none => simp
  | some e =>
    cases hr : b.printer n with
    | none => simp
    | some r => cases hh : e.home <;> simp [hh, and_assoc, Option.isSome_iff_ne_none]

theorem candidates_eq (x : LogicalPrinter) : candidates x =
    if x.active = .primary then x.binding.primary.toList ++ x.binding.alternate.toList
    else x.binding.alternate.toList ++ x.binding.primary.toList := by
  unfold candidates
  split <;> next h => simp [h]

section
variable (b : Bridge) {l : Lp}

theorem tryStart_notReady (h : b.readyHead l = none) : b.tryStart l = none := by
  simp only [tryStart, h]

variable {j : Job} (h : b.readyHead l = some j)
include h

theorem tryStart_unavailable (hn : ∀ n ∈ candidates (b.lp l), b.available n = false) : b.tryStart l = none := by
  have hfind : (candidates (b.lp l)).find? b.available = none := List.find?_eq_none.2 fun n hm => by simp [hn n hm]
  simp only [tryStart, h, hfind]

theorem tryStart_first {front back : List DirNo} {n : DirNo} (hc : candidates (b.lp l) = front ++ n :: back)
    (hf : ∀ m ∈ front, b.available m = false) (hn : b.available n = true) : b.tryStart l = some (b.startJob l j n) := by
  have hfind : (candidates (b.lp l)).find? b.available = some n :=
    List.find?_eq_some_iff_append.2 ⟨hn, front, back, hc, fun m hm => by simp [hf m hm]⟩
  simp only [tryStart, h, hfind]

end

/-! ## The start of a job (R141) -/

theorem startJob_eq (b : Bridge) (l : Lp) (j : Job) {n : DirNo} {e : Entry} {r : Route} (he : b.entry n = some e)
    (hr : b.routeOf e = some r) :
    let x := (b.lp l).binding.pace
    let latch := match e.home with
      | .seg p _ => ((b.bridgeNumberOn (b.segmentOf p)).getD 0, if x = 0 then 16 else x)
      | _ => (0, x)
    b.startJob l j n =
      (((((((b.modLp l fun y => { y with queue := y.queue.filter (· ≠ j.number) }).modJob j.number fun y =>
        { y with state := .delivering, started := true, position := 0, latchedTarget := some n, latchedPace := some latch.2 }).modLp l
          fun y => { y with state := .delivering, current := some j.number, active := .primary }).modPrinter n fun y =>
            { y with delivering := some j.number, question := .none }).modEntry n fun y => { y with pins := y.pins + 1 }).modDelivery
              fun y => { y with records := y.records.set l (some { job := j.number, target := n, route := r, source := latch.1,
                                                                   pace := latch.2, refillDue := b.ctl.now + 125 }),
                                pace := y.pace.set l 600 }).buildFrame l) := by
  cases hh : e.home <;> simp only [startJob, he, hr, hh] <;> rfl

/-! ## The next frame (R144) -/

section
variable (b : Bridge) {l : Lp} {d : Delivery} {j : Job} (hd : b.record l = some d) (hj : b.job d.job = some j)
include hd hj

theorem buildFrame_some {f : DeliveryFrame} (h : frameShape j d = some f) : b.buildFrame l =
    b.setRecord l (some { d with frame := some f, counter := f.seq, fresh := false, phase := .pacing, tries := 1 }) := by
  simp only [buildFrame, hd, hj, h]

theorem buildFrame_none (h : frameShape j d = none) :
    b.buildFrame l = b.setRecord l (some { d with frame := none, phase := .dataWait }) := by
  simp only [buildFrame, hd, hj, h]

end

/-! ## Whose frame is handed over (R143) -/

theorem mayHandOver_iff (b : Bridge) (l : Lp) : b.mayHandOver l = true ↔
    ∃ d f, b.record l = some d ∧ d.phase = .pacing ∧ d.frame = some f ∧
      (d.pace = 0 ∨ paceWeight f.count ≤ b.delivery.pace[l]) ∧ ((∃ mac, d.route = .pair mac) ∨ b.routePorts d.route ≠ []) := by
  unfold mayHandOver
  cases hd : b.record l with
  | none => simp
  | some d =>
    cases hp : d.phase with
    | pacing =>
      cases hf : d.frame with
      | none => simp [hp, hf]
      | some f => cases hr : d.route <;> simp [hp, hf, hr]
    | _ => simp [hp]

section
variable (m : Store) (k : Nat) (b : Bridge)

theorem handOvers_done (h : ∀ l, b.mayHandOver l = false) : handOvers m k b = b := by
  have hfind : (List.finRange 8).find? b.mayHandOver = none := List.find?_eq_none.2 fun l _ => by simp [h l]
  cases k with
  | zero => rfl
  | succ k => simp only [handOvers, hfind]

theorem handOvers_first {l : Lp} (h : b.mayHandOver l = true) (hlow : ∀ x : Lp, x < l → b.mayHandOver x = false) :
    handOvers m (k + 1) b = handOvers m k (b.handOver m l) := by
  have hfind : (List.finRange 8).find? b.mayHandOver = some l := List.find?_eq_some_iff_getElem.2
    ⟨h, l.val, by simp, by simp, fun i hi => by simpa using hlow ⟨i, by omega⟩ hi⟩
  simp only [handOvers, hfind]

end

end Bridge

/-! ## The extent of a frame (R144; log 13) -/

section
variable {j : Job} {d : Delivery}

theorem frameShape_spool (hm : j.mode = .spool) : frameShape j d =
    some { start := j.position, count := min 1022 (j.held - j.position), first := j.position = 0,
           endOfCopy := j.position + min 1022 (j.held - j.position) = j.held, seq := if d.fresh then d.counter else d.counter + 1 } := by
  simp only [frameShape, hm]

variable (hm : j.mode = .stream)
include hm

theorem frameShape_full (hi : j.input = .opened) (hb : 1022 ≤ j.held - j.position) : frameShape j d =
    some { start := j.position, count := 1022, first := d.fresh, endOfCopy := false,
           seq := if d.fresh then d.counter else d.counter + 1 } := by
  simp only [frameShape, hm, if_pos hi, if_pos hb]

theorem frameShape_waits (hi : j.input = .opened) (hb : j.held - j.position < 1022) : frameShape j d = none := by
  simp only [frameShape, hm, if_pos hi, if_neg (Nat.not_le.2 hb)]

theorem frameShape_rest (hi : j.input ≠ .opened) : frameShape j d =
    some { start := j.position, count := min 1022 (j.held - j.position), first := d.fresh,
           endOfCopy := j.position + min 1022 (j.held - j.position) = j.held, seq := if d.fresh then d.counter else d.counter + 1 } := by
  simp only [frameShape, hm, if_neg hi]

end

end Sys2Proof.Machine
/-! # Frames handed over (O42). -/

namespace Sys2Proof.Machine
open Sys2Proof

namespace Bridge

/-! ## The routes of a bridge whose ports and feed controllers are as they were -/

theorem routePorts_congr {b c : Bridge} (hp : c.ports = b.ports) (hf : c.feeds = b.feeds) (r : Route) :
    c.routePorts r = b.routePorts r := by
  have hcan : c.canTransmit = b.canTransmit := funext fun p => by
    simp only [canTransmit, mon, port, paired, feed, hp, hf]
    rfl
  cases r <;> simp only [routePorts, hcan]

theorem full1_congr {b c : Bridge} (hp : c.ports = b.ports) (p : Port) : c.full1 p ↔ b.full1 p := by
  simp only [full1, port, hp]

/-- The home number of an entry does not change with a change that keeps the entry's home. -/
theorem homeNumber_modEntry (b : Bridge) (n : DirNo) {f : Entry → Entry} (hf : ∀ e, (f e).home = e.home) :
    (b.modEntry n f).homeNumber n = b.homeNumber n := by
  have hh : ((b.entry n).map f).map (·.home) = (b.entry n).map (·.home) := by
    rw [Option.map_map]
    exact congrArg (Option.map · _) (funext hf)
  simp only [homeNumber, entry_modEntry_self, hh]

/-! ## A frame offered to its route (R32, R144) -/

theorem sendPair_full (b : Bridge) (x : Carrier) (o : Origin) (hl : b.pair.link = true) (hq : 48 ≤ b.pair.queue.length) :
    b.sendPair x o = (.refused, b.offeredPair x o) := by
  simp [sendPair, offerPair, offeredPair, hl, Nat.not_lt.2 hq, nextSerial]

section
variable (c : Bridge) (l : Lp) (d : Delivery) (f : DeliveryFrame) (seq : OutSeq) (bytes : List Byte)

theorem offerFrame_coax (hr : ∀ mac, d.route ≠ .pair mac) (hl : namesLower d.route) :
    let ps := c.routePorts d.route
    let x := c.offeredOn ps (c.deliveryBlock d seq bytes) (.delivery l) d.route.named
    ((∃ p ∈ ps, ¬ c.full1 p) → c.offerFrame l d f seq bytes =
      x.setRecord l (some { d with phase := .queued, frame := some { f with serial := c.serial } })) ∧
    ((∀ p ∈ ps, c.full1 p) → c.offerFrame l d f seq bytes = ps.foldl (fun y p => y.joinWaiting p l)
      (x.setRecord l (some { d with phase := .listed, frame := some { f with serial := c.serial, built := some (seq, bytes) } }))) := by
  intro ps x
  have hoffer : c.offerFrame l d f seq bytes =
      if (ps.filter fun p => !c.hasPlace p).length = ps.length then
        ps.foldl (fun y p => y.joinWaiting p l)
          (x.setRecord l (some { d with phase := .listed, frame := some { f with serial := c.serial, built := some (seq, bytes) } }))
      else x.setRecord l (some { d with phase := .queued, frame := some { f with serial := c.serial } }) := by
    have hsend := c.sendEach_nodup ps (c.deliveryBlock d seq bytes) (.delivery l) d.route.named (c.routePorts_nodup hl)
    unfold offerFrame
    split
    next mac h => exact absurd h (hr mac)
    next => simp only [ps, x, hsend]
  rw [hoffer]
  exact ⟨fun ⟨p, hp, hfull⟩ => if_neg fun h => hfull ((c.refused_all_iff ps).1 h p hp), fun h => if_pos ((c.refused_all_iff ps).2 h)⟩

theorem offerFrame_pair {mac : Mac} (hr : d.route = .pair mac) :
    let x := c.offeredPair (deliveryCarrier l d mac seq bytes) (.delivery l)
    let sent := { f with serial := c.serial }
    (c.pair.link = true → c.pair.queue.length < 48 → c.offerFrame l d f seq bytes =
      x.setRecord l (some { d with phase := .queued, frame := some sent })) ∧
    (c.pair.link = true → 48 ≤ c.pair.queue.length → c.offerFrame l d f seq bytes =
      (x.setRecord l (some { d with phase := .listed, frame := some { sent with built := some (seq, bytes) } })).joinPairWaiting l) ∧
    (c.pair.link = false → c.offerFrame l d f seq bytes =
      (x.setRecord l (some { d with phase := .queued, frame := some sent })).tryEnds l) := by
  intro x sent
  refine ⟨fun hl hq => ?_, fun hl hq => ?_, fun hl => ?_⟩
  · have hx : x = c.queuedPair (deliveryCarrier l d mac seq bytes) (.delivery l) := if_pos ⟨hl, hq⟩
    simp only [offerFrame, hr, c.sendPair_accepted _ _ hl hq, hx, sent]
  · simp only [offerFrame, hr, c.sendPair_full _ _ hl hq, x, sent]
  · have hx : x = c.setSerial (c.serial + 1) := if_neg fun h => Bool.false_ne_true (hl.symm.trans h.1)
    simp only [offerFrame, hr, c.sendPair_down _ _ hl, hx, sent]

end

/-! ## The question of a handover (R138) -/

theorem newQuestion_coax (b : Bridge) (n : DirNo) {r : Route} (hr : ∀ mac, r ≠ .pair mac) :
    b.newQuestion n r = (.bit (!(b.entry n).any (·.bridgeBit)),
      b.modEntry n fun e => { e with bridgeBit := !(b.entry n).any (·.bridgeBit) }) := by
  unfold newQuestion
  split
  next mac => exact absurd rfl (hr mac)
  next => rfl

/-- The bridge once a frame's weight has been taken from the allowance; a delivery of latched pace 0 takes none (R143; log 56). -/
def paid (b : Bridge) (l : Lp) (d : Delivery) (f : DeliveryFrame) : Bridge :=
  if d.pace = 0 then b else b.modDelivery fun u => { u with pace := u.pace.set l (u.pace[l] - paceWeight f.count) }

theorem paid_eq (b : Bridge) (l : Lp) (d : Delivery) (f : DeliveryFrame) :
    (if d.pace = 0 then b else b.modDelivery fun u => { u with pace := u.pace.set l (u.pace[l] - paceWeight f.count) }) =
      b.paid l d f := rfl

/-- The data of a frame, in the order that its target keeps where it goes to the pair side (R34). -/
def deliveryData (b : Bridge) (d : Delivery) (bytes : List Byte) : List Byte :=
  match d.route with
  | .pair _ => inOrder (orderOf b.dir.entries d.target) bytes
  | _ => bytes

/-- What paying the allowance leaves: all but the allowances. -/
theorem paid_rest (b : Bridge) (l : Lp) (d : Delivery) (f : DeliveryFrame) :
    ∃ v, b.paid l d f = b.setDelivery { b.delivery with pace := v } := by
  unfold paid
  split
  · exact ⟨b.delivery.pace, rfl⟩
  · exact ⟨_, rfl⟩

theorem question_paid (b : Bridge) (l : Lp) (d : Delivery) (f : DeliveryFrame) (n : DirNo) : (b.paid l d f).question n = b.question n := by
  obtain ⟨v, hv⟩ := b.paid_rest l d f
  rw [hv]
  rfl

section
variable {m : Store} {b : Bridge} {l : Lp} {d : Delivery} {f : DeliveryFrame} {j : Job}
  (hd : b.record l = some d) (hf : d.frame = some f) (hj : b.job d.job = some j)
include hd hf hj

/-- A byte whose parity does not match ends the delivery (R120). -/
theorem handOver_parity {front back : List Nat} {a : Nat} (ha : chainAddrs j.chain f.start f.count = front ++ a :: back)
    (hfront : ∀ z ∈ front, z ∉ m.bad) (hbad : a ∈ m.bad) :
    b.handOver m l = ((if j.state = .cancelling then b.finishCancelled l else b.finish l .failed .storeError).count 8
      .parity).capture 8 .parity (.parity (Fin.ofNat 512 (a / 512)) j.number) := by
  have hfind : (chainAddrs j.chain f.start f.count).find? m.bad.contains = some a :=
    List.find?_eq_some_iff_append.2 ⟨List.contains_iff_mem.2 hbad, front, back, ha, fun z hz => by simp [hfront z hz]⟩
  have hn : b.job j.number = some j := (number_of_job hj).symm ▸ hj
  simp only [handOver, hd, hf, hj, hfind, parityError, hn, Option.any_some, decide_eq_true_eq]
  rfl

variable (hgood : ∀ a ∈ chainAddrs j.chain f.start f.count, a ∉ m.bad)
include hgood

/-- A frame whose question is in hand already is offered again under it. -/
theorem handOver_again (ha : f.asked = true) {q : OutSeq} (hq : b.question d.target = .frame q) :
    b.handOver m l = (b.paid l d f).offerFrame l d f q
      (frameBytes f ((b.paid l d f).deliveryData d ((chainAddrs j.chain f.start f.count).map (Memory.read m.cells)))) := by
  have hfind : (chainAddrs j.chain f.start f.count).find? m.bad.contains = none :=
    List.find?_eq_none.2 fun a h => by simp [hgood a h]
  have hpaid : (b.paid l d f).question d.target = .frame q := (b.question_paid l d f _).trans hq
  simp only [handOver, hd, hf, hj, hfind, ha, paid_eq, hpaid]
  rfl

/-- Any other handover puts the frame in hand as the printer's next question (R138). -/
theorem handOver_asks (hne : ¬ (f.asked = true ∧ ∃ q, b.question d.target = .frame q)) :
    let c := b.paid l d f
    b.handOver m l = ((c.newQuestion d.target d.route).2.modPrinter d.target fun r =>
        { r with question := .frame (c.newQuestion d.target d.route).1 }).offerFrame l d { f with asked := true }
      (c.newQuestion d.target d.route).1
      (frameBytes f (c.deliveryData d ((chainAddrs j.chain f.start f.count).map (Memory.read m.cells)))) := by
  have hfind : (chainAddrs j.chain f.start f.count).find? m.bad.contains = none :=
    List.find?_eq_none.2 fun a h => by simp [hgood a h]
  simp only [handOver, hd, hf, hj, hfind, paid_eq]
  split
  next q ha hq => exact absurd ⟨ha, q, (b.question_paid l d f _).symm.trans hq⟩ hne
  next => rfl

/-- A frame for a route on coax: offered to its queues under the question in hand, or under a new one that toggles the printer's bit. -/
theorem handOver_coax (hr : ∀ mac, d.route ≠ .pair mac) {seq : OutSeq} {c : Bridge}
    (hagain : ∀ q, f.asked = true → b.question d.target = .frame q → seq = q ∧ c = b.paid l d f)
    (hnew : ¬ (f.asked = true ∧ ∃ q, b.question d.target = .frame q) → seq = .bit (!(b.entry d.target).any (·.bridgeBit)) ∧
      c = (((b.paid l d f).modEntry d.target fun x => { x with bridgeBit := !(b.entry d.target).any (·.bridgeBit) }).modPrinter d.target
        fun r => { r with question := .frame seq })) :
    b.handOver m l = c.offerFrame l d { f with asked := true } seq
      (frameBytes f ((chainAddrs j.chain f.start f.count).map (Memory.read m.cells))) ∧
    c.ports = b.ports ∧ c.feeds = b.feeds ∧ c.serial = b.serial ∧ c.homeNumber d.target = b.homeNumber d.target := by
  obtain ⟨v, hv⟩ := b.paid_rest l d f
  have hdata (bytes : List Byte) : (b.paid l d f).deliveryData d bytes = bytes := by
    unfold deliveryData
    split
    next mac h => exact absurd h (hr mac)
    next => rfl
  by_cases again : f.asked = true ∧ ∃ q, b.question d.target = .frame q
  · obtain ⟨ha, q, hq⟩ := again
    obtain ⟨rfl, rfl⟩ := hagain q ha hq
    have hasked : { f with asked := true } = f := by rw [← ha]
    rw [handOver_again hd hf hj hgood ha hq, hdata, hasked, hv]
    exact ⟨rfl, rfl, rfl, rfl, rfl⟩
  · obtain ⟨rfl, rfl⟩ := hnew again
    have hbit : (b.paid l d f).newQuestion d.target d.route = (.bit (!(b.entry d.target).any (·.bridgeBit)),
        (b.paid l d f).modEntry d.target fun x => { x with bridgeBit := !(b.entry d.target).any (·.bridgeBit) }) := by
      rw [newQuestion_coax _ _ hr, hv]
      rfl
    have hhome := (b.paid l d f).homeNumber_modEntry d.target
      (f := fun x => { x with bridgeBit := !(b.entry d.target).any (·.bridgeBit) }) fun _ => rfl
    refine ⟨?_, ?_, ?_, ?_, hhome.trans ?_⟩
    · rw [handOver_asks hd hf hj hgood again, hdata, hbit]
    all_goals
      rw [hv]
      rfl

/-- A frame for the pair side: offered under the question in hand, or under a new one that takes the question counter. -/
theorem handOver_pair {mac : Mac} (hr : d.route = .pair mac) {seq : Byte} {c : Bridge}
    (hagain : ∀ q, f.asked = true → b.question d.target = .frame (.byte q) → seq = q ∧ c = b.paid l d f)
    (hbyte : ∀ q, b.question d.target ≠ .frame (.bit q))
    (hnew : ¬ (f.asked = true ∧ ∃ q, b.question d.target = .frame q) → seq = b.pair.question ∧
      c = (((b.paid l d f).modPair fun x => { x with question := x.question + 1 }).modPrinter d.target
        fun r => { r with question := .frame (.byte seq) })) :
    b.handOver m l = c.offerFrame l d { f with asked := true } (.byte seq)
      (frameBytes f (inOrder (orderOf b.dir.entries d.target) ((chainAddrs j.chain f.start f.count).map (Memory.read m.cells)))) ∧
    c.pair.link = b.pair.link ∧ c.pair.queue = b.pair.queue ∧ c.serial = b.serial := by
  obtain ⟨v, hv⟩ := b.paid_rest l d f
  have hdata (bytes : List Byte) : (b.paid l d f).deliveryData d bytes = inOrder (orderOf b.dir.entries d.target) bytes := by
    rw [hv, deliveryData, hr]
    rfl
  by_cases again : f.asked = true ∧ ∃ q, b.question d.target = .frame q
  · obtain ⟨ha, q, hq⟩ := again
    cases q with
    | bit q => exact absurd hq (hbyte q)
    | byte q =>
      obtain ⟨rfl, rfl⟩ := hagain q ha hq
      have hasked : { f with asked := true } = f := by rw [← ha]
      rw [handOver_again hd hf hj hgood ha hq, hdata, hasked, hv]
      exact ⟨rfl, rfl, rfl, rfl⟩
  · obtain ⟨rfl, rfl⟩ := hnew again
    have hcounter : (b.paid l d f).newQuestion d.target d.route =
        (.byte b.pair.question, (b.paid l d f).modPair fun x => { x with question := x.question + 1 }) := by
      rw [hr, hv]
      rfl
    refine ⟨?_, ?_, ?_, ?_⟩
    · rw [handOver_asks hd hf hj hgood again, hdata, hcounter]
    all_goals
      rw [hv]
      rfl

end

end Bridge

/-- Settles O42: the ready head, an available printer, the start, the frames, whose frame is handed over, and each handover with the parity
check. -/
theorem deliveriesStartAndHandOver : Obligations.DeliveriesStartAndHandOver := by
  refine ⟨fun b l => ⟨b.readyHead_none, fun n rest j => b.readyHead_head⟩, fun b n => b.available_iff n, fun b l => ?_,
    fun b l j n e r he hr => b.startJob_eq l j he hr, fun b l d j hd hj => ?_, fun b l => b.mayHandOver_iff l,
    fun m k b => ⟨b.handOvers_done m k, fun l => b.handOvers_first m k⟩, fun m b l d f j hd hf hj hlower =>
      ⟨fun front a back => Bridge.handOver_parity hd hf hj, fun seq c hgood hr hagain hnew => ?_,
       fun mac seq c hgood hr hagain hbyte hnew => ?_⟩⟩
  · have htried := Bridge.candidates_eq (b.lp l)
    exact ⟨b.tryStart_notReady, fun j hj hn => b.tryStart_unavailable hj (htried ▸ hn),
      fun j front n back hj ht hfront hn => b.tryStart_first hj (htried.trans ht) hfront hn⟩
  · exact ⟨fun hm => b.buildFrame_some hd hj (frameShape_spool hm),
      fun hm hi hb => b.buildFrame_some hd hj (frameShape_full hm hi hb),
      fun hm hi hb => b.buildFrame_none hd hj (frameShape_waits hm hi hb),
      fun hm hi => b.buildFrame_some hd hj (frameShape_rest hm hi)⟩
  · obtain ⟨hoffer, hports, hfeeds, hserial, hhome⟩ := Bridge.handOver_coax hd hf hj hgood hr hagain hnew
    have hsent := c.offerFrame_coax l d { f with asked := true } seq
      (Bridge.frameBytes f ((chainAddrs j.chain f.start f.count).map (Memory.read m.cells))) hr hlower
    simp only [Bridge.routePorts_congr hports hfeeds, Bridge.full1_congr hports, Bridge.deliveryBlock, hhome, hserial, ← hoffer] at hsent
    exact hsent
  · obtain ⟨hoffer, hlink, hqueue, hserial⟩ := Bridge.handOver_pair hd hf hj hgood hr hagain hbyte hnew
    have hsent := c.offerFrame_pair l d { f with asked := true } (.byte seq) (Bridge.frameBytes f
      (inOrder (orderOf b.dir.entries d.target) ((chainAddrs j.chain f.start f.count).map (Memory.read m.cells)))) hr
    simp only [hlink, hqueue, hserial, ← hoffer] at hsent
    exact hsent

end Sys2Proof.Machine

/-! # CLEAR-FAULTS and CANCEL-JOB (O48). -/

namespace Sys2Proof.Machine
open Sys2Proof

/-! ## Fault kinds taken out of the latched set and the hold set (R156, R166) -/

/-- The latched set without the kinds that CLEAR-FAULTS names. -/
def unlatched (kinds latched : FaultSet) : FaultSet :=
  faultKinds.foldl (fun s k => if kinds.has k then FaultSet.put s k false else s) latched

/-- The causes that CLEAR-FAULTS takes out of a hold set: SHORT and OPEN where they are named and held. -/
def clearedCauses (kinds hold : FaultSet) : List FaultKind :=
  [FaultKind.short, .openLine].filter fun k => kinds.has k && hold.has k

/-- A line monitor after several causes have left its hold set. -/
def Monitor.releasesAll (l : List FaultKind) (m : SamplingMode) (x : Monitor) : Monitor := l.foldl (fun x k => Monitor.releases k m x) x

theorem unlatched_eq (k x : FaultSet) : unlatched k x =
    ⟨x.short && !k.short, x.openLine && !k.openLine, x.jabber && !k.jabber, x.lowSignal && !k.lowSignal⟩ := by
  obtain ⟨a, b, c, d⟩ := k
  cases a <;> cases b <;> cases c <;> cases d <;> simp [unlatched, faultKinds, FaultSet.has, FaultSet.put]

/-- A cause is cleared exactly where SHORT or OPEN is both named and held. -/
theorem clearedCauses_isEmpty (k x : FaultSet) :
    (clearedCauses k x).isEmpty = !((k.short && x.short) || (k.openLine && x.openLine)) := by
  cases hs : k.short && x.short <;> cases ho : k.openLine && x.openLine <;>
    simp only [clearedCauses, FaultSet.has, List.filter_cons, List.filter_nil, hs, ho] <;> rfl

namespace Monitor

variable (l : List FaultKind) (m : SamplingMode) (x : Monitor)

/-- Causes that leave the hold set change nothing of the state, the latched set and the owed test. -/
theorem releasesAll_keeps : (releasesAll l m x).state = x.state ∧ (releasesAll l m x).latched = x.latched ∧
    (releasesAll l m x).testOwed = x.testOwed := by
  induction l generalizing x with
  | nil => exact ⟨rfl, rfl, rfl⟩
  | cons k l ih => exact ih (releases k m x)

theorem hold_releasesAll : (releasesAll l m x).hold = l.foldl (fun s k => FaultSet.put s k false) x.hold := by
  induction l generalizing x with
  | nil => rfl
  | cons k l ih => exact ih (releases k m x)

theorem hold_releasesAll_cleared (k : FaultSet) : (releasesAll (clearedCauses k x.hold) m x).hold =
    ⟨x.hold.short && !k.short, x.hold.openLine && !k.openLine, x.hold.jabber, x.hold.lowSignal⟩ := by
  rw [hold_releasesAll]
  obtain ⟨a, b, c, d⟩ := x.hold
  obtain ⟨short, openLine, _, _⟩ := k
  cases a <;> cases b <;> cases short <;> cases openLine <;> rfl

end Monitor

namespace Bridge

/-! ## CLEAR-FAULTS carried out (R156, R166) -/

section
variable (b : Bridge) (p : Port)

theorem mon_foldl_releases (l : List FaultKind) :
    (l.foldl (fun b k => b.modMon p (Monitor.releases k (b.portSettings p).sampling)) b).mon p =
      Monitor.releasesAll l (b.portSettings p).sampling (b.mon p) := by
  induction l generalizing b with
  | nil => rfl
  | cons k l ih =>
    rw [List.foldl_cons, ih, mon_modMon_self]
    rfl

/-- The state in which a port stands once several causes have left its hold set (R156). -/
theorem mon_leaveHold (l : List FaultKind) :
    let m := Monitor.releasesAll l (b.portSettings p).sampling (b.mon p)
    (b.leaveHold p l).mon p = if m.state = .isolated ∧ m.hold.isEmpty = true
      then Monitor.enter b.now (if m.testOwed then .testing else .active) m else m := by
  intro m
  let c := l.foldl (fun b k => b.modMon p (Monitor.releases k (b.portSettings p).sampling)) b
  have hm : c.mon p = m := b.mon_foldl_releases p l
  have hn : c.now = b.now :=
    (Lawful.foldl (fun (b : Bridge) k => b.modMon p (Monitor.releases k (b.portSettings p).sampling)) (fun b k => .ofMon b p _) l b).now
  have hl : b.leaveHold p l = (if (c.mon p).state = .isolated ∧ (c.mon p).hold.isEmpty = true
      then c.changeState p (if (c.mon p).testOwed then .testing else .active) else c).recoveries p l := rfl
  rw [hl, mon_recoveries, hm]
  split
  next h =>
    have hne : (if m.testOwed = true then PortMode.testing else .active) ≠ m.state := by
      rw [h.1]
      split <;> decide
    rw [mon_changeState, hm, hn, if_pos ⟨rfl, hne⟩]
  next => exact hm

theorem clearFaults_eq (kinds : FaultSet) :
    let c := b.modMon p fun m => { m with latched := unlatched kinds m.latched }
    b.clearFaults p kinds = if (clearedCauses kinds (b.mon p).hold).isEmpty then c
      else (c.modMon p fun m => { m with testOwed := true }).leaveHold p (clearedCauses kinds (b.mon p).hold) := by
  intro c
  have hh : (c.mon p).hold = (b.mon p).hold := by rw [mon_modMon_self]
  rw [← hh]
  rfl

/-- Where no cause is cleared, only the latched set changes. -/
theorem mon_clearFaults_latched {k : FaultSet} (h : (clearedCauses k (b.mon p).hold).isEmpty = true) :
    (b.clearFaults p k).mon p = { b.mon p with latched := unlatched k (b.mon p).latched } := by
  rw [clearFaults_eq, if_pos h, mon_modMon_self]

/-- Where causes are cleared, the test is owed, they leave the hold set, and an empty hold set lets the port leave ISOLATED. -/
theorem mon_clearFaults_released {k : FaultSet} (h : ¬ (clearedCauses k (b.mon p).hold).isEmpty = true) :
    let r := Monitor.releasesAll (clearedCauses k (b.mon p).hold) (b.portSettings p).sampling
      { b.mon p with latched := unlatched k (b.mon p).latched, testOwed := true }
    (b.clearFaults p k).mon p = if r.state = .isolated ∧ r.hold.isEmpty = true
      then Monitor.enter b.now (if r.testOwed then .testing else .active) r else r := by
  rw [clearFaults_eq, if_neg h, mon_leaveHold, mon_modMon_self, mon_modMon_self]
  rfl

/-- The sets, the owed test and the state of a port after CLEAR-FAULTS. -/
theorem mon_clearFaults (k : FaultSet) :
    let m := b.mon p
    let n := (b.clearFaults p k).mon p
    let moved := (k.short && m.hold.short) || (k.openLine && m.hold.openLine)
    n.latched = ⟨m.latched.short && !k.short, m.latched.openLine && !k.openLine, m.latched.jabber && !k.jabber,
      m.latched.lowSignal && !k.lowSignal⟩ ∧
    n.hold = ⟨m.hold.short && !k.short, m.hold.openLine && !k.openLine, m.hold.jabber, m.hold.lowSignal⟩ ∧
    n.testOwed = (m.testOwed || moved) ∧
    n.state = (if moved = true ∧ m.state = .isolated ∧ n.hold.isEmpty = true then .testing else m.state) := by
  intro m n moved
  rw [← unlatched_eq k m.latched]
  have hempty : (clearedCauses k m.hold).isEmpty = !moved := clearedCauses_isEmpty k m.hold
  cases hmoved : moved with
  | false =>
    have hn : n = { m with latched := unlatched k m.latched } := b.mon_clearFaults_latched p (by rw [hempty, hmoved]; rfl)
    obtain ⟨hs, ho⟩ : (k.short && m.hold.short) = false ∧ (k.openLine && m.hold.openLine) = false := by
      simpa [moved] using hmoved
    have hout {x y : Bool} (h : (x && y) = false) : y = (y && !x) := by
      revert h
      cases x <;> cases y <;> decide
    refine ⟨by rw [hn], ?_, by rw [hn, Bool.or_false], by rw [hn, if_neg (by simp)]⟩
    rw [hn, ← hout hs, ← hout ho]
  | true =>
    let x : Monitor := { m with latched := unlatched k m.latched, testOwed := true }
    let r := Monitor.releasesAll (clearedCauses k m.hold) (b.portSettings p).sampling x
    have hn : n = if r.state = .isolated ∧ r.hold.isEmpty = true
        then Monitor.enter b.now (if r.testOwed then .testing else .active) r else r :=
      b.mon_clearFaults_released p (by rw [hempty, hmoved]; exact Bool.false_ne_true)
    obtain ⟨hstate, hlatched, howed⟩ : r.state = m.state ∧ r.latched = unlatched k m.latched ∧ r.testOwed = true :=
      Monitor.releasesAll_keeps (clearedCauses k m.hold) (b.portSettings p).sampling x
    have hhold : r.hold = ⟨m.hold.short && !k.short, m.hold.openLine && !k.openLine, m.hold.jabber, m.hold.lowSignal⟩ :=
      Monitor.hold_releasesAll_cleared (b.portSettings p).sampling x k
    have hnhold : n.hold = r.hold := by
      rw [hn]
      split <;> rfl
    rw [hnhold, Bool.or_true, ← hstate, ← hlatched, ← hhold, hn, howed]
    split
    next h => exact ⟨rfl, rfl, howed, (if_pos ⟨rfl, h⟩).symm⟩
    next h => exact ⟨rfl, rfl, howed, (if_neg fun h' => h h'.2).symm⟩

end

/-! ## Cancels (R131, R151) -/

/-- Two changes of one job that keep its number are one change. -/
theorem modJob_modJob (b : Bridge) (n : Nat) {f : Job → Job} (g : Job → Job) (hf : ∀ j, (f j).number = j.number) :
    (b.modJob n f).modJob n g = b.modJob n fun j => g (f j) := by
  have hj : (b.spool.jobs.map fun j => if j.number = n then f j else j).map (fun j => if j.number = n then g j else j) =
      b.spool.jobs.map fun j => if j.number = n then g (f j) else j := by
    rw [List.map_map]
    refine List.map_congr_left fun j _ => ?_
    by_cases hn : j.number = n <;> simp [hn, hf]
  simp only [modJob, modSpool, setSpool, hj]

end Bridge

/-! ## The two requests (R131, R166, R183) -/

section
variable (s : State) (a : Asker) {sel : Nat} (ht : s.takesTraffic) (hm : s.bridge.mayManage a = true)
include ht hm

theorem exec_clearFaults (p : Port) {k : FaultSet} (hk : k.isEmpty = false) :
    exec (.clearFaults a p.val k false) s = .next (s.answered a 10 p.val .ok
      (.faults ((s.bridge.clearFaults p k).mon p).latched ((s.bridge.clearFaults p k).mon p).hold) (s.bridge.clearFaults p k)) := by
  refine manage_plain s a (.clearFaults p.val k false) ht hm ?_
  simp only [Bridge.carryOut, Bridge.onPort_val, hk, Bool.or_false, Bool.false_eq_true, if_false]
  rfl

theorem exec_clearFaults_malformed {k : FaultSet} {foreign : Bool} (h : 3 < sel ∨ k.isEmpty = true ∨ foreign = true) :
    exec (.clearFaults a sel k foreign) s = .next (s.answered a 10 sel .malformed .none s.bridge) := by
  refine manage_plain s a (.clearFaults sel k foreign) ht hm ?_
  rcases Nat.lt_or_ge 3 sel with hs | hs
  · exact s.bridge.onPort_malformed hs _
  · have hform : (k.isEmpty || foreign) = true := Bool.or_eq_true_iff.2 (h.resolve_left (Nat.not_lt.2 hs))
    have hp := s.bridge.onPort_val ⟨sel, Nat.lt_succ_of_le hs⟩
    simp only [Bridge.carryOut, hp, hform, if_true]
    rfl

variable (h1 : 1 ≤ sel) (h2 : sel ≤ 65535)
include h1 h2

theorem exec_cancelJob {j : Job} (hj : s.bridge.job sel = some j) :
    exec (.cancelJob a sel) s = .next (s.answered a 13 sel .ok .none (s.bridge.cancelJob sel .manager)) := by
  refine manage_plain s a (.cancelJob sel) ht hm ?_
  simp only [Bridge.carryOut, s.bridge.jobRead_found h1 h2 hj]
  rfl

theorem exec_cancelJob_notFound (hj : s.bridge.job sel = none) :
    exec (.cancelJob a sel) s = .next (s.answered a 13 sel .notFound .none s.bridge) := by
  refine manage_plain s a (.cancelJob sel) ht hm ?_
  simp only [Bridge.carryOut, s.bridge.jobRead_notFound h1 h2 hj]
  rfl

end

/-- Settles O48: what CLEAR-FAULTS leaves of a port's sets and state, its wrong forms, and CANCEL-JOB by the state of the job. -/
theorem faultsAreClearedAndJobsCancelled : Obligations.FaultsAreClearedAndJobsCancelled := by
  refine fun s a sel ht hm => ⟨fun p k hsel hk => ?_, fun k foreign => exec_clearFaults_malformed s a ht hm, fun j h1 h2 hj => ?_,
    exec_cancelJob_notFound s a ht hm⟩
  · subst hsel
    have hfaults := s.bridge.mon_clearFaults p k
    refine ⟨_, exec_clearFaults s a ht hm p hk, ?_⟩
    rw [State.mon_answered]
    exact hfaults
  · have hexec := exec_cancelJob s a ht hm h1 h2 hj
    refine ⟨fun hs => ?_, fun hs => ?_, fun d hs hd hn => ?_⟩
    · rw [hexec, s.bridge.cancelJob_waiting .manager hj hs]
    · rw [hexec, s.bridge.cancelJob_again .manager hj hs]
    · obtain ⟨hasked, hother⟩ := s.bridge.cancelJob_delivering .manager hj hs hd hn
      refine ⟨fun hp => ?_, fun hq hw => by rw [hexec, hother hq hw]⟩
      rw [hexec, hasked hp, Bridge.modJob_modJob]
      exact fun _ => rfl

end Sys2Proof.Machine

/-! # What the end of a command keeps (O6). -/

namespace Sys2Proof.Machine
open Sys2Proof

/-- Settles O6: each stage of the end of a command keeps the bridge, and none reaches the queue of commands. -/
theorem endOfCommandKeeps : Obligations.EndOfCommandKeeps :=
  fun s upset b => ⟨Bridge.kept_settle (storeAfter s.store upset b) b, s.after_pending upset b⟩

end Sys2Proof.Machine

/-! # The timers of a delivery (O37). -/

namespace Sys2Proof.Machine
open Sys2Proof

/-! ## The timers as commands (R192) -/

section
variable (s : State) (l : Lp) (u : List Nat) (h : s.takesTraffic)
include h

theorem exec_paceRefill : exec (.paceRefill l u) s = .next (s.after u (s.bridge.paceRefills l)) := s.command_run u _ h

theorem exec_deliveryWindowClose :
    exec (.deliveryWindowClose l u) s = .next (s.after u (s.bridge.deliveryWindowCloses l)) := s.command_run u _ h

theorem exec_holdWaitEnd : exec (.holdWaitEnd l u) s = .next (s.after u (s.bridge.holdWaitEnds l)) := s.command_run u _ h

end

namespace Bridge

section
variable (b : Bridge) {l : Lp}

/-! ## The pace refill (R143) -/

theorem paceRefills_idle (hd : b.record l = none) : b.paceRefills l = b := by
  simp only [paceRefills, hd]

variable {d : Delivery} (hd : b.record l = some d)
include hd

theorem paceRefills_due (ht : d.refillDue ≤ b.ctl.now) : b.paceRefills l = b.modDelivery fun x =>
    { x with records := x.records.set l (some { d with refillDue := d.refillDue + 125 }),
             pace := x.pace.set l (min 600 (x.pace[l] + 2 * d.pace)) } := by
  simp only [paceRefills, hd, if_pos ht]
  rfl

theorem paceRefills_early (ht : b.ctl.now < d.refillDue) : b.paceRefills l = b := by
  simp only [paceRefills, hd, if_neg (Nat.not_le.2 ht)]

/-! ## The answer window and the hold wait (R146, R148) -/

/-- A resend sends the frame in hand to PACING, to be built anew at its next handover. -/
theorem resend_eq (tries : Nat) : b.resend l tries =
    b.setRecord l (some { d with phase := .pacing, tries, frame := d.frame.map fun f => { f with built := none } }) :=
  b.modRecord_some l _ hd

theorem deliveryWindowCloses_closed {w : Time} (hp : d.phase = .window w) (hw : w ≤ b.ctl.now) :
    b.deliveryWindowCloses l = b.tryEnds l := by
  simp only [deliveryWindowCloses, hd, Option.map_some, hp, if_pos hw]

theorem deliveryWindowCloses_open {w : Time} (hp : d.phase = .window w) (hw : b.ctl.now < w) : b.deliveryWindowCloses l = b := by
  simp only [deliveryWindowCloses, hd, Option.map_some, hp, if_neg (Nat.not_le.2 hw)]

theorem holdWaitEnds_over {w : Time} (hp : d.phase = .holdWait w) (hw : w ≤ b.ctl.now) : b.holdWaitEnds l = b.resend l 1 := by
  simp only [holdWaitEnds, hd, Option.map_some, hp, if_pos hw]

theorem holdWaitEnds_early {w : Time} (hp : d.phase = .holdWait w) (hw : b.ctl.now < w) : b.holdWaitEnds l = b := by
  simp only [holdWaitEnds, hd, Option.map_some, hp, if_neg (Nat.not_le.2 hw)]

end

end Bridge

/-- Settles O37: each timer due, and not due. -/
theorem deliveryTimersActOnTheRecord : Obligations.DeliveryTimersActOnTheRecord := by
  refine ⟨fun s l u h => ?_, fun s l u d h hd => ?_⟩
  · rw [exec_paceRefill s l u h]
    exact ⟨fun d hd ht => s.after_congr u (s.bridge.paceRefills_due hd ht),
      fun d hd ht => s.after_congr u (s.bridge.paceRefills_early hd ht), fun hd => s.after_congr u (s.bridge.paceRefills_idle hd)⟩
  · rw [exec_deliveryWindowClose s l u h, exec_holdWaitEnd s l u h]
    refine ⟨fun w hp hw ht => ?_, fun w hp hw ht => ?_, fun w hp hw => ?_, fun w hp hw => ?_, fun w hp hw => ?_⟩
    · rw [s.bridge.deliveryWindowCloses_closed hd hp hw, s.bridge.tryEnds_again l hd ht]
    · rw [s.bridge.deliveryWindowCloses_closed hd hp hw, s.bridge.tryEnds_last l hd ht]
    · rw [s.bridge.deliveryWindowCloses_open hd hp hw]
    · rw [s.bridge.holdWaitEnds_over hd hp hw, s.bridge.resend_eq hd]
    · rw [s.bridge.holdWaitEnds_early hd hp hw]

end Sys2Proof.Machine

/-! # The answers of printers, and the question they match (O51). -/

namespace Sys2Proof.Machine
open Sys2Proof

namespace Bridge

/-! ## The question an answer matches (R145, R149, R150) -/

theorem tagMatches_iff (tag : Option Nat) (want : Nat) : tagMatches tag want = true ↔ tag = none ∨ tag = some want := by
  cases tag <;> simp [tagMatches]

/-- An answer that matches no question in hand: it is counted, and a silent printer has spoken. -/
abbrev strayAnswer (b : Bridge) (n : DirNo) : Bridge := (b.countDelivery .unexpectedAnswer).leaveSilence n .unknown

section
variable (b : Bridge) (n : DirNo) (seq : OutSeq) (tag : Option Nat) (x : PrinterAnswer)

theorem printerAnswer_none (h : b.question n = .none) : b.printerAnswer n seq tag x = b.strayAnswer n := by
  simp only [printerAnswer, h]

section
variable {q : OutSeq} (h : b.question n = .frame q)
include h

theorem printerAnswer_frame {l : Lp} (hl : b.lpDelivering n = some l) : b.printerAnswer n seq tag x =
    if q = seq ∧ (tag = none ∨ tag = some (l.val + 2)) then b.frameAnswered l x else b.strayAnswer n := by
  simp only [printerAnswer, h, hl, tagMatches_iff, lpEntry]

theorem printerAnswer_frame_stray
    (hne : q ≠ seq ∨ b.lpDelivering n = none ∨ ∃ l t, b.lpDelivering n = some l ∧ tag = some t ∧ t ≠ l.val + 2) :
    b.printerAnswer n seq tag x = b.strayAnswer n := by
  cases hl : b.lpDelivering n with
  | none => simp only [printerAnswer, h, hl]
  | some l =>
    rw [b.printerAnswer_frame n seq tag x h hl]
    refine if_neg fun ⟨hq, htag⟩ => ?_
    obtain hne | hne | ⟨m, t, hm, rfl, ht⟩ := hne
    · exact hne hq
    · rw [hl] at hne; cases hne
    · obtain rfl := Option.some.inj (hl.symm.trans hm)
      exact ht (by simpa using htag)

end

section
variable {q : OutSeq} {k : Nat} {w : Option Time} (h : b.question n = .query q k w)
include h

section
variable (hq : seq = q) (htag : tag = none ∨ tag = some 1)
include hq htag

theorem printerAnswer_query_status (c : StatusCode) :
    b.printerAnswer n seq tag (.status c) = b.queryAnswered n (b.lpDelivering n) c := by
  simp only [printerAnswer, h, if_pos (And.intro hq.symm ((tagMatches_iff tag 1).2 htag))]

theorem printerAnswer_query_other (hx : ∀ c, x ≠ .status c) :
    b.printerAnswer n seq tag x = (b.modPrinter n fun r => { r with question := .none }).leaveSilence n .unknown := by
  simp only [printerAnswer, h, if_pos (And.intro hq.symm ((tagMatches_iff tag 1).2 htag))]

end

theorem printerAnswer_query_stray (hne : q ≠ seq ∨ ∃ t, tag = some t ∧ t ≠ 1) :
    b.printerAnswer n seq tag x = b.strayAnswer n := by
  have hno : ¬ (q = seq ∧ tagMatches tag 1 = true) := by
    rw [tagMatches_iff]
    rintro ⟨hq, htag⟩
    obtain hne | ⟨t, rfl, ht⟩ := hne
    · exact hne hq
    · exact ht (by simpa using htag)
  simp only [printerAnswer, h, if_neg hno]

end

end

/-! ## A STATUS that matches a query (R149, R150) -/

/-- The printer's status is as a STATUS says, its query is answered, and where it was silent its poll timer stops. -/
def statusKnown (b : Bridge) (n : DirNo) (c : StatusCode) : Bridge := b.modPrinter n fun r =>
  { r with status := statusAfter c, question := .none,
           pollFrom := if (b.printer n).any (·.status = .notResponding) then none else r.pollFrom }

section
variable (b : Bridge) (n : DirNo)

theorem queryAnswered_resumes {l : Lp} {d : Delivery} (hd : b.record l = some d) (hp : d.phase = .paused) :
    b.queryAnswered n (some l) .ready =
      ((b.statusKnown n .ready).modPrinter n fun r => { r with pauseStart := none, pollFrom := none }).setRecord l
        (some { d with phase := .pacing, tries := 1, frame := d.frame.map fun f => { f with built := none } }) := by
  have hpaused : ((b.statusKnown n .ready).record l).any (·.phase = .paused) = true := by
    change (b.record l).any _ = true
    simp [hd, hp]
  exact (if_pos ⟨rfl, hpaused⟩).trans (resend_eq _ (by exact hd) 1)

theorem queryAnswered_known {l : Option Lp} {c : StatusCode}
    (h : l = none ∨ c ≠ .ready ∨ ∃ x, l = some x ∧ ∀ d, b.record x = some d → d.phase ≠ .paused) :
    b.queryAnswered n l c = b.statusKnown n c := by
  cases l with
  | none => rfl
  | some l =>
    refine if_neg fun ⟨hc, hpaused⟩ => ?_
    obtain h | h | ⟨x, hx, h⟩ := h
    · cases h
    · exact h hc
    · obtain rfl := Option.some.inj hx
      obtain ⟨d, hd, hp⟩ := (Option.any_eq_true ..).1 hpaused
      exact h d hd (of_decide_eq_true hp)

end

end Bridge

end Sys2Proof.Machine

/-! # The answers to a delivery frame (O51). -/

namespace Sys2Proof.Machine
open Sys2Proof

namespace Bridge

/-- The bridge once a frame that ends at `ends` has been printed: the question is answered and the job stands past the frame, a STREAM
job without the whole blocks before it, which go to the free list. -/
def printed (b : Bridge) (d : Delivery) (j : Job) (ends : Nat) : Bridge :=
  let y := b.modPrinter d.target fun r => { r with question := .none }
  match j.mode with
  | .spool => y.modJob d.job fun _ => { j with position := ends }
  | .stream => (y.modJob d.job fun _ => releaseFront { j with position := ends }).modSpool fun s =>
      { s with freeList := (j.chain.take (ends / 512)).reverse ++ s.freeList }

section
variable (b : Bridge) {l : Lp} {d : Delivery} (hd : b.record l = some d)
include hd

/-! ## The frame waits, or the delivery pauses (R146, R149) -/

theorem holdFrame_eq (units : Nat) : b.holdFrame l units =
    (b.modPrinter d.target fun r => { r with status := .busy }).setRecord l
      (some { d with phase := .holdWait (b.ctl.now + 1250 * max 1 (min 500 units)), tries := 1 }) := by
  simp only [holdFrame, hd]

theorem pauseFrame_eq (c : StatusCode) : b.pauseFrame l c =
    (b.modPrinter d.target fun r => { r with status := statusAfter c, question := .none, pauseStart := some b.ctl.now,
                                             pollFrom := some b.ctl.now }).setRecord l
      (some { d with phase := .paused, frame := d.frame.map fun f => { f with asked := false, built := none } }) := by
  simp only [pauseFrame, hd]

variable {j : Job} (hj : b.job d.job = some j)
include hj

/-! ## The position moves past the frame (R145) -/

section
variable {f : DeliveryFrame} (hf : d.frame = some f)
include hf

theorem replyFrame_eq : b.replyFrame l =
    let z := b.printed d j (f.start + f.count)
    let done := z.modJob d.job fun y => { y with copiesDone := y.copiesDone + 1 }
    if f.endOfCopy = true then
      if j.copiesDone + 1 < j.copies then (done.modJob d.job fun y => { y with position := 0 }).buildFrame l
      else done.finish l (doneOutcome j) .none
    else z.buildFrame l := by
  simp only [replyFrame, hd, hf, hj]
  simp only [printed, freeBlocks_eq, ← number_of_job hj]
  rfl

theorem replyFrame_next (he : f.endOfCopy = false) : b.replyFrame l = (b.printed d j (f.start + f.count)).buildFrame l := by
  simp only [b.replyFrame_eq hd hj hf, he, Bool.false_eq_true, if_false]

variable (he : f.endOfCopy = true)
include he

theorem replyFrame_nextCopy (hc : j.copiesDone + 1 < j.copies) : b.replyFrame l =
    (((b.printed d j (f.start + f.count)).modJob d.job fun y => { y with copiesDone := y.copiesDone + 1 }).modJob d.job fun y =>
      { y with position := 0 }).buildFrame l := by
  simp only [b.replyFrame_eq hd hj hf, if_pos he, if_pos hc]

theorem replyFrame_lastCopy (hc : j.copies ≤ j.copiesDone + 1) : b.replyFrame l =
    ((b.printed d j (f.start + f.count)).modJob d.job fun y => { y with copiesDone := y.copiesDone + 1 }).finish l (doneOutcome j)
      .none := by
  simp only [b.replyFrame_eq hd hj hf, if_pos he, if_neg (Nat.not_lt.2 hc)]

end

/-! ## An answer while the job is CANCELLING (R151) -/

section
variable (hs : j.state = .cancelling)
include hs

theorem frameAnswered_cancelling_status (c : StatusCode) : b.frameAnswered l (.status c) =
    (b.modPrinter d.target fun r => { r with status := statusAfter c }).finishCancelled l := by
  simp [frameAnswered, hd, hj, hs]

theorem frameAnswered_cancelling_waits {x : PrinterAnswer} (hx : x = .busy ∨ ∃ t, x = .hold t) : b.frameAnswered l x =
    (b.modPrinter d.target fun r => { r with status := .busy }).finishCancelled l := by
  obtain rfl | ⟨t, rfl⟩ := hx <;> simp [frameAnswered, hd, hj, hs]

theorem frameAnswered_cancelling_ends {x : PrinterAnswer} (hx : x = .reply ∨ x = .fail) : b.frameAnswered l x =
    (if x = .fail then b.countDelivery .printerFail else b).finishCancelled l := by
  have hrecord : (b.countDelivery .printerFail).record l = some d := hd
  have hjob : (b.countDelivery .printerFail).job d.job = some j := hj
  obtain rfl | rfl := hx
  · simp [frameAnswered, hd, hj, hs]
  · simp [frameAnswered, hrecord, hjob, hs]

end

/-! ## An answer while it is not (R145, R146) -/

section
variable (hs : j.state ≠ .cancelling)
include hs

theorem frameAnswered_reply : b.frameAnswered l .reply = b.replyFrame l := by
  simp [frameAnswered, hd, hj, hs]

theorem frameAnswered_hold (t : Nat) : b.frameAnswered l (.hold t) = b.holdFrame l t := by
  simp [frameAnswered, hd, hj, hs]

theorem frameAnswered_busy {x : PrinterAnswer} (hx : x = .busy ∨ x = .status .busy) : b.frameAnswered l x = b.holdFrame l 10 := by
  obtain rfl | rfl := hx <;> simp [frameAnswered, hd, hj, hs]

theorem frameAnswered_ready : b.frameAnswered l (.status .ready) =
    (b.modPrinter d.target fun r => { r with status := .ready }).resend l 1 := by
  simp [frameAnswered, hd, hj, hs]

theorem frameAnswered_pause {c : StatusCode} (hc : c = .paperOut ∨ c = .offline) :
    b.frameAnswered l (.status c) = b.pauseFrame l c := by
  obtain rfl | rfl := hc <;> simp [frameAnswered, hd, hj, hs]

theorem frameAnswered_fail : b.frameAnswered l .fail = (b.countDelivery .printerFail).tryEnds l := by
  have hrecord : (b.countDelivery .printerFail).record l = some d := hd
  have hjob : (b.countDelivery .printerFail).job d.job = some j := hj
  simp [frameAnswered, hrecord, hjob, hs]

end

end

end Bridge

end Sys2Proof.Machine

/-! # The end of a delivery, and the offers of free printers (O51). -/

namespace Sys2Proof.Machine
open Sys2Proof

namespace Bridge

/-! ## The finish and the stop (R145, R152) -/

theorem job_emptyRecord (b : Bridge) (l : Lp) (n : Nat) : (b.emptyRecord l).job n = b.job n := rfl

theorem job_failover (b : Bridge) (l : Lp) (target : DirNo) (n : Nat) : (b.failover l target).job n = b.job n := by
  unfold failover
  dsimp only
  split
  · split <;> rfl
  · split
    · split <;> rfl
    · rfl

section
variable (b : Bridge) {l : Lp} {d : Delivery} (hd : b.record l = some d)
include hd

theorem finish_eq (o : JobOutcome) (r : JobReason) :
    b.finish l o r = (((b.releasePrinter d.target).emptyRecord l).endJob d.job o r).dispatch := by
  simp only [finish, hd]

/-- What a stop does to the job, once its printer is free and its record empty. -/
theorem stop_eq {j : Job} (hj : (b.releasePrinter d.target).job d.job = some j) : b.stop l =
    let c := ((b.releasePrinter d.target).failover l d.target).emptyRecord l
    ((if j.state = .cancelling then c.endJob d.job .cancelled (j.cancelReason.getD .owner)
      else if j.mode = .stream then c.endJob d.job .failed .targetLost
      else c.requeue j).countDelivery .stopped).dispatch := by
  have hjob : (((b.releasePrinter d.target).failover l d.target).emptyRecord l).job d.job = some j :=
    (job_emptyRecord _ l d.job).trans ((job_failover _ l d.target d.job).trans hj)
  simp only [stop, stopQuiet, hd, hjob, cancelReasonOf, Option.bind_some]
  cases j.mode <;> simp

end

/-! ## What the offers leave of the deliveries that have ended (R142) -/

theorem ended_buildFrame (b : Bridge) (l : Lp) : (b.buildFrame l).delivery.ended = b.delivery.ended := by
  unfold buildFrame
  split
  · split
    · split <;> rfl
    · rfl
  · rfl

theorem ended_startJob (b : Bridge) (l : Lp) (j : Job) (n : DirNo) : (b.startJob l j n).delivery.ended = b.delivery.ended := by
  unfold startJob
  split
  · split
    · exact ended_buildFrame _ l
    · rfl
  · rfl

theorem ended_tryStart (b : Bridge) (l : Lp) {c : Bridge} (h : b.tryStart l = some c) : c.delivery.ended = b.delivery.ended := by
  unfold tryStart at h
  split at h
  · split at h
    · exact Option.some.inj h ▸ b.ended_startJob l _ _
    · cases h
  · cases h

section
variable (b : Bridge) {l : Lp}

/-! ## An offer to a WAITING logical printer (R142) -/

/-- A logical printer leaves the WAITING list. -/
abbrev leavesWaiting (b : Bridge) (l : Lp) : Bridge := b.modDelivery fun y => { y with waiting := y.waiting.filter (· ≠ l) }

theorem offerWaiting_notReady (h : b.readyHead l = none) :
    b.offerWaiting l = (b.modLp l fun y => { y with state := .idle }).leavesWaiting l := by
  simp only [offerWaiting, h]

theorem offerWaiting_starts {j : Job} {c : Bridge} (h : b.readyHead l = some j) (hc : b.tryStart l = some c) :
    b.offerWaiting l = c.leavesWaiting l := by
  simp only [offerWaiting, h, hc]

theorem offerWaiting_stays {j : Job} (h : b.readyHead l = some j) (hc : b.tryStart l = none) : b.offerWaiting l = b := by
  simp only [offerWaiting, h, hc]

theorem ended_offerWaiting : (b.offerWaiting l).delivery.ended = b.delivery.ended := by
  cases h : b.readyHead l with
  | none => rw [b.offerWaiting_notReady h]; rfl
  | some j =>
    cases hc : b.tryStart l with
    | none => rw [b.offerWaiting_stays h hc]
    | some c => rw [b.offerWaiting_starts h hc]; exact (b.ended_tryStart l hc :)

/-! ## An offer to an IDLE logical printer (R140, R142) -/

theorem offerIdle_passes (h : (b.lp l).state ≠ .idle ∨ b.readyHead l = none) : b.offerIdle l = b := by
  refine if_neg fun ⟨hidle, hready⟩ => ?_
  obtain h | h := h
  · exact h hidle
  · rw [h] at hready; cases hready

section
variable (hidle : (b.lp l).state = .idle) {j : Job} (h : b.readyHead l = some j)
include hidle h

theorem offerIdle_starts {c : Bridge} (hc : b.tryStart l = some c) : b.offerIdle l = c := by
  simp [offerIdle, hidle, h, hc]

theorem offerIdle_waits (hc : b.tryStart l = none) : b.offerIdle l =
    (b.modLp l fun y => { y with state := .waiting }).modDelivery fun y => { y with waiting := y.waiting ++ [l] } := by
  simp [offerIdle, hidle, h, hc]

end

end

/-! ## All the offers (R142) -/

theorem dispatch_eq (b : Bridge) : b.dispatch =
    (b.delivery.ended.foldl offerIdle (((List.finRange 8).filter fun l => l ∉ b.delivery.ended).foldl offerIdle
      (b.delivery.waiting.foldl offerWaiting b))).modDelivery fun y => { y with ended := [] } := by
  have hended (ls : List Lp) (c : Bridge) : (ls.foldl offerWaiting c).delivery.ended = c.delivery.ended := by
    induction ls generalizing c with
    | nil => rfl
    | cons l ls ih => exact (ih _).trans c.ended_offerWaiting
  simp only [dispatch, hended, ← List.contains_iff_mem, Bool.not_eq_true, Bool.decide_eq_false]

end Bridge

end Sys2Proof.Machine

/-! # Printer answers, ends of deliveries and offers as a whole (O51). -/

namespace Sys2Proof.Machine
open Sys2Proof

namespace Bridge

/-- A requeue, by the number the job is found under (R137). -/
theorem requeue_eq (b : Bridge) {c : Bridge} {n : Nat} {j : Job} (hj : b.job n = some j) : c.requeue j =
    (c.modJob n fun y => { y with state := .queued, position := 0, latchedTarget := none, latchedPace := none }).modLp j.lp
      fun y => { y with queue := n :: y.queue } := by
  rw [← number_of_job hj]
  rfl

end Bridge

/-- Settles O51: the question an answer matches, the answers to a query and to a frame, the finish and the stop of a delivery, and the
offers that follow. -/
theorem printerAnswersActOnTheDelivery : Obligations.PrinterAnswersActOnTheDelivery := by
  refine ⟨fun b n seq tag x => ?question, fun b n l code => ?query, fun b l d j x hd hj => ?frame, fun b l d o r hd => ?ends,
    Bridge.dispatch_eq, fun b l => ?offers⟩
  case question =>
    exact ⟨fun l h hl ht => (b.printerAnswer_frame n seq tag x h hl).trans (if_pos ⟨rfl, ht⟩),
      fun q k w c h hq ht hx => hx ▸ b.printerAnswer_query_status n seq tag h hq ht c,
      fun q k w h hq ht hx => b.printerAnswer_query_other n seq tag x h hq ht hx,
      b.printerAnswer_none n seq tag x, fun q h => b.printerAnswer_frame_stray n seq tag x h,
      fun q k w h => b.printerAnswer_query_stray n seq tag x h⟩
  case query =>
    intro known
    have hknown : known = b.statusKnown n code := by cases code <;> rfl
    rw [hknown]
    refine ⟨fun x d hl hcode hd hp => ?_, b.queryAnswered_known n⟩
    subst hl hcode
    exact b.queryAnswered_resumes n hd hp
  case frame =>
    intro c reported waits resent
    refine ⟨fun hs => ⟨fun st hx => ?_, fun hx => ?_, fun hx => ?_⟩, fun hs => ⟨fun t hx => ?_, fun hx => ?_, fun hx => ?_,
      fun st hx => ?_, fun hx ht => ?_, fun hx ht => ?_, fun f hx hf => ?_⟩⟩
    · have hc : c = b := if_neg (by simp [hx])
      rw [hc, hx, b.frameAnswered_cancelling_status hd hj hs st]
      cases st <;> rfl
    · have hc : c = b := if_neg (by obtain rfl | ⟨t, rfl⟩ := hx <;> simp)
      rw [hc, b.frameAnswered_cancelling_waits hd hj hs hx]
    · exact b.frameAnswered_cancelling_ends hd hj hs hx
    · rw [hx, b.frameAnswered_hold hd hj hs t]
      exact b.holdFrame_eq hd t
    · rw [b.frameAnswered_busy hd hj hs hx]
      exact b.holdFrame_eq hd 10
    · rw [hx, b.frameAnswered_ready hd hj hs]
      exact (reported b .ready).resend_eq hd 1
    · obtain ⟨rfl, rfl⟩ | ⟨rfl, rfl⟩ := hx
      · rw [b.frameAnswered_pause hd hj hs (.inl rfl)]
        exact b.pauseFrame_eq hd .paperOut
      · rw [b.frameAnswered_pause hd hj hs (.inr rfl)]
        exact b.pauseFrame_eq hd .offline
    · have hc : c = b.countDelivery .printerFail := if_pos hx
      rw [hx, hc, b.frameAnswered_fail hd hj hs]
      exact (b.countDelivery .printerFail).tryEnds_again l hd ht
    · have hc : c = b.countDelivery .printerFail := if_pos hx
      rw [hx, hc, b.frameAnswered_fail hd hj hs]
      exact (b.countDelivery .printerFail).tryEnds_last l hd ht
    · intro ends k y z done
      have hz : z = b.printed d j ends := by
        unfold z Bridge.printed
        cases j.mode <;> rfl
      have houtcome : Bridge.doneOutcome j = if j.mode = .stream ∧ j.input = .partly then .donePartial else .done := rfl
      rw [hx, b.frameAnswered_reply hd hj hs, ← houtcome]
      unfold done
      rw [hz]
      exact ⟨b.replyFrame_next hd hj hf, b.replyFrame_nextCopy hd hj hf, b.replyFrame_lastCopy hd hj hf⟩
  case ends =>
    intro freed ended
    refine ⟨b.finish_eq hd o r, fun j hj => ?_⟩
    intro x turned
    rw [← Bridge.requeue_eq freed hj]
    exact b.stop_eq hd hj
  case offers =>
    intro leaves
    exact ⟨b.offerWaiting_notReady, fun j c => b.offerWaiting_starts, fun j => b.offerWaiting_stays, b.offerIdle_passes,
      fun j c hidle h => b.offerIdle_starts hidle h,
      fun j hidle h => b.offerIdle_waits hidle h⟩

end Sys2Proof.Machine

/-! # What every command leaves sound (O3, O8, O59). -/

namespace Sys2Proof.Machine
open Sys2Proof

/-! ## Every command ends as a command does -/

/-- Whatever a command's own effect is, it ends by settling, with the upset bits its operands name. -/
theorem exec_eq_after (c : Instr) (s : State) : ∃ b, exec c s = .next (s.after c.upset b) := by
  cases c <;> exact ⟨_, rfl⟩

theorem exec_next_eq_after {c : Instr} {s t : State} (h : exec c s = .next t) : ∃ b, t = s.after c.upset b := by
  obtain ⟨b, hb⟩ := exec_eq_after c s
  exact ⟨b, Host.Outcome.next.inj (h.symm.trans hb)⟩

/-- What a step can do: one word time on an empty queue, or the first waiting command to its end. -/
theorem step_cases {s t : State} (h : step s = .next t) :
    t = s.tick ∨ ∃ c rest b, s.pending = c :: rest ∧ t = State.after { s with pending := rest } c.upset b := by
  unfold step at h
  split at h
  next => exact .inl (Host.Outcome.next.inj h).symm
  next c rest hp =>
    obtain ⟨b, hb⟩ := exec_next_eq_after h
    exact .inr ⟨c, rest, b, hp, hb⟩

/-! ## Sound states (R128, R186; log 5) -/

namespace State

/-- Time alone changes neither the store nor a condition of the FAULT pin. -/
theorem sound_tick {s : State} (h : s.sound) : s.tick.sound := h

theorem sound_after {s : State} (h : s.storeSound) (u : List Nat) (b : Bridge) : (s.after u b).sound :=
  ⟨s.storeSound_after u b h, s.written_after u b, s.faultSound_after u b⟩

end State

/-- Settles O3: a word time touches nothing of it, and the end of a command restores all three parts. -/
theorem soundStatesStaySound : Obligations.SoundStatesStaySound := by
  intro s t hs ht
  obtain rfl | ⟨c, rest, b, -, rfl⟩ := step_cases ht
  · exact State.sound_tick hs
  · obtain ⟨hstore, -, -⟩ := hs
    exact State.sound_after (s := { s with pending := rest }) hstore c.upset b

/-! ## The conditions of the FAULT pin (R186, R192) -/

theorem mem_faultKinds (k : FaultKind) : k ∈ faultKinds := by cases k <;> decide

namespace Bridge

theorem reportedLatch_iff (b : Bridge) (p : Port) :
    b.reportedLatch p = true ↔ ∃ k, (b.mon p).latched.has k = true ∧ (b.portSettings p).report.has k = true := by
  simp [reportedLatch, List.any_eq_true, mem_faultKinds]

theorem faultCondition_iff (b : Bridge) : b.faultCondition = true ↔ b.ctl.phase = .running ∧
    ((∃ p k, (b.mon p).latched.has k = true ∧ (b.portSettings p).report.has k = true) ∨
      (b.group storeGroup).first ≠ none ∨ b.agent.setup = true) := by
  simp [faultCondition, reportedLatch_iff, Option.isSome_iff_ne_none, or_assoc]

end Bridge

/-- Settles O59: a command ends with the pin at its conditions. -/
theorem faultPinShowsItsConditions : Obligations.FaultPinShowsItsConditions := by
  intro c s t ht
  obtain ⟨b, rfl⟩ := exec_next_eq_after ht
  rw [s.faultSound_after c.upset b]
  exact Bridge.faultCondition_iff _

/-! ## Before the load has ended (R192; log 2) -/

/-- A command that awaits traffic is an effect taken only while the U416 takes traffic. -/
theorem exec_awaitsTraffic (c : Instr) (s : State) (h : c.awaitsTraffic = true) :
    ∃ f, exec c s = s.command c.upset (·.whenRunning f) := by
  cases c with
  | receiveBlock | foreignCarrierStart | allowanceRefill | linkIndicationOn | linkIndicationBreak | linkDown | powerOn | pinReset
  | resetEnd | configLoadEnd => exact absurd h Bool.false_ne_true
  | _ => exact ⟨_, rfl⟩

/-- Outside running traffic such an effect leaves the bridge to settle as it is. -/
theorem State.command_held (s : State) (u : List Nat) (f : Bridge → Bridge) (h : ¬ s.takesTraffic) :
    s.command u (·.whenRunning f) = .next (s.after u s.bridge) :=
  s.after_congr u (s.bridge.whenRunning_held f h)

/-- Settles O8. -/
theorem nothingIsTakenBeforeTheLoadEnds : Obligations.NothingIsTakenBeforeTheLoadEnds := by
  intro c s hheld hc
  obtain ⟨f, hf⟩ := exec_awaitsTraffic c s hc
  exact hf.trans (s.command_held c.upset f hheld)

end Sys2Proof.Machine

/-! # SAVE and its result (O49). -/

namespace Sys2Proof.Machine
open Sys2Proof

namespace Bridge

theorem beginSave_begins (b : Bridge) (hi : b.agent.saveState = .idle) (hw : b.ctl.waiting = none) :
    b.beginSave = (.ok, .none, b.modAgent fun x =>
      { x with saveState := .running, saving := b.imageNow, configMem := { x.configMem with marker := false } }) := by
  simp [beginSave, hi, hw]

theorem beginSave_busy (b : Bridge) (h : b.agent.saveState = .running ∨ b.ctl.waiting ≠ none) :
    b.beginSave = (.busy, .none, b) :=
  if_pos (h.imp_right Option.isSome_iff_ne_none.2)

theorem completeSave_running (b : Bridge) (ack : Bool) (h : b.agent.saveState = .running) :
    b.completeSave ack = b.modAgent fun x =>
      if ack then
        { x with saveState := .idle, lastSave := .done,
                 configMem := { marker := true, image := x.saving, check := checkOf (Config.imageBytes x.saving) } }
      else { x with saveState := .idle, lastSave := .failed } := if_pos h

theorem completeSave_idle (b : Bridge) (ack : Bool) (h : b.agent.saveState = .idle) : b.completeSave ack = b :=
  if_neg (by simp [h])

end Bridge

theorem exec_save (s : State) (a : Asker) (ht : s.takesTraffic) (hm : s.bridge.mayManage a = true) {res : Result}
    {body : AnswerBody} {c : Bridge} (h : s.bridge.beginSave = (res, body, c)) :
    exec (.save a) s = .next (s.answered a 18 0 res body c) :=
  manage_plain s a .save ht hm (congrArg Bridge.plain h)

theorem exec_saveComplete (s : State) (ack : Bool) (h : s.takesTraffic) :
    exec (.saveComplete ack) s = .next (s.after [] (s.bridge.completeSave ack)) := s.command_run [] _ h

/-- Settles O49: the request by what the agent and the reset controller have in hand, the completion by the save state. -/
theorem saveRunsToItsResult : Obligations.SaveRunsToItsResult := by
  refine ⟨fun s a ht hm => ⟨fun hi hw => ?begins, fun h => ?busy⟩, fun s ht hr => ⟨?done, ?failed⟩, fun s ack ht hi => ?idle⟩
  case begins => exact exec_save s a ht hm (s.bridge.beginSave_begins hi hw)
  case busy => exact exec_save s a ht hm (s.bridge.beginSave_busy h)
  case done => exact (exec_saveComplete s true ht).trans (s.after_congr [] (s.bridge.completeSave_running true hr))
  case failed => exact (exec_saveComplete s false ht).trans (s.after_congr [] (s.bridge.completeSave_running false hr))
  case idle => exact (exec_saveComplete s ack ht).trans (s.after_congr [] (s.bridge.completeSave_idle ack hi))

end Sys2Proof.Machine

/-! # Resets that wait, and resets that hold the part (O50). -/

namespace Sys2Proof.Machine
open Sys2Proof

/-! ## Armed resets (R190) -/

namespace Bridge

/-- Offering a management answer leaves the clock and the reset controller's records. -/
theorem ctl_manageAnswer (b : Bridge) (a : Asker) (bytes : List Byte) : (b.manageAnswer a bytes).2.ctl = b.ctl := by
  cases a with
  | coax p src dst seq e =>
    rw [manageAnswer_coax]
    split <;> rfl
  | pair mac dst tag seq e =>
    rw [manageAnswer_pair]
    split <;> rfl

theorem requestReset_busy (b : Bridge) {k : ArmedReset}
    (h : b.ctl.waiting ≠ none ∨ k = .soft ∧ b.agent.saveState = .running) :
    b.requestReset k = (.busy, .none, .none, b) := by
  have hbusy : b.resetBusy k = true := by simpa [resetBusy, Option.isSome_iff_ne_none] using h
  exact if_pos hbusy

theorem requestReset_arms (b : Bridge) {k : ArmedReset} (hw : b.ctl.waiting = none)
    (hk : k = .soft → b.agent.saveState = .idle) : b.requestReset k = (.ok, .none, .arm k, b) := by
  have hfree : ¬ b.resetBusy k = true := by simp +contextual [resetBusy, hw, hk]
  exact if_neg hfree

/-- With no reset waiting, or none whose answer is reported or whose 100 ms have passed, no soft reset is taken. -/
theorem takeSoftReset_waits (b : Bridge) (h : ∀ w, b.ctl.waiting = some w → b.resetDue w = false) : b.takeSoftReset = b := by
  unfold takeSoftReset
  split
  next w hw => simp [h w hw]
  next => rfl

theorem takePortReset_waits (b : Bridge) (h : ∀ w, b.ctl.waiting = some w → b.resetDue w = false) : b.takePortReset = b := by
  unfold takePortReset
  split
  next w hw =>
    split
    · simp [h w hw]
    · rfl
  next => rfl

/-- A reset that waits for the report of its answer, its 100 ms not over, is not due. -/
theorem resetDue_eq_false_of_waits (b : Bridge)
    (h : b.ctl.waiting = none ∨ ∃ w, b.ctl.waiting = some w ∧ w.reported = false ∧ b.ctl.now < w.deadline) :
    ∀ w, b.ctl.waiting = some w → b.resetDue w = false := by
  intro w hw
  obtain hn | ⟨v, hv, hrep, hdl⟩ := h
  · simp [hn] at hw
  · obtain rfl : v = w := Option.some.inj (hv.symm.trans hw)
    rw [← Bool.not_eq_true, b.resetDue_iff]
    simp [hrep, hdl]

end Bridge

section
variable (s : State) (a : Asker) (ht : s.takesTraffic) (hm : s.bridge.mayManage a = true)
include ht hm

/-- A request that arms a reset is answered OK, and the reset then waits with the serial number of that answer. -/
theorem manage_arms (r : ManageReq) {k : ArmedReset} (h : s.bridge.carryOut r = (.ok, .none, .arm k, s.bridge)) :
    let y := s.bridge.manageAnswer a (answerRecord r.code r.selector .ok .none)
    s.manage a r = .next (s.after [] (y.2.setCtl { s.bridge.ctl with
      waiting := some { kind := k, answer := s.bridge.serial, reported := y.1, deadline := s.bridge.ctl.now + 12500 } })) := by
  intro y
  have hctl : y.2.ctl = s.bridge.ctl := s.bridge.ctl_manageAnswer a _
  rw [s.manage_run a r ht, Bridge.request, Bridge.takeManage, if_pos hm]
  simp only [h, ← hctl]
  rfl

theorem exec_resetBridge_busy (h : s.bridge.ctl.waiting ≠ none ∨ s.bridge.agent.saveState = .running) :
    exec (.resetBridge a) s = .next (s.answered a 19 0 .busy .none s.bridge) :=
  manage_plain s a .resetBridge ht hm (s.bridge.requestReset_busy (h.imp_right fun hr => ⟨rfl, hr⟩))

theorem exec_resetPort_busy (p : Port) (h : s.bridge.ctl.waiting ≠ none) :
    exec (.resetPort a p.val) s = .next (s.answered a 20 p.val .busy .none s.bridge) :=
  manage_plain s a (.resetPort p.val) ht hm ((s.bridge.onPort_val p _).trans (s.bridge.requestReset_busy (.inl h)))

theorem exec_resetPort_malformed {sel : Nat} (h : 3 < sel) :
    exec (.resetPort a sel) s = .next (s.answered a 20 sel .malformed .none s.bridge) :=
  manage_plain s a (.resetPort sel) ht hm (s.bridge.onPort_malformed h _)

end

/-! ## The end of a command with nothing left to do -/

namespace Bridge

theorem written_of_allWritten {b : Bridge} (h : b.AllWritten) : b.written = b := by
  have hs : { b.spool with toWrite := [] } = b.spool := by rw [← h]
  show b.setSpool { b.spool with toWrite := [] } = b
  rw [hs]
  rfl

theorem driveFault_of_sound {b : Bridge} (h : b.reporting.fault = b.faultCondition) : b.driveFault = b := by
  rw [driveFault, ← h]
  rfl

end Bridge

/-- A command that writes nothing into the store and names no upset bit keeps it. -/
theorem storeAfter_of_written (m : Store) {b : Bridge} (h : b.AllWritten) : storeAfter m [] b = m := by
  rw [storeAfter, h]
  rfl

/-! ## The power-on values (R192) -/

namespace Bridge

variable (b : Bridge) (ph : Phase) (cause : ResetCause)

@[simp] theorem port_powerValues (p : Port) : (b.powerValues ph cause).port p = b.powerPort p := port_setPorts_ofFn b b.powerPort p

@[simp] theorem feed_powerValues (i : PairNo) : (b.powerValues ph cause).feed i = {} := by simp [powerValues, feed]

@[simp] theorem lp_powerValues (l : Lp) : (b.powerValues ph cause).lp l = {} := by simp [powerValues, lp]

@[simp] theorem record_powerValues (l : Lp) : (b.powerValues ph cause).record l = none := by simp [powerValues, record]

@[simp] theorem group_powerValues (g : Fin 9) : (b.powerValues ph cause).group g = { counters := groupCounters g } := by
  simp [powerValues, group]

theorem powerOnValues_powerValues : PowerOnValues (b.powerValues ph cause) where
  queues p := by rw [port_powerValues]; exact ⟨rfl, rfl, rfl, rfl⟩
  contention p := by rw [port_powerValues]; exact ⟨rfl, rfl⟩
  allowance p := by rw [port_powerValues]; exact ⟨rfl, rfl⟩
  monitor p := by rw [mon, port_powerValues]; exact ⟨rfl, rfl, rfl, rfl, rfl, rfl, rfl, rfl, rfl⟩
  feed i := by rw [feed_powerValues]; exact ⟨rfl, rfl, rfl, allZero_feedCounters⟩
  repeats := rfl
  pair := ⟨rfl, rfl, rfl, rfl, rfl, rfl, rfl⟩
  directory := ⟨rfl, rfl⟩
  forwarding := powerOnValues_reset.forwarding
  exchanges := rfl
  jobs := powerOnValues_reset.jobs
  printers := b.lp_powerValues ph cause
  delivery := by
    obtain ⟨-, -, hzero, hpace⟩ := powerOnValues_reset.delivery
    exact ⟨rfl, rfl, hzero, fun l => ⟨b.record_powerValues ph cause l, (hpace l).2⟩⟩
  groups g := by rw [group_powerValues]; exact ⟨allZero_groupCounters g, rfl, rfl⟩
  reporting := ⟨rfl, rfl⟩
  agent := ⟨rfl, rfl, rfl⟩
  waiting := rfl

/-- A part held at its power-on values has nothing to deliver, to hand over, to write or to show on the FAULT pin. -/
theorem settle_powerValues (m : Store) (h : ph ≠ .running) : (b.powerValues ph cause).settle m = b.powerValues ph cause := by
  have hd : (b.powerValues ph cause).dispatch = b.powerValues ph cause :=
    dispatch_idle _ rfl fun l => by rw [lp_powerValues]
  have hf : (b.powerValues ph cause).faultCondition = false := by simp [faultCondition, powerValues, h]
  have hq : (b.powerValues ph cause).handToPhy = b.powerValues ph cause := rfl
  rw [settle, hd, handOvers_idle m _ (b.record_powerValues ph cause), hq, written_of_allWritten (b := b.powerValues ph cause) rfl]
  exact driveFault_of_sound hf.symm

end Bridge

/-- The state of a part that a reset takes to its power-on values. -/
theorem after_powerValues (s : State) (ph : Phase) (cause : ResetCause) (h : ph ≠ .running) :
    s.after [] (s.bridge.powerValues ph cause) = { s with bridge := s.bridge.powerValues ph cause } := by
  rw [State.after, s.bridge.settle_powerValues ph cause _ h, storeAfter_of_written s.store (b := s.bridge.powerValues ph cause) rfl]

/-- A reset that holds the part brings every block to its power-on values; the configuration memory, the queue of commands and the store
are kept (R190, R192; log 5). -/
theorem held_after (s : State) (ph : Phase) (cause : ResetCause) (h : ph ≠ .running) :
    let t := s.after [] (s.bridge.powerValues ph cause)
    PowerOnValues t.bridge ∧ t.bridge.ctl.phase = ph ∧ t.bridge.ctl.cause = cause ∧
      t.bridge.agent.configMem = s.bridge.agent.configMem ∧ t.bridge.settings = {} ∧ t.pending = s.pending ∧ t.store = s.store := by
  intro t
  have ht : t = { s with bridge := s.bridge.powerValues ph cause } := after_powerValues s ph cause h
  rw [ht]
  exact ⟨s.bridge.powerOnValues_powerValues ph cause, rfl, rfl, rfl, rfl, rfl, rfl⟩

/-! ## The commands that hold the part and let it go (R190, R192) -/

theorem exec_powerOn (s : State) : exec .powerOn s = .next (s.after [] (s.bridge.powerValues .heldPower .power)) := rfl

theorem exec_pinReset_absorbed (s : State) (h : s.bridge.ctl.phase = .heldPower) :
    exec .pinReset s = .next (s.after [] s.bridge) := s.after_congr [] (if_pos h)

theorem exec_pinReset_holds (s : State) (h : s.bridge.ctl.phase ≠ .heldPower) :
    exec .pinReset s = .next (s.after [] (s.bridge.powerValues .heldPin .pin)) := s.after_congr [] (if_neg h)

theorem exec_resetEnd_held (s : State) (h : s.bridge.ctl.phase = .heldPower ∨ s.bridge.ctl.phase = .heldPin) :
    exec .resetEnd s = .next (s.after []
      (s.bridge.setCtl { s.bridge.ctl with phase := .loading, secondsFrom := s.bridge.ctl.now })) := s.after_congr [] (if_pos h)

theorem exec_resetEnd_free (s : State) (h : s.bridge.ctl.phase = .running ∨ s.bridge.ctl.phase = .loading) :
    exec .resetEnd s = .next (s.after [] s.bridge) :=
  s.after_congr [] (if_neg (by obtain h | h := h <;> simp [h]))

/-- Settles O50: the two requests by what waits already, the resets that are not due, and the resets that hold the part. -/
theorem resetsWaitOrAreHeld : Obligations.ResetsWaitOrAreHeld := by
  refine ⟨⟨fun s a sel ht hm => ⟨fun hw hi => ?bridgeWaits, fun h => ?bridgeBusy, fun p hp hw => ?portWaits,
    fun hsel hw => ?portBusy, fun hsel => ?portMalformed⟩, fun s ht h => ?notDue⟩, fun s => ?power, fun s h => ?pin,
    exec_pinReset_absorbed, exec_resetEnd_held, exec_resetEnd_free⟩
  case bridgeWaits => exact manage_arms s a ht hm .resetBridge (s.bridge.requestReset_arms hw fun _ => hi)
  case bridgeBusy => exact exec_resetBridge_busy s a ht hm h
  case portWaits =>
    subst hp
    exact manage_arms s a ht hm (.resetPort p.val)
      ((s.bridge.onPort_val p _).trans (s.bridge.requestReset_arms hw fun hk => nomatch hk))
  case portBusy => exact exec_resetPort_busy s a ht hm ⟨sel, Nat.lt_succ_of_le hsel⟩ hw
  case portMalformed => exact exec_resetPort_malformed s a ht hm hsel
  case notDue =>
    have hwaits := s.bridge.resetDue_eq_false_of_waits h
    exact ⟨(exec_softReset s ht).trans (s.after_congr [] (s.bridge.takeSoftReset_waits hwaits)),
      (exec_portReset s ht).trans (s.after_congr [] (s.bridge.takePortReset_waits hwaits))⟩
  case power => exact ⟨_, exec_powerOn s, held_after s .heldPower .power (by decide)⟩
  case pin => exact ⟨_, exec_pinReset_holds s h, held_after s .heldPin .pin (by decide)⟩

end Sys2Proof.Machine

/-! # What a step runs, and that no run stops (O1, O2). -/

namespace Sys2Proof.Machine
open Sys2Proof

/-- On an empty queue one word time passes (log 1). -/
theorem step_of_empty {s : State} (h : s.pending = []) : step s = .next s.tick := by
  simp only [step, h]

/-- The front command runs with the rest of the queue waiting. -/
theorem step_of_front {s : State} {c : Instr} {rest : List Instr} (h : s.pending = c :: rest) :
    step s = exec c { s with pending := rest } := by
  simp only [step, h]

/-- Settles O1: the two branches of a step, by what stands in the queue. -/
theorem stepRunsFrontCommand : Obligations.StepRunsFrontCommand := by
  refine ⟨fun c s => ?front, fun s h => ?empty⟩
  case front => exact step_of_front rfl
  case empty => exact step_of_empty h

/-- Every state has a next one: a word time always passes, and every command ends by settling. -/
theorem exists_step_next (s : State) : ∃ t, step s = .next t := by
  cases hp : s.pending with
  | nil => exact ⟨s.tick, step_of_empty hp⟩
  | cons c rest =>
    obtain ⟨b, hb⟩ := exec_eq_after c { s with pending := rest }
    exact ⟨_, (step_of_front hp).trans hb⟩

/-- Settles O2, by induction on the length of the run. -/
theorem noRunStops : Obligations.NoRunStops := by
  intro k
  induction k with
  | zero => exact fun _ => trivial
  | succ k ih =>
    intro s
    obtain ⟨t, ht⟩ := exists_step_next s
    exact ⟨t, ht, ih t⟩

end Sys2Proof.Machine
